-- ==== Sys2Proof/Word.lean ====
section
/-! DEFINITION. The word types of the device: a register word of 16 bits, a byte, a 26-bit byte address (R11, R12). -/

namespace Sys2Proof

/-- A word is 16 bits (R11). -/
abbrev Word := BitVec 16

/-- A byte of memory. -/
abbrev Byte := BitVec 8

/-- A 26-bit byte address (R11, R26). -/
abbrev Addr := BitVec 26

/-- The master IDs that are issued, 0 to 21 (R25). -/
abbrev Master := Fin 22

/-- The twelve hearths (R25). -/
abbrev HearthId := Fin 12

/-- The thirty-two jigs (R240). -/
abbrev JigId := Fin 32

/-- The two Rierver channels, 0 for A and 1 for B (R175). -/
abbrev ChanId := Fin 2

/-- The six CAN channels (R211). -/
abbrev CanId := Fin 6

/-- The eleven fabric ports, P0 to P10 (R124). -/
abbrev PortId := Fin 11

/-- The twelve motion axes (R346). -/
abbrev AxisId := Fin 12

end Sys2Proof
end

