-- ==== Sys2Proof/Syntax.lean ====
section
/-! DEFINITION. The commands of the block, one constructor per row of spec/opcode_table.json, with the operands that
come from outside the device: who accesses a register and with which value, what arrives on a line, what a sensor reads. -/

namespace Sys2Proof

/-- The part of a 16-bit word that an access covers (R477): the whole word, or one byte of it. -/
inductive ByteSel where
  | word | low | high
  deriving DecidableEq, Repr

/-- A lane of a Rierver channel: the in lane faces the upstream neighbour, the out lane the downstream one (R175). -/
inductive Lane where
  | inn | out
  deriving DecidableEq, Repr

/-- A Rierver frame on the line (R178): the 16 header bytes and their CRC, the payload with one CRC per segment of up
to 1,024 bytes. `code` tells that a code error or /A/ cut the frame: the segments from that number on are bad (R209).
`sub` is the sliver of the beat in which the lane's marker for /S/ was stamped (R50). -/
structure RingWire where
  header : List Byte
  hcrc : BitVec 32
  payload : List Byte
  crcs : List (BitVec 32)
  code : Option Nat := none
  sub : Fin 8 := 0
  deriving DecidableEq, Repr

/-- A CAN frame at its validation point (R218 to R220): identifier, format bits, data, and the kernel cycles since the
last coincidence of R52 at which its SOF and its validation point were registered. `own` marks a frame that the channel
sent itself. -/
structure CanFrame where
  id : BitVec 29
  ide : Bool
  rtr : Bool
  fdf : Bool
  brs : Bool
  esi : Bool
  dlc : BitVec 4
  data : List Byte
  own : Bool
  sofCycle : Nat
  valCycle : Nat
  deriving DecidableEq, Repr

/-- How a CAN transmission ended (R230). -/
inductive TxResult where
  | success | lostArbitration | bitError | otherError
  deriving DecidableEq, Repr

/-- What the tail of an arriving frame shows beside its bytes (R140): a code or symbol error, the first of its cells that read
with a double error, a preemption reassembly error. -/
structure TailInfo where
  code : Bool
  ecc : Option Nat
  reassembly : Bool
  deriving DecidableEq, Repr

/-- What resets a PCIe host's port state (R417). -/
inductive HostResetCause where
  | perst | hotReset | linkLoss
  deriving DecidableEq, Repr

/-- One set of seasoning measurements (R458): slack of the 44 canaries in taps, the 8 ring oscillators in 2^-16 of
their baseline-free count, 6 temperatures in 1/8 °C, eyes of P0 to P9 and of the 4 Rierver lanes, on-resistance of the
16 outputs in milliohm where it could be taken. -/
structure SensorReadings where
  slack : List Int
  osc : List Int
  temp : List Int
  eyes : List Nat
  ron : List (Option Nat)
  deriving DecidableEq, Repr

/-- The commands of the block: one constructor for every row of spec/opcode_table.json. -/
inductive Instr where
  /-- REGISTER_WRITE (R13): A write to a register that has no row of its own sets its fields as its register table states. -/
  | registerWrite (m : Master) (sel : ByteSel) (a : Addr) (v : Word)
  /-- PAIR_LO_READ (R480): A read of a _LO register returns its word and latches the _HI word for the reading master. -/
  | pairLoRead (m : Master) (a : Addr)
  /-- PAIR_LO_WRITE (R481): A write of a _LO register is held for the writing master without being applied. -/
  | pairLoWrite (m : Master) (a : Addr) (v : Word)
  /-- PAIR_HI_WRITE (R481): A write of a _HI register writes both halves in one beat, using the held low word if it names the same pair. -/
  | pairHiWrite (m : Master) (a : Addr) (v : Word)
  /-- READ_CLEAR (R14): A read of an RC register or RC pair returns the value and clears it; an event in the same beat is kept. -/
  | readClear (m : Master) (a : Addr)
  /-- TICK_START (R38): A tick starts in the beat that contains the next tick boundary of time of day; the tick number increments. -/
  | tickStart
  /-- STRIKE (R62): At the strike beat every block performs its strike actions together. -/
  | strike
  /-- TIM_CTRL_SET (R39): TIM_SET0–4 are copied into time of day while ticks are stopped; otherwise the write is rejected with SET_REJ. -/
  | timCtrlSet (m : Master)
  /-- INTEG_CLR (R58): The servo integrator clears, and ADJ becomes 0 at the next point of R37. -/
  | integClr (m : Master)
  /-- SRV_EN (R45): A write of SRV_EN enables or disables the servo, restarts the holdover count or ends holdover. -/
  | srvEn (m : Master) (en : Bool)
  /-- SRV_SRC (R41): A write of SRV_SRC selects the servo source and restarts the holdover count. -/
  | srvSrc (m : Master) (src : BitVec 3)
  /-- TIM_SRV_E_SUBMIT (R41): A write of TIM_SRV_E2 submits a PTP offset sample to the servo. -/
  | timSrvESubmit (m : Master) (v : Word)
  /-- HOLDOVER_ENTRY (R45): With no accepted sample for the timeout, the servo enters holdover and freezes the integrator. -/
  | holdoverEntry
  /-- SDS_GATE (R51): At the end of each 524,288-beat gate the SerDes reference period is updated and checked. -/
  | sdsGate (per : BitVec 32)
  /-- CAN_CLK_SPAN (R52): At the end of each 2^-10 s span the CAN kernel cycle count is checked. -/
  | canClkSpan (cycles : Nat)
  /-- TSI_EDGE (R56): An enabled edge on a timestamp input is stamped and pushed into its FIFO. -/
  | tsiEdge (i : Fin 16) (rising : Bool) (sub : Fin 8)
  /-- TSI_S0_READ (R56): A read of TIM_TSIi_S0 returns the head stamp, latches its words and pops it. -/
  | tsiS0Read (m : Master) (i : Fin 16)
  /-- TSI_EN_CLEAR (R58): Writing EN = 0 for a timestamp input flushes its FIFO. -/
  | tsiEnClear (m : Master) (i : Fin 16)
  /-- TSO_PPS_EDGE (R57): A PPS-mode output rises at each whole second of time of day. -/
  | tsoPpsEdge (j : Fin 4)
  /-- TSO_PULSE_END (R57): A PPS pulse or strobe ends after its width and the pin drives low. -/
  | tsoPulseEnd (j : Fin 4)
  /-- TSO_TOGGLE (R57): An edge-mode output toggles at the queued time, or discards a past time with MISS. -/
  | tsoToggle (j : Fin 4)
  /-- TSO_PUSH (R57): A write of TIM_TSOj_T4 pushes a time into the edge queue. -/
  | tsoPush (m : Master) (j : Fin 4) (v : Word)
  /-- TSO_MODE_CHANGE (R57): A write of MODE sets the output drive, and leaving edge mode flushes the queue. -/
  | tsoModeChange (m : Master) (j : Fin 4) (mode : BitVec 3)
  /-- TIM_CNV (R54): A write of TIM_CNV_F_HI converts a fraction to nanoseconds and residual. -/
  | timCnv (m : Master) (v : Word)
  /-- JOIN_IN_COMPLETE (R64): Join-in completes its last move and work starts in the next beat. -/
  | joinInComplete
  /-- JIN_EXPIRY (R64): Join-in still running when JIN expires sets the join-in overrun flag and count. -/
  | jinExpiry
  /-- JOIN_OUT_START (R66): Join-out starts at the later of join-in completion and the end of work or its latest start. -/
  | joinOutStart
  /-- JOIN_MOVE (R107): One descriptor move extracts, converts, limits and inserts a signal and writes its quality. -/
  | joinMove
  /-- JOUT_EXPIRY (R66): Join-out not complete within JOUT sets the join-out overrun flag and count. -/
  | joutExpiry
  /-- SEALING_DEADLINE (R24): At T+P−Q sealing closes for the tick. -/
  | sealingDeadline
  /-- BUDGET_EXPIRY (R74): A task whose budget expires before TEND is in overrun and its later seals are void. -/
  | budgetExpiry (h : HearthId)
  /-- TCK_SEAL (R71): A write of TCK_SEAL seals an image or is rejected with SEAL_REJ. -/
  | tckSeal (m : Master) (v : Word)
  /-- TCK_MODE_REQ (R81): A write of TCK_MODE_REQ requests a local or voted mode switch. -/
  | tckModeReq (m : Master) (v : Word)
  /-- TCK_CTRL_RUN (R88): A write of RUN = 1 checks MODE_INIT and starts ticks, or cancels a pending stop. -/
  | tckCtrlRun (m : Master) (mode : BitVec 3)
  /-- TCK_CTRL_STOP (R90): A write of RUN = 0 stops ticks at the next tick start. -/
  | tckCtrlStop (m : Master)
  /-- JNR_POST (R99): A write of JNR_POST marks a bank-held intake image fresh or lost, or rejects the post. -/
  | jnrPost (m : Master) (v : Word)
  /-- JNR_POST_LEN (R99): A write of JNR_POST_LEN sets the valid length for the writer's posts. -/
  | jnrPostLen (m : Master) (v : Word)
  /-- JNR_DSC_READ (R119): The READ command loads a committed descriptor into the staging words. -/
  | jnrDscRead (m : Master)
  /-- JNR_DSC_WRITE (R119): The WRITE command checks and holds a descriptor for commit at the next T+0. -/
  | jnrDscWrite (m : Master)
  /-- JNR_IMG_READ (R119): The READ command loads an image-table entry into the staging words. -/
  | jnrImgRead (m : Master)
  /-- JNR_IMG_WRITE (R119): The WRITE command checks and holds an image-table entry for commit. -/
  | jnrImgWrite (m : Master)
  /-- JNR_PRM_READ (R119): The READ command loads a parameter block into the staging words. -/
  | jnrPrmRead (m : Master)
  /-- JNR_PRM_WRITE (R119): The WRITE command checks and holds a parameter block for commit. -/
  | jnrPrmWrite (m : Master)
  /-- FORWARDING_DECISION (R130): At the header point plus 16 beats the fabric decides the frame's egress set and queue. -/
  | forwardingDecision (p : PortId)
  /-- FRAME_VERDICT (R140): The frame's tail verdict is known two beats after its last FCS byte. -/
  | frameVerdict (p : PortId) (tail : TailInfo)
  /-- CAPTURE_RECORD (R152): The capture writer writes one record per sampled frame into the session ring. -/
  | captureRecord (n : Fin 4)
  /-- EGRESS_FRAME_START (R143): At a frame boundary an egress port sends the head frame of its highest eligible queue. -/
  | egressFrameStart (p : PortId)
  /-- EGRESS_FRAME_END (R126): A frame's last byte is read by its last egress port and its cells return to the pool. -/
  | egressFrameEnd (p : PortId)
  /-- TX_UNDERRUN (R170): A cut-through egress that needs a byte not yet buffered sends the stomp code and ends the frame. -/
  | txUnderrun (p : PortId)
  /-- GATE_LIST_ENTRY (R144): A gate control list advances to its next entry. -/
  | gateListEntry (p : PortId)
  /-- PAUSE_EXPIRY (R148): A port's pause count runs out and egress resumes. -/
  | pauseExpiry (p : PortId)
  /-- AGEING_SWEEP (R133): Every SWF_AGE seconds the MAC table removes unused dynamic entries and clears HIT. -/
  | ageingSweep
  /-- SWF_MT_READ (R156): The READ command loads MAC table entry IDX. -/
  | swfMtRead (m : Master)
  /-- SWF_MT_WRITE (R156): The WRITE command stages a MAC table entry at IDX. -/
  | swfMtWrite (m : Master)
  /-- SWF_MT_INSERT (R156): The INSERT command places an entry by hash in the first empty way. -/
  | swfMtInsert (m : Master)
  /-- SWF_MT_DELETE (R156): The DELETE command removes the entry matching the staging words. -/
  | swfMtDelete (m : Master)
  /-- SWF_MT_SEARCH (R156): The SEARCH command looks up an entry and sets IDX or the absent bit. -/
  | swfMtSearch (m : Master)
  /-- SWF_VL_READ (R156): The READ command loads a VLAN entry. -/
  | swfVlRead (m : Master)
  /-- SWF_VL_WRITE (R156): The WRITE command stages a VLAN entry. -/
  | swfVlWrite (m : Master)
  /-- SWF_RL_READ (R156): The READ command loads a flow rule. -/
  | swfRlRead (m : Master)
  /-- SWF_RL_WRITE (R156): The WRITE command stages a flow rule. -/
  | swfRlWrite (m : Master)
  /-- SWF_GCL_READ (R156): The READ command loads a gate control list entry. -/
  | swfGclRead (m : Master)
  /-- SWF_GCL_WRITE (R156): The WRITE command stages a gate control list entry, subject to R147. -/
  | swfGclWrite (m : Master)
  /-- SWF_STAGE_COMMIT (R156): A staged fabric table write commits atomically within 32 beats. -/
  | swfStageCommit
  /-- SWF_RES_WRITE (R127): A write of a port reserve is applied or refused with ENTRY_REJ. -/
  | swfResWrite (m : Master) (p : PortId) (v : Word)
  /-- SWF_MIR_SIZE_WRITE (R156): A write of a session SIZE sets the ring size and clears WR and RD. -/
  | swfMirSizeWrite (m : Master) (n : Fin 4) (v : Word)
  /-- SWF_MIR_RD_WRITE (R152): The reader advances RD of a capture ring. -/
  | swfMirRdWrite (m : Master) (n : Fin 4) (v : Word)
  /-- LINK_UP (R158): A MAC's PCS synchronises and any autonegotiation completes. -/
  | linkUp (p : PortId) (half : Bool) (rate : BitVec 4)
  /-- LINK_DOWN (R159): A MAC's link drops, cutting frames in progress. -/
  | linkDown (p : PortId)
  /-- P10_RX_RECORD (R164): The switch DMA fills a receive record of each accepting endpoint group. -/
  | p10RxRecord
  /-- MAC_RXRD_WRITE (R164): OWNER advances RXRD to free receive slots. -/
  | macRxrdWrite (m : Master) (g : Fin 16) (v : Word)
  /-- MAC_TXWR_WRITE (R166): OWNER advances TXWR to offer transmit descriptors. -/
  | macTxwrWrite (m : Master) (g : Fin 16) (v : Word)
  /-- TX_DESCRIPTOR (R166): The DMA takes a transmit descriptor and writes its frames into cells. -/
  | txDescriptor (g : Fin 16)
  /-- MAC_TS_READ (R172): A read of MAC_Gg_TS0 returns and pops the head egress stamp. -/
  | macTsRead (m : Master) (g : Fin 16)
  /-- MAC_SDS_WRITE (R160): A SerDes tuning write takes effect at the next inter-frame gap. -/
  | macSdsWrite (m : Master) (p : PortId) (v : Word)
  /-- CTLE_STEP (R160): RX_CTLE moves one code toward its new value every 1,024 beats. -/
  | ctleStep (p : PortId)
  /-- MAC_GROUP_CFG_WRITE (R174): A write of a group's CFG or TXCFG configures it and clears its ring indices. -/
  | macGroupCfgWrite (m : Master) (g : Fin 16) (tx : Bool) (v : Word)
  /-- SLOT_LAUNCH (R182): The ring master launches the frame of an enabled slot at its launch offset. -/
  | slotLaunch (c : ChanId) (slot : Fin 4)
  /-- FRAME_RETURN (R183): The master receives a returned copy and merges the payload for carry-over. -/
  | frameReturn (c : ChanId) (f : RingWire)
  /-- DATA_FRAME (R187): A node processes a passing data frame, reading and writing its windows. -/
  | dataFrame (c : ChanId) (lane : Lane) (f : RingWire)
  /-- CLAIM (R200): A node forwards or drops a claim frame by key and abandons or holds its own claim. -/
  | claim (c : ChanId) (lane : Lane) (f : RingWire)
  /-- SURVEY_LAUNCH (R193): The master launches a survey or survey result frame on both lanes at SVY_OFS. -/
  | surveyLaunch (c : ChanId)
  /-- SURVEY_PASSAGE (R193): A node stamps a survey copy and writes its survey slot. -/
  | surveyPassage (c : ChanId) (lane : Lane) (f : RingWire)
  /-- SURVEY_RESULT (R194): A node takes its delays from the survey result or sets ID_CLASH. -/
  | surveyResult (c : ChanId) (lane : Lane) (f : RingWire)
  /-- LANE_DOWN (R177): A lane goes DOWN on code errors, missing idles, an overlong frame or lost bit lock. -/
  | laneDown (c : ChanId) (lane : Lane)
  /-- LANE_UP (R177): A lane goes UP after 16 consecutive good idles. -/
  | laneUp (c : ChanId) (lane : Lane)
  /-- FOLD_NOTICE (R203): A master receiving /F/ enters or stays in the folded state. -/
  | foldNotice (c : ChanId) (lane : Lane) (node : Byte) (st : Byte)
  /-- FOLD_NOTICE_SEND (R202): A folding node sends /F/ every 32,768 beats without frames. -/
  | foldNoticeSend (c : ChanId)
  /-- LISTEN_TIMEOUT (R199): A master-capable node in LISTEN with no frame for 2^-6 s enters CLAIM. -/
  | listenTimeout (c : ChanId)
  /-- CLAIM_RETRY (R199): A claimant relaunches its claim after 2^-12 s without return. -/
  | claimRetry (c : ChanId)
  /-- HEADER_TIMEOUT (R198): A node with no good header for 2^-6 s returns to LISTEN and its read images are lost. -/
  | headerTimeout (c : ChanId)
  /-- KEY_TIMEOUT (R200): A node clears its held key after 2^-6 s without a claim. -/
  | keyTimeout (c : ChanId)
  /-- AUTOJOIN (R198): A SURVEYED node with AUTOJOIN sets its time, enables the servo and starts ticks once LOCKED. -/
  | autojoin (c : ChanId)
  /-- RING_APERTURE_WRITE (R190): A write to the image store aperture writes a write image or is a damper violation. -/
  | ringApertureWrite (m : Master) (sel : ByteSel) (c : ChanId) (off : BitVec 14) (v : Word)
  /-- RNG_EN (R210): A write of EN powers the lanes into LISTEN or enters OFF. -/
  | rngEn (m : Master) (c : ChanId) (en : Bool)
  /-- RNG_SURVEY (R193): The SURVEY command makes a master survey in the next tick. -/
  | rngSurvey (m : Master) (c : ChanId)
  /-- RNG_ABANDON (R201): The ABANDON command makes a master leave for LISTEN at the next tick start. -/
  | rngAbandon (m : Master) (c : ChanId)
  /-- CAN_FRAME_VALID (R220): A received CAN frame is filtered and stored at its validation point. -/
  | canFrameValid (c : CanId) (f : CanFrame)
  /-- CAN_COMMIT (R229): At its commit beat a pending buffer is committed to send. -/
  | canCommit (c : CanId) (b : Fin 32)
  /-- CAN_TX_END (R230): A transmission ends by success, lost arbitration or error, updating the clash count. -/
  | canTxEnd (c : CanId) (r : TxResult)
  /-- CAN_BUS_ERROR (R215): A detected bus error updates the error counters and states. -/
  | canBusError (c : CanId) (dtec drec : Nat)
  /-- BUS_OFF_RECOVERY (R215): After 128 occurrences of 11 recessive bits a bus-off channel enters INTEGRATING. -/
  | busOffRecovery (c : CanId)
  /-- INTEGRATION_DONE (R215): 11 consecutive recessive bits take a channel to ERROR_ACTIVE. -/
  | integrationDone (c : CanId)
  /-- CAN_ENABLE (R217): A write of EN = 1 enters INIT. -/
  | canEnable (m : Master) (c : CanId) (init : Bool)
  /-- CAN_DISABLE (R239): A write of EN = 0 enters OFF at once, cutting any frame. -/
  | canDisable (m : Master) (c : CanId)
  /-- CAN_INIT_SET (R215): A write of INIT = 1 holds the channel in INIT. -/
  | canInitSet (m : Master) (c : CanId)
  /-- CAN_INIT_RELEASE (R217): A write of INIT = 0 checks the setting and leaves for INTEGRATING or sets CFG_REJ. -/
  | canInitRelease (m : Master) (c : CanId)
  /-- CAN_TXREQ (R227): A write of 1 to TXREQ makes a request buffer pending. -/
  | canTxreq (m : Master) (c : CanId) (v : BitVec 32)
  /-- CAN_TXCAN (R229): A write of 1 to TXCAN cancels a pending buffer or is too late. -/
  | canTxcan (m : Master) (c : CanId) (v : BitVec 32)
  /-- CAN_FIFO_POP (R223): A write to FIFOf_POP removes the head entry. -/
  | canFifoPop (m : Master) (c : CanId) (f : Fin 2)
  /-- CAN_HP_CLEAR (R224): A write of 1 to NEW[h] clears NEW and VALID of a high-priority buffer. -/
  | canHpClear (m : Master) (c : CanId) (v : Word)
  /-- CAN_WINDOW_OPEN (R235): At an exclusive window's opening its buffer becomes pending. -/
  | canWindowOpen (c : CanId) (w : Fin 32)
  /-- CAN_WINDOW_CLOSE (R227): At a window's close an unsent matrix buffer leaves pending. -/
  | canWindowClose (c : CanId) (w : Fin 32)
  /-- REF_MESSAGE (R233): A potential master makes its reference message pending at REF_OFS. -/
  | refMessage (c : CanId)
  /-- REF_TIMEOUT (R233): No good reference by REF_OFS + REFTMO sets REF_MISS and silences exclusive windows. -/
  | refTimeout (c : CanId)
  /-- CAN_MX_READ (R239): The READ command loads a matrix window entry. -/
  | canMxRead (m : Master) (c : CanId)
  /-- CAN_MX_WRITE (R239): The WRITE command stores a matrix window entry, subject to R87. -/
  | canMxWrite (m : Master) (c : CanId)
  /-- CAN_APERTURE_WRITE (R221): A write to the message RAM aperture writes a transmit buffer or clamps the writer. -/
  | canApertureWrite (m : Master) (sel : ByteSel) (c : CanId) (off : BitVec 13) (v : Word)
  /-- JIG_GOTO (R246): GOTO jumps when its test holds. -/
  | jigGoto (j : JigId) (gp : BitVec 64)
  /-- JIG_LOOP (R246): LOOP decrements CT and jumps while CT is nonzero. -/
  | jigLoop (j : JigId)
  /-- JIG_HOLD (R245): HOLD stalls until a line is at a level or shows an edge. -/
  | jigHold (j : JigId) (gp : BitVec 64)
  /-- JIG_HOLD_RELEASE (R245): A stalled HOLD ends when its line condition is seen. -/
  | jigHoldRelease (j : JigId) (gp : BitVec 64)
  /-- JIG_DRIVE (R245): DRIVE sets, toggles or releases a line's drive. -/
  | jigDrive (j : JigId)
  /-- JIG_SEND (R248): SEND shifts N bits of SR onto a line. -/
  | jigSend (j : JigId)
  /-- JIG_TAKE (R248): TAKE shifts N samples of a line into SR. -/
  | jigTake (j : JigId) (samples : BitVec 16)
  /-- PACE_STEP (R251): A pace step moves a paced bit or releases a waiting PACE. -/
  | paceStep (j : JigId) (gp : BitVec 64)
  /-- JIG_LOAD (R249): LOAD copies the TX word into SR or stalls until it is full. -/
  | jigLoad (j : JigId)
  /-- JIG_STORE (R249): STORE copies SR into the RX word, stalls or drops. -/
  | jigStore (j : JigId)
  /-- JIG_WORD_STALL_END (R249): A stalled LOAD or STORE completes when its word becomes available. -/
  | jigWordStallEnd (j : JigId)
  /-- JIG_DELAY (R245): DELAY occupies N or CT beats. -/
  | jigDelay (j : JigId)
  /-- JIG_DELAY_END (R245): A DELAY's count runs out and the next instruction executes. -/
  | jigDelayEnd (j : JigId)
  /-- JIG_AT (R250): AT sets a target beat or is late. -/
  | jigAt (j : JigId)
  /-- JIG_AT_TARGET (R250): The AT target beat arrives and the next instruction executes. -/
  | jigAtTarget (j : JigId)
  /-- JIG_PACE (R251): PACE sets the pace origin or waits for the next step. -/
  | jigPace (j : JigId)
  /-- JIG_LDI (R245): LDI loads an immediate into CT or SR. -/
  | jigLdi (j : JigId)
  /-- JIG_XFR (R245): XFR transfers a source to CT, SR or PC. -/
  | jigXfr (j : JigId) (gp : BitVec 64)
  /-- JIG_EVT (R245): EVT sets the jig's EVT event. -/
  | jigEvt (j : JigId)
  /-- JIG_NOP (R245): NOP does nothing for one beat. -/
  | jigNop (j : JigId)
  /-- JIG_HALT (R245): HALT stops the jig with EN still 1. -/
  | jigHalt (j : JigId)
  /-- JIG_ILLEGAL (R247): An illegal jig instruction acts as HALT and sets ILL. -/
  | jigIllegal (j : JigId)
  /-- JIG_TX_WRITE (R249): A blocking write of JIG_j_TX fills TX or stalls a hearth. -/
  | jigTxWrite (m : Master) (j : JigId) (v : Word)
  /-- JIG_TXNB_WRITE (R249): A non-blocking write fills TX or is discarded with TX_OVR. -/
  | jigTxnbWrite (m : Master) (j : JigId) (v : Word)
  /-- JIG_RX_READ (R249): A blocking read of JIG_j_RX empties RX or stalls a hearth. -/
  | jigRxRead (m : Master) (j : JigId)
  /-- JIG_RXNB_READ (R249): A non-blocking read empties RX or returns 0 with RX_UNDER. -/
  | jigRxnbRead (m : Master) (j : JigId)
  /-- HEARTH_JIG_STALL_END (R249): A hearth stalled on a jig word completes its access when the word is ready. -/
  | hearthJigStallEnd (h : HearthId)
  /-- JIG_INJECT (R255): A write of JIG_j_INJECT runs an instruction at the next boundary. -/
  | jigInject (m : Master) (j : JigId) (v : Word)
  /-- JIG_FORCE (R256): A write of JIG_j_FORCE ends a stalled instruction and runs the forced one. -/
  | jigForce (m : Master) (j : JigId) (v : Word)
  /-- JIG_ENABLE (R258): EN 0 to 1 checks the claim and runs the jig from PC. -/
  | jigEnable (m : Master) (j : JigId)
  /-- JIG_DISABLE (R258): EN 1 to 0 stops the jig and sets its pins to IDLE. -/
  | jigDisable (m : Master) (j : JigId)
  /-- JIG_RST (R258): RST resets PC, registers, flags, line drives and the pace generator of a stopped jig. -/
  | jigRst (m : Master) (j : JigId)
  /-- JIG_AT3_WRITE (R250): A write of AT3 loads the whole AT register. -/
  | jigAt3Write (m : Master) (j : JigId) (v : Word)
  /-- JIG_IMEM_WRITE (R257): A program-memory write takes effect from the next fetch. -/
  | jigImemWrite (m : Master) (j : JigId) (i : Fin 64) (v : Word)
  /-- JIG_GATE (R252): A jig window's gate opens or closes its gated pins. -/
  | jigGate (j : JigId)
  /-- HEARTH_RUN (R289): A write of RUN = 1 takes a STOPPED hearth to IDLE or RUNNING. -/
  | hearthRun (m : Master) (h : HearthId)
  /-- HEARTH_STOP (R297): A write of RUN = 0 stops the hearth and abandons a stalled instruction. -/
  | hearthStop (m : Master) (h : HearthId)
  /-- WATCHDOG_EXPIRY (R311): The hearth watchdog reaches 0, taking WDOG or halting. -/
  | watchdogExpiry (h : HearthId)
  /-- HRT_WDG_KICK (R311): A hearth's own write of WDG_KICK reloads its watchdog. -/
  | hrtWdgKick (m : Master) (h : HearthId) (v : Word)
  /-- INTERRUPT (R310): A pending unmasked line is taken as INT at an instruction boundary. -/
  | interrupt (h : HearthId)
  /-- HRT_REG_DATA (R314): An access of REG_DATA reads or writes the indexed hearth register while stopped. -/
  | hrtRegData (m : Master) (h : HearthId) (wr : Option Word)
  /-- HRT_BENCH_DATA (R314): An access of BENCH_DATA reads or writes a bench word and increments the index. -/
  | hrtBenchData (m : Master) (h : HearthId) (wr : Option Word)
  /-- UC_READ (R345): The READ command loads a micro-operation into the staging words. -/
  | ucRead (m : Master) (h : HearthId)
  /-- UC_WRITE (R345): The WRITE command checks and stores a micro-operation. -/
  | ucWrite (m : Master) (h : HearthId)
  /-- CI_ENTRY_WRITE (R345): A write of a customer entry defines opcode 0xE0 + k, refused while running. -/
  | ciEntryWrite (m : Master) (h : HearthId) (k : Fin 16) (v : Word)
  /-- MOV (R321): MOV copies a register or immediate. -/
  | mov (h : HearthId)
  /-- LD (R322): LD loads a word from memory into a register. -/
  | ld (h : HearthId)
  /-- ST (R322): ST stores a register to memory, or exchanges under ATOM. -/
  | st (h : HearthId)
  /-- ADD (R322): ADD adds source to destination. -/
  | add (h : HearthId)
  /-- ADC (R322): ADC adds with carry. -/
  | adc (h : HearthId)
  /-- SUB (R322): SUB subtracts with borrow out. -/
  | sub (h : HearthId)
  /-- SBB (R322): SBB subtracts with borrow in. -/
  | sbb (h : HearthId)
  /-- CMP (R322): CMP sets flags of a subtraction. -/
  | cmp (h : HearthId)
  /-- AND (R322): AND combines bitwise. -/
  | and (h : HearthId)
  /-- OR (R322): OR combines bitwise. -/
  | or (h : HearthId)
  /-- XOR (R322): XOR combines bitwise. -/
  | xor (h : HearthId)
  /-- TEST (R322): TEST sets flags of an AND. -/
  | test (h : HearthId)
  /-- LDB (R322): LDB loads a byte zero-extended. -/
  | ldb (h : HearthId)
  /-- LDBS (R322): LDBS loads a byte sign-extended. -/
  | ldbs (h : HearthId)
  /-- STB (R322): STB stores a register's low byte. -/
  | stb (h : HearthId)
  /-- LEA (R322): LEA loads an operand's offset without access. -/
  | lea (h : HearthId)
  /-- NEG (R325): NEG negates a register. -/
  | neg (h : HearthId)
  /-- NOT (R322): NOT inverts a register. -/
  | not (h : HearthId)
  /-- INC (R322): INC adds one. -/
  | inc (h : HearthId)
  /-- DEC (R322): DEC subtracts one. -/
  | dec (h : HearthId)
  /-- SXB (R322): SXB sign-extends the low byte. -/
  | sxb (h : HearthId)
  /-- ZXB (R322): ZXB zero-extends the low byte. -/
  | zxb (h : HearthId)
  /-- SWAB (R322): SWAB swaps a register's bytes. -/
  | swab (h : HearthId)
  /-- MUL (R325): MUL writes the low word of a product. -/
  | mul (h : HearthId)
  /-- MULHU (R322): MULHU writes the high word of an unsigned product. -/
  | mulhu (h : HearthId)
  /-- MULHS (R322): MULHS writes the high word of a signed product. -/
  | mulhs (h : HearthId)
  /-- DIVU (R326): DIVU divides unsigned, writing quotient and remainder. -/
  | divu (h : HearthId)
  /-- DIVS (R326): DIVS divides signed, writing quotient and remainder. -/
  | divs (h : HearthId)
  /-- SCPY (R334): SCPY copies a word per iteration. -/
  | scpy (h : HearthId)
  /-- SFIL (R334): SFIL fills a word per iteration. -/
  | sfil (h : HearthId)
  /-- SCMP (R334): SCMP compares a word pair per iteration. -/
  | scmp (h : HearthId)
  /-- SSRC (R334): SSRC compares a value with a word per iteration. -/
  | ssrc (h : HearthId)
  /-- SHL (R327): SHL shifts left. -/
  | shl (h : HearthId)
  /-- SHR (R327): SHR shifts right logically. -/
  | shr (h : HearthId)
  /-- SAR (R327): SAR shifts right arithmetically. -/
  | sar (h : HearthId)
  /-- ROL (R327): ROL rotates left. -/
  | rol (h : HearthId)
  /-- ROR (R327): ROR rotates right. -/
  | ror (h : HearthId)
  /-- MFS (R306): MFS reads a special register. -/
  | mfs (h : HearthId)
  /-- MTS (R306): MTS writes a special register. -/
  | mts (h : HearthId)
  /-- JMPR (R333): JMPR jumps to a register offset. -/
  | jmpr (h : HearthId)
  /-- CALLR (R302): CALLR calls a register offset and slides the window. -/
  | callr (h : HearthId)
  /-- JMPFR (R333): JMPFR jumps to a register page and offset. -/
  | jmpfr (h : HearthId)
  /-- CALLFR (R333): CALLFR calls a register page and offset. -/
  | callfr (h : HearthId)
  /-- LONG_JUMP (R323): The long jump branches by rel16 on a condition, or calls with LINK. -/
  | longJump (h : HearthId)
  /-- JMPF (R333): JMPF jumps to an immediate page and offset. -/
  | jmpf (h : HearthId)
  /-- CALLF (R333): CALLF calls an immediate page and offset. -/
  | callf (h : HearthId)
  /-- JCC (R323): Jcc branches by rel8 when its condition holds. -/
  | jcc (h : HearthId)
  /-- CUSTOMER_INSTRUCTION (R341): A customer opcode runs its micro-operation sequence and commits at END. -/
  | customerInstruction (h : HearthId)
  /-- NOP (R321): NOP does nothing. -/
  | nop (h : HearthId)
  /-- RET (R303): RET returns and slides the window back. -/
  | ret (h : HearthId)
  /-- RETF (R303): RETF returns to a page and offset. -/
  | retf (h : HearthId)
  /-- RETT (R309): RETT restores PC, PCODE and FL from the trap registers. -/
  | rett (h : HearthId)
  /-- TEND (R69): TEND ends the task and seals its images when within budget. -/
  | tend (h : HearthId)
  /-- FLAT (R305): FLAT enters flat mode. -/
  | flat (h : HearthId)
  /-- WIND (R305): WIND enters window mode. -/
  | wind (h : HearthId)
  /-- EI (R307): EI sets FL.IE. -/
  | ei (h : HearthId)
  /-- DI (R307): DI clears FL.IE. -/
  | di (h : HearthId)
  /-- TRAP (R308): TRAP takes the SWI vector with its operand. -/
  | trap (h : HearthId)
  /-- POST (R335): POST offers a notice to a flue and sets C if it is full. -/
  | post (h : HearthId)
  /-- POSTW (R335): POSTW posts a notice, stalling while the flue is full. -/
  | postw (h : HearthId)
  /-- POSTW_COMPLETE (R423): A stalled POSTW posts once the flue is empty. -/
  | postwComplete (h : HearthId)
  /-- WAITDB (R430): WAITDB waits for a ready flue of the effective wait set. -/
  | waitdb (h : HearthId)
  /-- WAITDB_WAKE (R430): A stalled WAITDB ends when a flue of its set becomes ready. -/
  | waitdbWake (h : HearthId)
  /-- ILLEGAL_OPCODE (R320): An unlisted or illegal encoding takes ILLEGAL or ILLPFX. -/
  | illegalOpcode (h : HearthId)
  /-- MOTION_UPDATE (R348): Each update runs profiles, current loops and diagnostics of every axis. -/
  | motionUpdate
  /-- CONVERTER_SLOT (R349): A converter slot ends with a current sample. -/
  | converterSlot (c : Fin 4) (sample : BitVec 12)
  /-- ENCODER_EDGE (R362): A filtered encoder edge changes the count or sets ENC_ERR or IDX. -/
  | encoderEdge (x : AxisId) (a b idx : Bool)
  /-- EXTERNAL_STEP (R357): A filtered STEP edge moves a mode-2 axis one coarse step. -/
  | externalStep (x : AxisId) (dir : Bool)
  /-- COARSE_STEP (R356): A profile emits a coarse step at its computed beat. -/
  | coarseStep (x : AxisId)
  /-- MICROSTEP (R358): The interpolator moves one microstep toward its target. -/
  | microstep (x : AxisId)
  /-- INPUT_RECOGNISED (R375): A field input level is recognised after its filter time. -/
  | inputRecognised (i : Fin 32) (level : Bool)
  /-- FIO_TS_READ (R378): A read of FIO_TS0 returns and pops the head edge entry. -/
  | fioTsRead (m : Master)
  /-- FIELD_LATCH (R381): At the latch beat the proxy latches counts, periods and diagnostics. -/
  | fieldLatch (rb : Word)
  /-- FIELD_LINK_LOSS (R372): No good link frame for 65,536 beats switches every output off. -/
  | fieldLinkLoss
  /-- VF_SAMPLE (R389): Each VF sample updates sag, high, supply-good and re-arm conditions. -/
  | vfSample (mv : Nat)
  /-- CUT_OFF (R391): The comparator detects VF below 14.4 V and sets CUT. -/
  | cutOff
  /-- CUTOFF_RANK (R391): Outputs of a rank switch off at their slot. -/
  | cutoffRank (rank : Fin 16)
  /-- OVERLOAD (R386): An output in current limit for its timeout switches off and latches OVL. -/
  | overload (j : Fin 16)
  /-- CHANNEL_OVERTEMP (R386): A channel above 165 °C switches off and latches OTC. -/
  | channelOvertemp (j : Fin 16)
  /-- DIE_OVERTEMP (R386): The field die above 150 °C switches every output off. -/
  | dieOvertemp
  /-- DIE_OT_CLEAR (R387): The die below 135 °C clears DIE_OT and releases outputs as at re-arm. -/
  | dieOtClear
  /-- OPEN_LOAD_ON (R386): An on output below its undercurrent threshold reports OPEN_ON. -/
  | openLoadOn (j : Fin 16)
  /-- OPEN_LOAD_OFF (R386): An off output lifted by the test current reports OPEN_OFF. -/
  | openLoadOff (j : Fin 16)
  /-- STUCK_HIGH (R386): An off output that reads back high reports STUCK_HI. -/
  | stuckHigh (j : Fin 16)
  /-- INPUT_OPEN_WIRE (R379): An input below 0.35 mA for 2^-7 s sets IN_OPEN. -/
  | inputOpenWire (i : Fin 32)
  /-- FIO_OUT_RETRY (R387): A RETRY write clears an output's overload latches if the cause has gone. -/
  | fioOutRetry (m : Master) (v gone : Word)
  /-- FIO_OUT_REARM (R392): A REARM write releases an AUTO = 0 output, or is refused while CUT. -/
  | fioOutRearm (m : Master) (v : Word)
  /-- FIO_CTRL_EN (R373): A write of EN enables the field outputs and image posting. -/
  | fioCtrlEn (m : Master) (en : Bool)
  /-- BNK_OWNER_WRITE (R402): A write of BNK_b_OWNER starts a handover held for the old owner's writes. -/
  | bnkOwnerWrite (m : Master) (b : Fin 64) (v : Word)
  /-- HANDOVER_EFFECT (R402): The handover takes effect when the hold ends and the write's response returns. -/
  | handoverEffect (b : Fin 64)
  /-- EMBER_REQUEST (R407): A write of EMBER = 1 asks the bank to enter ember. -/
  | emberRequest (m : Master) (b : Fin 64)
  /-- EMBER_ENTRY (R407): The bank enters ember at the first beat with no access pending. -/
  | emberEntry (b : Fin 64)
  /-- EMBER_WAKE (R407): A write of EMBER = 0 starts a wake. -/
  | emberWake (m : Master) (b : Fin 64)
  /-- WAKE_COMPLETE (R407): After 4,096 beats the wake ends and waiting accesses proceed. -/
  | wakeComplete (b : Fin 64)
  /-- ECC_WRITEBACK (R409): A corrected word is written back in the next idle beat of its bank. -/
  | eccWriteback (b : Fin 64)
  /-- HOST_READ_REQUEST (R413): A PCIe host read is carried out as 16-bit accesses. -/
  | hostReadRequest (n : Fin 2) (a : Addr) (sels : List ByteSel)
  /-- HOST_WRITE_REQUEST (R413): A PCIe host posted write is carried out as 16-bit accesses. -/
  | hostWriteRequest (n : Fin 2) (a : Addr) (ws : List (ByteSel × Word))
  /-- SPI_READ (R415): The READ command reads words with markers. -/
  | spiRead (n : Fin 2) (a : BitVec 32) (count : Nat)
  /-- SPI_WRITE (R415): The WRITE command queues words for writing. -/
  | spiWrite (n : Fin 2) (a : BitVec 32) (ws : List Word)
  /-- SPI_STATUS (R414): The STATUS command returns the host status byte and clears ERR. -/
  | spiStatus (n : Fin 2)
  /-- HRESET (R417): The HRESET command performs a host reset. -/
  | hreset (n : Fin 2)
  /-- HOST_RESET (R417): PERST#, hot reset or link loss resets a PCIe host's port state. -/
  | hostReset (n : Fin 2) (cause : HostResetCause)
  /-- PCIE_LINK_UP (R511): A working PCIe port trains its link to DL_Active. -/
  | pcieLinkUp (n : Fin 2)
  /-- HOST_WDG_EXPIRY (R420): A host watchdog expires and sets ABSENT. -/
  | hostWdgExpiry (n : Fin 4)
  /-- HOST_WDG_KICK (R420): The host's write of WDG_KICK reloads its watchdog and clears ABSENT. -/
  | hostWdgKick (m : Master) (n : Fin 4) (v : Word)
  /-- HOST_WDG_TMO_WRITE (R420): A write of WDG_TMO loads and starts the host watchdog. -/
  | hostWdgTmoWrite (m : Master) (n : Fin 4) (v : Word)
  /-- IRQ_ACK (R432): A write of IRQ_ACK re-sends the MSI while lines are pending. -/
  | irqAck (m : Master) (n : Fin 4) (v : Word)
  /-- FLU_P0_WRITE (R423): A sender's write of P0 is held for the flue's next post. -/
  | fluP0Write (m : Master) (f : Fin 64) (v : Word)
  /-- FLU_P1_WRITE (R423): A sender's write of P1 posts a notice or sets POST_FULL. -/
  | fluP1Write (m : Master) (f : Fin 64) (v : Word)
  /-- FLU_N2_READ (R425): The receiver's read of N2 clears FULL. -/
  | fluN2Read (m : Master) (f : Fin 64)
  /-- PORST (R434): PORST# low holds the whole device in reset. -/
  | porst
  /-- RESET_RELEASE (R434): Reset is released when the core PLL locks after PORST# rises. -/
  | resetRelease (straps : BitVec 7)
  /-- SUPPLY_MONITOR_TRIP (R499): VCORE or VDDIO33 below its monitor level acts as PORST#. -/
  | supplyMonitorTrip
  /-- SENSE_DONE (R438): Fuse sensing and bank zeroing end and the first attempt begins. -/
  | senseDone
  /-- FLASH_ATTEMPT (R442): A flash attempt resets the flash and reads the header. -/
  | flashAttempt (hdr1s hdr8d : List Byte)
  /-- SECTION_LOADED (R448): A section read from the image is checked and loaded into its target. -/
  | sectionLoaded (bytes : List Byte)
  /-- LOAD_COMPLETE (R449): After the last byte the controller runs the descriptor and mode checks. -/
  | loadComplete (bytes : List Byte)
  /-- SIGNATURE_CHECK_DONE (R451): The signature, key hash and version checks complete. -/
  | signatureCheckDone
  /-- START_RECORD (R447): A START record is applied as a register write. -/
  | startRecord
  /-- KINDLING_RUN (R438): Kindling enters RUN and yields its far-port precedence. -/
  | kindlingRun
  /-- FEED_CHUNK (R455): A write of KDL_FEED_LEN hands a chunk to the controller. -/
  | feedChunk (m : Master) (v : Word)
  /-- FEED_WINDOW_WRITE (R455): A write to the feed window stores image data or sets FEED_OVR. -/
  | feedWindowWrite (m : Master) (sel : ByteSel) (off : BitVec 15) (v : Word)
  /-- FEED_RESTART (R455): A write of KDL_FEED_RESTART aborts the attempt and waits for a new stream. -/
  | feedRestart (m : Master) (v : Word)
  /-- FEED_CHUNK_CONSUMED (R455): The controller consumes a chunk and sets READY. -/
  | feedChunkConsumed
  /-- FEED_TIMEOUT (R455): No chunk within 2^24 beats fails the feed attempt. -/
  | feedTimeout
  /-- XSPI_COMMAND (R444): A write of XCTL.GO issues one 8D flash command. -/
  | xspiCommand (m : Master) (v : Word)
  /-- XSPI_COMMAND_DONE (R444): The 8D command completes and BUSY clears. -/
  | xspiCommandDone (bytes : List Byte)
  /-- KDL_ADV_KEY (R452): A write of 0x4B44 arms KDL_ADV. -/
  | kdlAdvKey (m : Master) (v : Word)
  /-- KDL_ADV (R452): A write of KDL_ADV starts advancing the fused count or sets ADV_REJ. -/
  | kdlAdv (m : Master) (v : Word)
  /-- VERSION_FUSE_BLOWN (R452): One version fuse is blown every 65,536 beats until the target count. -/
  | versionFuseBlown
  /-- FPROG_BURN (R453): A write of 0x0F5E to FPROG_CMD starts a fuse burn or sets FPROG_REJ. -/
  | fprogBurn (m : Master) (v : Word)
  /-- FPROG_DONE (R453): A fuse burn completes and BUSY clears. -/
  | fprogDone
  /-- SENSOR_UPDATE (R458): Every 2^-10 s seasoning updates canaries, oscillators, temperatures and eyes. -/
  | sensorUpdate (r : SensorReadings)
  /-- SEASON_ADVANCE (R460): Every 2^33 beats the seasoning index advances by the ageing factor. -/
  | seasonAdvance (t8 : Int)
  /-- REPLAN_START (R463): A re-plan begins at its scheduled tick start. -/
  | replanStart (nor : Option Nat)
  /-- REPLAN (R463): A write of REPLAN starts a re-plan. -/
  | replan (m : Master) (nor : Option Nat)
  /-- AVS_STEP_SETTLED (R463): After a voltage step settles and is measured, step 1 continues or steps 2 and 3 run. -/
  | avsStepSettled (ack : Bool) (r : SensorReadings)
  /-- EYE_REMEASURE (R463): After a CTLE move the lane's eye is measured and the code kept or moved back. -/
  | eyeRemeasure (eye : Nat)
  /-- SREC_RESTORE (R462): A write of 0x5E57 to SSN_SREC_CMD restores a seasoning record or is refused. -/
  | srecRestore (m : Master) (v : Word)
  /-- AVS_ENABLE (R465): A write of AVS_CTRL.EN starts the AVSBus with the initial request. -/
  | avsEnable (m : Master) (en : Bool) (ack : Bool)
  /-- UNCLAMP (R472): A write of SSN_UNCLAMP advances or completes the release sequence. -/
  | unclamp (m : Master) (v : Word)
  /-- CLOG_READ (R471): A read of SSN_CLOG0 returns and pops the head clamp log entry. -/
  | clogRead (m : Master)
  /-- FIELD_LINK_RESTORED (R372): The field die receives good link frames again after a link loss and LINK_OK sets. -/
  | fieldLinkRestored
  /-- INGRESS_CELL (R127): Each 64-byte cell of an arriving frame is admitted from the port reserve or the shared pool, or the frame is lost for want of a cell and is stomped where it was cut through. -/
  | ingressCell (p : PortId) (first : Bool) (express : Bool) (sub : Fin 8) (ui : Nat) (bytes : List Byte)
  /-- GIANT_FRAME (R140): A frame reaching byte MAXLEN is cut off there, the cut-through egress ends at MAXLEN bytes with the stomp code, and the remainder is discarded. -/
  | giantFrame (p : PortId)
  deriving DecidableEq, Repr

end Sys2Proof
end

