-- ==== Sys2Proof/Decode.lean ====
section
/-! DEFINITION. The command that a word spells by the bits of spec/opcode_table.json: the table gives no row any bits,
so no word spells a command. The codes of hearth and jig instructions are read in Machine/Operands.lean and
Machine/Jig.lean. -/

namespace Sys2Proof

/-- The command that an `nbits`-wide word spells: none, since no row of the table gives bits. -/
def decodeTableWord (_nbits _w : Nat) : Option Instr := none

end Sys2Proof
end

