-- ==== Sys2Proof/Config.lean ====
section
/-! DEFINITION. What the spec leaves open: free values. None of them has a body, so that nothing can be proved of a
particular value. -/

namespace Sys2Proof.Config

/-- A word of the packet buffer that the buffer window shows: R126 and R155 do not say which cells a frame takes. The
argument is the number of free values taken before. -/
opaque cellWord : Nat → Word

/-- The gates of a port's list before ticks have started (R144 gives gate states only within a tick). -/
opaque idleGates : Nat → BitVec 8

/-- The serial fused at manufacture (R199, R490). -/
opaque serial : BitVec 48

/-- Whether the partner of a port answers the verification of IEEE 802.3br (R146): it is another device. -/
opaque partnerVerifies : Nat → Bool

/-- The fixed latency of a channel's lanes that R50 subtracts from a stamp, in slivers: its D is given nowhere. -/
opaque ringLatency : Nat → Nat

/-- The residence of a channel's node in slivers: about 256, but the channel measures it (R192). -/
opaque residence : Nat → BitVec 32

/-- The loop delay of a CAN transceiver in kernel cycles, which a channel measures in every FD frame it sends (R214). The
argument is the number of free values taken before. -/
opaque loopDelay : Nat → BitVec 7

/-- The angle of a pair of phase currents, which the motion unit takes to within 1 microstep (R361). -/
opaque currentAngle : Int → Int → Nat

/-- The mean current of a phase before 16 converter rounds have completed (R349). -/
opaque earlyCurrent : Nat → Int

/-- The outputs whose overload or over-temperature has gone, where a write of FIO_OUT_RETRY comes as a plain access
(R387). The argument is the number of free values taken before. -/
opaque causeGone : Nat → Word

/-- The drift of a re-plan period without a beat with LOCKED = 1 (R458 forms its mean over such beats). -/
opaque noDrift : Nat → Int

/-- What R463 leaves open where a kerf step or the accrual is divided by a step or a rate of 0. -/
opaque byZero : Nat → Nat

/-- Whether the regulator acknowledges, and the reply of the flash to the NOR command, where a write of AVS_CTRL or of
REPLAN comes as a plain access (R459, R465). -/
opaque avsAck : Nat → Bool
opaque norReply : Nat → Option Nat

/-- Which bits of an interrupted burn are blown (R453): the word or bit that the next sensing reports. -/
opaque burnt : Nat → Bool

/-- A word of the head entry of an empty receive FIFO (R221), by aperture offset. -/
opaque emptyHead : Nat → BitVec 16

/-- What a customer instruction leaves in a register that A and B both name, where its sequence writes different values
to both (R341 lets them take effect together). The argument is the number of free values taken before. -/
opaque bothHeld : Nat → Word

/-- Whether the host has enabled the MSI of H0 or H1 in the PCIe configuration space (R432), by port and beat. -/
opaque msiEnabled : Nat → Nat → Bool

end Sys2Proof.Config
end

