-- ==== Sys2Proof/Machine/Bits.lean ====
section
/-! DEFINITION. Bit fields, byte orders and rounding, as every chapter uses them. -/

namespace Sys2Proof.Machine

open Sys2Proof

/-- Bits [lo+n-1:lo] of a number. -/
def bitsAt (x lo n : Nat) : Nat := x / 2 ^ lo % 2 ^ n

/-- The field of `n` bits at bit `lo` of a word (R10). -/
def fld (w : Word) (lo n : Nat) : Nat := bitsAt w.toNat lo n

/-- Bit `i` of a word. -/
def bit (w : Word) (i : Nat) : Bool := w.getLsbD i

/-- A word with one bit set. -/
def bitMask (i : Nat) : Word := BitVec.ofNat 16 (2 ^ i)

/-- `new` in the bits of `mask`, `old` in the others. -/
def merge (mask old new : Word) : Word := (old &&& ~~~mask) ||| (new &&& mask)

/-- `w` with the field of `n` bits at `lo` replaced by `v`. -/
def setFld (w : Word) (lo n v : Nat) : Word :=
  merge (BitVec.ofNat 16 ((2 ^ n - 1) * 2 ^ lo)) w (BitVec.ofNat 16 (v * 2 ^ lo))

/-- `w` with bit `i` set or cleared. -/
def setBit (w : Word) (i : Nat) (b : Bool) : Word := if b then w ||| bitMask i else w &&& ~~~bitMask i

/-- A bit as a number. -/
def b2n (b : Bool) : Nat := if b then 1 else 0

/-- A bit at place `i` of a word. -/
def flag (b : Bool) (i : Nat) : Word := BitVec.ofNat 16 (b2n b * 2 ^ i)

/-- Word `k` of a number, word 0 the lowest. -/
def wordOf (x k : Nat) : Word := BitVec.ofNat 16 (x / 2 ^ (16 * k))

/-- Word `k` of an integer in two's complement. -/
def wordOfInt (x : Int) (k : Nat) : Word := BitVec.ofInt 16 (x / 2 ^ (16 * k))

/-- The number whose words are given, lowest first. -/
def ofWords : List Word → Nat
  | [] => 0
  | w :: r => w.toNat + 2 ^ 16 * ofWords r

/-- The number whose bytes are given, lowest first (R10). -/
def ofBytes : List Byte → Nat
  | [] => 0
  | b :: r => b.toNat + 256 * ofBytes r

/-- The low `n` bytes of a number, lowest first (R10). -/
def toBytes (x : Nat) : Nat → List Byte
  | 0 => []
  | n + 1 => BitVec.ofNat 8 x :: toBytes (x / 256) n

/-- The number whose bytes are given, highest first (network order). -/
def ofBytesBE (l : List Byte) : Nat := ofBytes l.reverse

/-- The low `n` bytes of a number, highest first. -/
def toBytesBE (x n : Nat) : List Byte := (toBytes x n).reverse

/-- The bytes of words, each low byte first. -/
def wordsBytes : List Word → List Byte
  | [] => []
  | w :: r => toBytes w.toNat 2 ++ wordsBytes r

/-- A number below 2^n read as a two's complement integer of n bits. -/
def asInt (x n : Nat) : Int := if x % 2 ^ n < 2 ^ (n - 1) then (x % 2 ^ n : Nat) else (x % 2 ^ n : Nat) - (2 ^ n : Nat)

/-- An integer as the number whose n bits are its two's complement. -/
def ofInt (x : Int) (n : Nat) : Nat := (x % (2 ^ n : Nat)).toNat

/-- `x` limited to the span from `lo` to `hi`. -/
def clip (lo hi x : Int) : Int := if x < lo then lo else if hi < x then hi else x

/-- Limit to 32 bits signed (R43). -/
def sat32 (x : Int) : Int := clip (-2147483648) 2147483647 x

/-- A counter that saturates at `top`. -/
def satAdd (top x n : Nat) : Nat := min top (x + n)

/-- `a / b` rounded up. -/
def ceilDiv (a b : Nat) : Nat := (a + b - 1) / b

/-- `a / b` rounded to nearest, ties to even, for positive `b`. -/
def roundEven (a : Int) (b : Nat) : Int :=
  let q := a / b
  let r := a % b
  if 2 * r < b then q else if (b : Int) < 2 * r then q + 1 else if q % 2 = 0 then q else q + 1

/-- Each list element with its position. -/
def numbered {α : Type} (l : List α) : List (Nat × α) := (List.range l.length).zip l

/-- `l` cut into pieces of `n`; `fuel` bounds the number of pieces. -/
def pieces {α : Type} (n : Nat) : Nat → List α → List (List α)
  | 0, _ => []
  | _ + 1, [] => []
  | f + 1, l => l.take n :: pieces n f (l.drop n)

/-- Replace `src.length` elements of `dst` from position `k`. -/
def splice {α : Type} (dst : List α) (k : Nat) (src : List α) : List α :=
  dst.take k ++ src.take (dst.length - k) ++ dst.drop (k + src.length)

end Sys2Proof.Machine
end

