-- ==== Sys2Proof/Machine/State.lean ====
section
/-! DEFINITION. The state of the KF6412-A0, block by block, as plain data, and the state right after reset release.
A fixed number of like things is a `Vector`. A large table is `Sparse`: a list of key and value pairs with strictly
rising keys that lists no entry equal to the table's default. Beats, counts and positions are natural numbers or
integers; what software sees as bits is a bit vector. -/

namespace Sys2Proof.Machine

open Sys2Proof

/-- A table with a default value: only the entries that differ from the default are listed, keys strictly rising. -/
abbrev Sparse (α : Type) := List (Nat × α)

/-- Nothing stops the device: every trap, clamp, fence and error response of the spec is a next state. No command
raises a fault, so the type has no constructor. -/
inductive Fault where
  deriving DecidableEq, Repr

/-- Why a command has no meaning in the model. -/
inductive Refusal where
  /-- Raised by an arm of `exec` whose command is not modelled yet (none is left). Safe: the run stops. -/
  | notModelled (mnemonic : String)
  deriving DecidableEq, Repr

/-- The last response that a master got: the word of a read, or an error response (R413, R475). -/
structure Resp where
  value : Word
  error : Bool
  deriving DecidableEq, Repr

def Resp.reset : Resp := { value := 0, error := false }

/-! ## Time unit -/

/-- One stamp of a timestamp input: time of day in slivers and the direction of the edge (R56). -/
structure Stamp where
  tod : BitVec 80
  rising : Bool
  deriving DecidableEq, Repr

/-- A timestamp input (R56): its four-deep FIFO, OVF and the present pin level. -/
structure Tsi where
  fifo : List Stamp
  ovf : Bool
  pin : Bool
  deriving DecidableEq, Repr

def Tsi.reset : Tsi := { fifo := [], ovf := false, pin := false }

/-- What a ball of the device drives. -/
inductive Drive where
  | hiZ | low | high
  deriving DecidableEq, Repr

/-- A timed output (R57): queued times, MISS, FULL, the pin, and the start beat of a pulse in progress. -/
structure Tso where
  queue : List (BitVec 80)
  miss : Bool
  full : Bool
  pin : Drive
  pulse : Option Nat
  deriving DecidableEq, Repr

def Tso.reset : Tso := { queue := [], miss := false, full := false, pin := .hiZ, pulse := none }

/-- The time unit (02_timebase.md). `todx` is time of day with the hidden 45-bit accumulator below it (R35), in units
of 2^-45 sliver. -/
structure TimeUnit where
  beat : Nat
  todx : Nat
  adj : Int
  adjNew : Option Int
  integ : Int
  adjSat : Bool
  locked : Bool
  good : Nat
  bad : Nat
  hold : Bool
  holdFrom : Nat
  holdBeat : Nat
  holdTime : Nat
  sdsOk : Bool
  canOk : Bool
  sdsPer : BitVec 32
  /-- The beats in which the last gate of R50 and the last span of R52 ended. -/
  sdsBeat : Nat
  canSpanTod : BitVec 80
  canSpanBeat : Nat
  cnvNs : BitVec 32
  cnvRes : Int
  tsi : Vector Tsi 16
  tso : Vector Tso 4
  deriving DecidableEq, Repr

def TimeUnit.reset : TimeUnit :=
  { beat := 0, todx := 0, adj := 0, adjNew := none, integ := 0, adjSat := false, locked := false, good := 0, bad := 0,
    hold := false, holdFrom := 0, holdBeat := 0, holdTime := 0, sdsOk := false, canOk := false, sdsPer := 0, sdsBeat := 0,
    canSpanTod := 0, canSpanBeat := 0, cnvNs := 0, cnvRes := 0,
    tsi := Vector.replicate 16 Tsi.reset, tso := Vector.replicate 4 Tso.reset }

/-! ## Tick controller -/

/-- A pending switch request (R81): the target, the tick for which it commits, and whether it waits for a ring vote
(its tick is then not known yet, R205). -/
structure SwitchReq where
  mode : Fin 8
  commit : Option Nat
  deriving DecidableEq, Repr

/-- A ticked task in progress (R73, R74): release beat, budget, whether its budget has expired. -/
structure Task where
  release : Nat
  budget : Nat
  overrun : Bool
  /-- Released in the tick in progress: join-out waits for it (R66). -/
  thisTick : Bool
  /-- Ended without TEND by RUN = 0; its budget still runs (R74, R297). -/
  ended : Bool
  deriving DecidableEq, Repr

/-- What the tick controller knows of one image (R17, R24, R70): sealed in the tick in progress, sealed in the tick
before, latched freshly at the last strike, the buffer that was sealed last. `fill` is the filling buffer of an image
in a local store (R24). -/
structure ImageSt where
  sealed : Bool
  sealedPrev : Bool
  latched : Bool
  sealedSide : Bool
  everSealed : Bool
  fill : Bool
  deriving DecidableEq, Repr

def ImageSt.reset : ImageSt :=
  { sealed := false, sealedPrev := false, latched := false, sealedSide := false, everSealed := false, fill := false }

/-- The tick controller (03_tick_and_strike.md). -/
structure TickCtl where
  running : Bool
  /-- A start under R88 that waits for its first boundary: the beat before which ticks do not start, and the starting mode. -/
  starting : Option (Nat × Fin 8)
  mode : Fin 8
  first : Bool
  req : Option SwitchReq
  tick : Nat
  tBeat : Nat
  pk : Nat
  lPrime : Nat
  struck : Bool
  sealClosed : Bool
  /-- The last strike fell under R24, so that what it did not latch is stale; not so at the first strike (R89). -/
  staleOn : Bool
  /-- The beat in which work started, and the beat in which a released task last ended (R65, R66). -/
  workBeat : Nat
  lastEnd : Nat
  tasks : Vector (Option Task) 12
  images : Sparse ImageSt
  deriving DecidableEq, Repr

def TickCtl.reset : TickCtl :=
  { running := false, starting := none, mode := 0, first := false, req := none, tick := 0, tBeat := 0, pk := 0,
    lPrime := 0, struck := false, sealClosed := false, staleOn := false, workBeat := 0, lastEnd := 0,
    tasks := Vector.replicate 12 none, images := [] }

/-! ## Joiner -/

/-- The hidden state and the quality word of one descriptor (R92, R108, R114), and whether a move has written it since
the last strike (R110). -/
structure SigState where
  quality : Word
  wrote : Bool
  last : Bool
  lastKnown : Bool
  deriving DecidableEq, Repr

def SigState.reset : SigState := { quality := 0, wrote := false, last := false, lastKnown := false }

/-- The status of an intake image in one span (R99, R100). -/
structure Span where
  fresh : Bool
  lost : Bool
  supplyInv : Bool
  len : Nat
  deriving DecidableEq, Repr

def Span.reset : Span := { fresh := false, lost := false, supplyInv := false, len := 0 }

/-- The joiner's view of one image: age (R101), the span that is filling, the snapshot's span, the last good data with
its received length (R19, R112), and for a hearth variable image the buffer latched at the last strike (R96). -/
structure JImage where
  age : Nat
  filling : Span
  snap : Span
  good : Option (List Byte)
  goodLen : Nat
  hvSide : Bool
  deriving DecidableEq, Repr

def JImage.reset : JImage :=
  { age := 255, filling := Span.reset, snap := Span.reset, good := none, goodLen := 0,
    hvSide := false }

/-- A run of the joiner (R115 to R117): `out` for join-out, the next descriptor, the end, the sink of the last move,
the sinks completed, and the start beat. -/
structure JRun where
  out : Bool
  next : Nat
  stop : Nat
  sink : Option Nat
  done : List Nat
  start : Nat
  expired : Bool
  deriving DecidableEq, Repr

/-- A table entry held in staging until the next T+0 (R119): its index and words. -/
structure Held where
  idx : Nat
  words : List Word
  deriving DecidableEq, Repr

/-- A force slot as it stands in force (R113). -/
structure Force where
  dsc : Nat
  value : BitVec 64
  deriving DecidableEq, Repr

/-- The joiner (04_signal_joiner.md). Tables are sparse by word: entry e of a table of w-word entries has its word k at
key w × e + k. Marks: 1 a single error, 2 a double error of the word (R118). -/
structure Joiner where
  dsc : Sparse Word
  img : Sparse Word
  prm : Sparse Word
  sig : Sparse SigState
  dscEcc : Sparse Nat
  imgEcc : Sparse Nat
  prmEcc : Sparse Nat
  sigEcc : Sparse Nat
  heldDsc : Option Held
  heldImg : Option Held
  heldPrm : Option Held
  images : Sparse JImage
  postLen : Vector Word 22
  side : Bool
  run : Option JRun
  /-- Join-in of this tick has completed (R65, R66), and join-out has started. -/
  inDone : Bool
  outStarted : Bool
  frcEn : Bool
  forces : List (Nat × Force)
  frcPend : Bool
  errIdx : BitVec 32
  deriving DecidableEq, Repr

def Joiner.reset : Joiner :=
  { dsc := [], img := [], prm := [], sig := [], dscEcc := [], imgEcc := [], prmEcc := [], sigEcc := [],
    heldDsc := none, heldImg := none, heldPrm := none, images := [], postLen := Vector.replicate 22 0, side := false,
    run := none, inDone := false, outStarted := false, frcEn := false, forces := [], frcPend := false, errIdx := 0 }

/-! ## Switch fabric and MACs -/

/-- The decision of R130 on a frame. -/
structure Decision where
  vid : BitVec 12
  pri : Fin 8
  queue : Fin 8
  tagged : Bool
  trapped : Bool
  consumed : Bool
  egress : List Nat
  cut : List Nat
  rule : Option Nat
  mirror : Nat
  /-- A drop code of R154 decided here, if any. -/
  drop : Option Nat
  deriving DecidableEq, Repr

/-- What a frame taken from a group asks of its egress (R165, R172, R173). -/
structure TxOpts where
  group : Fin 16
  desc : Nat
  tsreq : Bool
  onestep : Bool
  qset : Option (Fin 8)
  tsPort : Nat
  ptpOfs : Nat
  deriving DecidableEq, Repr

/-- A frame in the packet buffer (R126), its FCS included: where it came from, its ingress stamp, the reserve of its
ingress port when it began (R156), its cells by origin (R127), its decision, its verdict code of R154, and the egress
ports that still need its cells. -/
structure Frame where
  id : Nat
  ingress : PortId
  express : Bool
  bytes : List Byte
  stamp : BitVec 80
  res : Nat
  cellsRes : Nat
  cellsPool : Nat
  dec : Option Decision
  verdict : Option Nat
  needs : List Nat
  opts : Option TxOpts
  /-- More bytes than MAXLEN have come (R140). -/
  oversize : Bool
  /-- A mirror copy, sent as it is (R151). -/
  asIs : Bool
  deriving DecidableEq, Repr

/-- A capture record waiting in the writer's queue (R152): its 128 bytes. -/
structure CapRec where
  bytes : List Byte
  deriving DecidableEq, Repr

/-- One egress port: its eight queues of frame IDs, frames handed over by cut-through, the frame in transmission and
one preempted, the time at which transmission began, whether P10 has delivered its frame (R164), the last frame sent as
it left, the pause end (R148), and the gate list's entry with the beat from which it is open (R144). -/
structure Egress where
  queues : Vector (List Nat) 8
  handed : List Nat
  sending : Option Nat
  preempted : Option Nat
  startTod : BitVec 80
  delivered : Bool
  wire : List Byte
  pauseEnd : Option Nat
  gateIdx : Nat
  gateFrom : Nat
  deriving DecidableEq, Repr

def Egress.reset : Egress :=
  { queues := Vector.replicate 8 [], handed := [], sending := none, preempted := none, startTod := 0, delivered := false,
    wire := [], pauseEnd := none, gateIdx := 0, gateFrom := 0 }

/-- One entry of the gate control lists (R144, R156). -/
structure Gate where
  gates : Byte
  last : Bool
  dur : Nat
  deriving DecidableEq, Repr

def Gate.reset : Gate := { gates := 0, last := false, dur := 0 }

/-- A staged table write waiting for its commit (R156). -/
inductive Stage where
  | mt (idx : Nat) (w : List Word)
  | vl (idx : Nat) (w : List Word)
  | rl (idx : Nat) (w : List Word)
  | gcl (key : Nat) (g : Gate)
  deriving DecidableEq, Repr

/-- A mirror session (R150 to R152). -/
structure Mirror where
  wr : Word
  rd : Word
  lost : Word
  matched : BitVec 32
  queue : List CapRec
  deriving DecidableEq, Repr

def Mirror.reset : Mirror := { wr := 0, rd := 0, lost := 0, matched := 0, queue := [] }

/-- The switch fabric (05_switch_fabric.md). Tables are sparse by word: MAC table entry e at 5 × e, VLAN at 2 × vid,
rule r at 16 × r. Gate lists have key (port × 8 + mode) × 64 + entry. `committed` is the MAC table entry of the last staged commit and its beat (R132). Error
marks have the keys of their words, VLAN words from 100,000 on and rule words from 120,000 on. -/
structure Switch where
  frames : List Frame
  nextId : Nat
  ports : Vector Egress 11
  mt : Sparse Word
  vl : Sparse Word
  rl : Sparse Word
  gcl : Sparse Gate
  staged : Option Stage
  mirrors : Vector Mirror 4
  free : Nat
  resUsed : Vector Nat 11
  lastSweep : Nat
  committed : Option (Nat × Nat)
  tableEcc : Sparse Nat
  deriving DecidableEq, Repr

def Switch.reset : Switch :=
  { frames := [], nextId := 0, ports := Vector.replicate 11 Egress.reset, mt := [], vl := [], rl := [], gcl := [],
    staged := none, mirrors := Vector.replicate 4 Mirror.reset, free := 32768, resUsed := Vector.replicate 11 0,
    lastSweep := 0, committed := none, tableEcc := [] }

/-- The link and lane state of one MAC (R157 to R160). -/
structure MacPort where
  up : Bool
  pcsSync : Bool
  anDone : Bool
  half : Bool
  rate : BitVec 4
  ctle : Nat
  ctleTarget : Nat
  ctleBeat : Nat
  eye : Nat
  deriving DecidableEq, Repr

def MacPort.reset : MacPort :=
  { up := false, pcsSync := false, anDone := false, half := false, rate := 0, ctle := 0, ctleTarget := 0, ctleBeat := 0,
    eye := 0 }

/-- An egress stamp in a group's FIFO (R172). -/
structure TsEntry where
  tod : BitVec 80
  desc : Nat
  missed : Bool
  deriving DecidableEq, Repr

/-- An endpoint group's ring indices and stamp FIFO (R161 to R172). -/
structure Group where
  rxwr : Word
  rxrd : Word
  txwr : Word
  txrd : Word
  ts : List TsEntry
  deriving DecidableEq, Repr

def Group.reset : Group := { rxwr := 0, rxrd := 0, txwr := 0, txrd := 0, ts := [] }

/-- The MACs (06_ethernet_macs.md). -/
structure Macs where
  ports : Vector MacPort 11
  groups : Vector Group 16
  deriving DecidableEq, Repr

def Macs.reset : Macs :=
  { ports := Vector.replicate 11 MacPort.reset, groups := Vector.replicate 16 Group.reset }

/-! ## Rierver ring -/

/-- The states of a channel (R198). -/
inductive RingState where
  | off | listen | claim | master | surveyed | timed | active | clash
  deriving DecidableEq, Repr

/-- A frame that the master launched in this tick (R182, R201): its slot, tick, LAUNCH and payload, and the returns
seen: the forward copy and the reverse copy with a good flag per segment. -/
structure Launched where
  slot : Nat
  tick : Nat
  launch : Nat
  payload : List Byte
  /-- Launched as two copies (R203). -/
  two : Bool
  fwd : Option (List Byte × List Bool)
  rev : Option (List Byte × List Bool)
  deriving DecidableEq, Repr

/-- An open vote (R205 to R207): the target, the ticks that carried VREQ, and the tick N once it has come. -/
structure Vote where
  mode : Fin 8
  ticks : Nat
  n : Option Nat
  deriving DecidableEq, Repr

/-- What a node saw of the present survey (R193, R194): first passage (stamp, on the out lane, serial), second. -/
structure SurveySt where
  tick : Nat
  first : Option (Nat × Bool)
  second : Option Nat
  deriving DecidableEq, Repr

/-- A survey that the master runs (R193): the tick of its launch, the launch stamp, and the copies returned. -/
structure MasterSurvey where
  tick : Nat
  launch : Nat
  fwd : Option (List Byte × Nat)
  rev : Option (List Byte × Nat)
  resultDue : Bool
  deriving DecidableEq, Repr

/-- How a read image fares in the span in progress (R187). -/
inductive ReadSt where
  | silent | seen | fresh | lost
  deriving DecidableEq, Repr

/-- A Rierver channel (07_rierver_ring.md). The image store is sparse by byte: buffer × 16,384 + offset. `sent` are the
frames and `notice` the fold notice (node and state) that the last command of the channel made it send, with its lane. -/
structure RingChannel where
  st : RingState
  inUp : Bool
  outUp : Bool
  folding : Bool
  /-- The fold is at the out lane, else at the in lane (R202). -/
  foldOut : Bool
  folded : Bool
  rev : Bool
  vreq : Bool
  vmode : Fin 8
  rmaxOver : Bool
  dlyF : BitVec 32
  dlyR : BitVec 32
  residence : BitVec 32
  rtt : BitVec 32
  foldFwd : Byte
  foldRev : Byte
  foldReadyFwd : Bool
  foldReadyRev : Bool
  mkey : BitVec 64
  present : List Nat
  voted : List Nat
  votedTick : Nat
  heldKey : BitVec 64
  ownReturns : Nat
  /-- Claim copies of each direction that have not come back, and whether the last claim has (R200). -/
  claimOut : Vector Nat 2
  claimBack : Bool
  claimBeat : Nat
  frameBeat : Nat
  headerBeat : Nat
  keyBeat : Nat
  noticeBeat : Nat
  launched : List Launched
  /-- The tick in which the node became master or its mode changed: no slot has a carry-over from it (R182, R200). -/
  freshTick : Nat
  foreign : Bool
  foreignPrev : Bool
  abandon : Bool
  healTick : Option Nat
  unfoldTick : Option Nat
  vote : Option Vote
  surveyDue : Option Nat
  mSurvey : Option MasterSurvey
  survey : Option SurveySt
  sampleTick : Option Nat
  /-- Slot, tick and direction of the data frames processed (R203, R209). -/
  seen : List (Nat × Nat × Bool)
  /-- The servo error of the last slot 0 header, and the mode of the last good header (R196, R198). -/
  joinE : Option Int
  lastHdrMode : Fin 8
  store : Sparse Byte
  reads : Sparse ReadSt
  spanInactive : Bool
  nodDf : Sparse (BitVec 32)
  nodDr : Sparse (BitVec 32)
  sent : List (Lane × RingWire)
  notice : Option (Lane × Byte × Byte)
  deriving DecidableEq, Repr

def RingChannel.reset : RingChannel :=
  { st := .off, inUp := false, outUp := false, folding := false, foldOut := false, folded := false, rev := false,
    vreq := false, vmode := 0, rmaxOver := false, dlyF := 0xFFFFFFFF, dlyR := 0xFFFFFFFF, residence := 0, rtt := 0,
    foldFwd := 0xFF, foldRev := 0xFF, foldReadyFwd := false, foldReadyRev := false, mkey := 0, present := [],
    voted := [], votedTick := 0, heldKey := 0, ownReturns := 0, claimOut := Vector.replicate 2 0, claimBack := false,
    claimBeat := 0, frameBeat := 0, headerBeat := 0, keyBeat := 0, noticeBeat := 0, launched := [], freshTick := 0,
    foreign := false, foreignPrev := false, abandon := false, healTick := none, unfoldTick := none, vote := none,
    surveyDue := none, mSurvey := none, survey := none, sampleTick := none, seen := [], joinE := none,
    lastHdrMode := 0, store := [], reads := [], spanInactive := true, nodDf := [], nodDr := [], sent := [],
    notice := none }

/-! ## CAN -/

/-- The states of a CAN channel (R215). -/
inductive CanState where
  | off | init | integrating | errorActive | errorPassive | busOff | suspended
  deriving DecidableEq, Repr

/-- An entry of a receive FIFO or a high-priority buffer (R222), as its 128 bytes. -/
structure CanEntry where
  bytes : List Byte
  deriving DecidableEq, Repr

/-- A frame committed to send (R229): the buffer (none: the reference message), its data, whether it is an exclusive-window
frame, the beat of its SOF, and the end of the damper's permission (R237). -/
structure CanTx where
  buf : Option (Fin 32)
  data : List Byte
  exclusive : Bool
  sof : Nat
  permitEnd : Nat
  deriving DecidableEq, Repr

/-- A window of the schedule matrix (R234). -/
structure Window where
  start : Nat
  len : Nat
  kind : Fin 4
  buf : Fin 32
  base : Nat
  rep : Nat
  deriving DecidableEq, Repr

def Window.reset : Window := { start := 0, len := 0, kind := 0, buf := 0, base := 0, rep := 0 }

/-- A window that stands open (R235): its number, its closing beat. -/
structure OpenWin where
  win : Nat
  exclusive : Bool
  buf : Fin 32
  close : Nat
  deriving DecidableEq, Repr

/-- A CAN channel (08_can_fd.md). Message RAM is sparse by byte: intake images at 64 × i, transmit buffers at
2,048 + 64 × b, with buffer 1 of both 4,096 above. Windows have key mode × 32 + window. -/
structure CanChannel where
  st : CanState
  tec : Nat
  rec' : Nat
  tdcv : BitVec 7
  pendingMask : BitVec 32
  clash : Vector Nat 32
  tx : Option CanTx
  fifo : Vector (List CanEntry) 2
  fifoOvf : Vector Bool 2
  hp : Vector (Option CanEntry) 8
  rxLen : Sparse Nat
  ram : Sparse Byte
  windows : Sparse Window
  openWin : Option OpenWin
  refMark : Nat
  refPending : Bool
  refUntil : Nat
  cycle : BitVec 6
  ttSync : Bool
  isTm : Bool
  tmPrio : BitVec 3
  silent : Bool
  spanOut : Bool
  deriving DecidableEq, Repr

def CanChannel.reset : CanChannel :=
  { st := .off, tec := 0, rec' := 0, tdcv := 0, pendingMask := 0, clash := Vector.replicate 32 0,
    tx := none, fifo := Vector.replicate 2 [], fifoOvf := Vector.replicate 2 false, hp := Vector.replicate 8 none,
    rxLen := [], ram := [], windows := [], openWin := none, refMark := 0, refPending := false, refUntil := 0,
    cycle := 0, ttSync := false, isTm := false, tmPrio := 0, silent := false, spanOut := true }

/-! ## Jigs -/

/-- A stalled jig instruction (R245, R248 to R251): what it waits for, with its progress. -/
inductive JStall where
  | hold (line : Fin 8) (level edge sawOther : Bool)
  | delay (until_ : Nat)
  | at (target : Nat)
  | atStrike
  | atTick
  | pace
  | load
  | store (clr : Bool)
  | shift (send man : Bool) (line : Fin 8) (left : Nat) (half : Option Bool)
  deriving DecidableEq, Repr

/-- One line's drive (R245): on or off, and the level last driven. -/
structure LineSt where
  on : Bool
  level : Bool
  deriving DecidableEq, Repr

/-- A jig (R240 to R260). `fetched` says that the next instruction comes from an injection rather than PC. -/
structure Jig where
  en : Bool
  halted : Bool
  clamped : Bool
  pc : BitVec 6
  sr : Word
  ct : Word
  tx : Word
  txFull : Bool
  rx : Word
  rxFull : Bool
  shiftDone : Nat
  lines : Vector LineSt 8
  at' : BitVec 64
  atHeld : Vector Word 3
  paceOrigin : Nat
  pacePeriod : Nat
  paceStep : Nat
  stall : Option JStall
  /-- The stalled instruction came from INJECT or FORCE: its end does not advance PC (R255). -/
  stallInj : Bool
  inj : Option Word
  gateOpen : Bool
  deriving DecidableEq, Repr

def Jig.reset : Jig :=
  { en := false, halted := false, clamped := false, pc := 0, sr := 0, ct := 0, tx := 0, txFull := false, rx := 0,
    rxFull := false, shiftDone := 0, lines := Vector.replicate 8 { on := false, level := false }, at' := 0,
    atHeld := Vector.replicate 3 0, paceOrigin := 0, pacePeriod := 65536, paceStep := 0, stall := none,
    stallInj := false, inj := none, gateOpen := false }

/-! ## Hearths -/

/-- The states of a hearth (R289). -/
inductive HState where
  | stopped | idle | running | halted | clamped
  deriving DecidableEq, Repr

/-- What a stalled instruction of a hearth waits for (R296): a jig word, a waking bank, a handover, a full flue, a
ready flue. `own` tells that an instruction of the hearth's program made the access, not a command by itself. -/
inductive HStall where
  | jigTx (j : JigId) (v : Word) (own : Bool)
  | jigRx (j : JigId) (own : Bool)
  | bank (b : Fin 64) (since : Nat) (wr : Bool)
  | handover (b : Fin 64)
  | postw
  | waitdb
  deriving DecidableEq, Repr

/-- A hearth (11_hearth_architecture.md, 12_hearth_instruction_set.md). Physical registers, bench, customer entries and
micro-operations are sparse with default 0; marks as in the joiner. -/
structure Hearth where
  st : HState
  phys : Sparse Word
  flat : Sparse Word
  pc : Word
  pcode : BitVec 10
  pdata : BitVec 10
  pstk : BitVec 10
  pxtra : BitVec 10
  cnt : Word
  fl : Word
  base : Nat
  res : Nat
  wsp : Word
  wslim : Word
  tpc : Word
  tpcode : BitVec 10
  tfl : Word
  tcause : Word
  tinfoLo : Word
  tinfoHi : BitVec 10
  bench : Sparse Word
  benchEcc : Sparse Nat
  uops : Sparse Word
  uopEcc : Sparse Nat
  wdgEnd : Option Nat
  /-- WDOG stage 1 has been taken and no kick or reload has come since (R311). -/
  wdgTrapped : Bool
  stall : Option HStall
  /-- The held write of BNK_b_OWNER has taken effect and its instruction is about to retire (R402). -/
  resume : Bool
  /-- The bytes of a repeated instruction between two of its iterations (R328). -/
  rep : List Byte
  deriving DecidableEq, Repr

def Hearth.reset : Hearth :=
  { st := .stopped, phys := [], flat := [], pc := 0, pcode := 0x3FF, pdata := 0, pstk := 0, pxtra := 0, cnt := 0,
    fl := 0, base := 0, res := 1, wsp := 0, wslim := 0, tpc := 0, tpcode := 0, tfl := 0, tcause := 0, tinfoLo := 0,
    tinfoHi := 0, bench := [], benchEcc := [], uops := [], uopEcc := [], wdgEnd := none, wdgTrapped := false, stall := none,
    resume := false, rep := [] }

/-! ## Motion -/

/-- The set point of an axis (R350). -/
structure AxisSp where
  mode : Fin 4
  clr : Bool
  target : Int
  vmax : Nat
  acc : Nat
  dec : Nat
  deriving DecidableEq, Repr

def AxisSp.reset : AxisSp := { mode := 0, clr := false, target := 0, vmax := 0, acc := 1, dec := 1 }

/-- How a stopped axis comes to rest (R367). -/
inductive StopPol where
  | none | decel | hold | free
  deriving DecidableEq, Repr

/-- A motion axis (13_motion_unit.md). `posx` is the commanded position in units of 2^-15 of 1/65536 step: the
position with its hidden 15-bit fraction (R355). -/
structure Axis where
  mode : Fin 4
  sp : AxisSp
  spNext : Option AxisSp
  posx : Int
  v : Nat
  dir : Bool
  atTarget : Bool
  /-- Coarse boundaries of the present update span that wait for their beats (R356): due beats, oldest first. -/
  steps : List (Nat × Bool)
  m : Int
  mTarget : Int
  mFrom : Nat
  mDelta : Nat
  mCount : Nat
  mDone : Nat
  mUp : Bool
  /-- Where m stood since the last update: beats and positions, newest first (R361). -/
  mLog : List (Nat × Int)
  stepBeat : Nat
  integA : Int
  integB : Int
  /-- The duties of the next PWM period and those of the present one (R360). -/
  dutyA : Int
  dutyB : Int
  nowA : Int
  nowB : Int
  iSet : Nat
  ia : Int
  ib : Int
  lagF : Nat
  /-- Updates since m last moved, and full-step boundaries crossed while the condition of R366 held. -/
  still : Nat
  stallCount : Nat
  openA : Nat
  openB : Nat
  /-- A fault cause held at the last update (R367), and the beat in which an overcurrent was detected (R368). -/
  cause : Bool
  ocBeat : Option Nat
  enc : BitVec 32
  encIdx : BitVec 32
  filtA : Bool
  filtB : Bool
  filtI : Bool
  stall : Bool
  oc : Bool
  open' : Bool
  encErr : Bool
  convErr : Bool
  modeRej : Bool
  spLate : Bool
  spStale : Bool
  stopped : StopPol
  /-- The commanded position is frozen: a HOLD has reached its update, or the axis is free (R367). -/
  frozen : Bool
  deriving DecidableEq, Repr

def Axis.reset : Axis :=
  { mode := 0, sp := AxisSp.reset, spNext := none, posx := 0, v := 0, dir := true, atTarget := false, steps := [],
    m := 0, mTarget := 0, mFrom := 0, mDelta := 0, mCount := 0, mDone := 0, mUp := true, mLog := [], stepBeat := 0,
    integA := 0, integB := 0, dutyA := 0, dutyB := 0, nowA := 0, nowB := 0, iSet := 0, ia := 0, ib := 0, lagF := 0,
    still := 0, stallCount := 0, openA := 0, openB := 0, cause := false, ocBeat := none,
    enc := 0, encIdx := 0, filtA := false, filtB := false, filtI := false, stall := false, oc := false,
    open' := false, encErr := false, convErr := false, modeRej := false, spLate := false, spStale := false,
    stopped := .none, frozen := false }

/-- A schedule entry of a group (R365). -/
structure Sched where
  sw : BitVec 32
  num : Int
  den : Nat
  deriving DecidableEq, Repr

/-- The set point of a group (R350). -/
structure GroupSp where
  en : Bool
  arm : Bool
  clr : Bool
  bEn : Bool
  num : Int
  den : Nat
  a : Sched
  b : Sched
  deriving DecidableEq, Repr

def GroupSp.reset : GroupSp :=
  { en := false, arm := false, clr := false, bEn := false, num := 0, den := 1, a := { sw := 0, num := 0, den := 1 },
    b := { sw := 0, num := 0, den := 1 } }

/-- A dovetail group (R363 to R367). -/
structure Dovetail where
  sp : GroupSp
  spNext : Option GroupSp
  engaged : Bool
  num : Int
  den : Nat
  e0 : BitVec 32
  /-- The slaves at engagement with their origins P0, by axis (R363). -/
  p0 : Sparse (Option Int)
  armedA : Option Sched
  armedB : Option Sched
  doneA : Bool
  doneB : Bool
  stopped : Bool
  engRej : Bool
  faulty : Nat
  deriving DecidableEq, Repr

def Dovetail.reset : Dovetail :=
  { sp := GroupSp.reset, spNext := none, engaged := false, num := 0, den := 0, e0 := 0, p0 := [], armedA := none,
    armedB := none, doneA := false, doneB := false, stopped := false, engRej := false, faulty := 0 }

/-- A current converter (R349): the end of its last slot, the samples of the round in progress and of the 16 rounds
completed most recently, eight samples a round, newest round first. -/
structure Conv where
  last : Nat
  round : List Int
  rounds : List (List Int)
  err : Bool
  deriving DecidableEq, Repr

def Conv.reset : Conv := { last := 0, round := [], rounds := [], err := false }

/-- The motion unit (13_motion_unit.md): `strike` is the strike beat that the update grid counts from while ticks run
(R348), `update` the next update on it, `count` its updates, `updBeat` the beat of the last update. `par` are the
parameter registers in force (R371). `spBeat` is the beat in which the last read of the set-point image completed. -/
structure Motion where
  axes : Vector Axis 12
  groups : Vector Dovetail 6
  convs : Vector Conv 4
  strike : Option Nat
  update : Nat
  count : Nat
  updBeat : Nat
  par : Sparse Word
  firstRead : Bool
  spBeat : Option Nat
  noLatch : Nat
  stale : Bool
  deriving DecidableEq, Repr

def Motion.reset : Motion :=
  { axes := Vector.replicate 12 Axis.reset, groups := Vector.replicate 6 Dovetail.reset,
    convs := Vector.replicate 4 Conv.reset, strike := none, update := 0, count := 0, updBeat := 0, par := [],
    firstRead := false, spBeat := none, noLatch := 0, stale := false }

/-! ## Field I/O -/

/-- A field input (R375 to R379). -/
structure FInput where
  level : Bool
  cnt : BitVec 32
  period : BitVec 32
  noEdge : Bool
  t0 : Option Nat
  rises : List Nat
  open' : Bool
  deriving DecidableEq, Repr

def FInput.reset : FInput :=
  { level := false, cnt := 0, period := 0, noEdge := false, t0 := none, rises := [], open' := false }

/-- A field output (R383 to R392): the command of the image, the switch and the beat from which it stands so, and what
holds it off: the latches, the wait for a REARM write, the wait for a strike after the beat named. `openNow` and
`stuckNow` are the conditions in force. -/
structure FOutput where
  cmd : Bool
  on : Bool
  changed : Nat
  ovl : Bool
  otc : Bool
  rearm : Bool
  wait : Option Nat
  openNow : Bool
  stuckNow : Bool
  deriving DecidableEq, Repr

def FOutput.reset : FOutput :=
  { cmd := false, on := false, changed := 0, ovl := false, otc := false, rearm := false, wait := none,
    openNow := false, stuckNow := false }

/-- An entry of the edge FIFO (R378), with the beat in which its level was recognised. -/
structure FEdge where
  input : Fin 32
  rising : Bool
  tod : BitVec 80
  beat : Nat
  deriving DecidableEq, Repr

/-- The field die and its proxy (14_field_io.md). `en` is the enable that the die holds, `cfg` the configuration in
force; `lost` tells that the link has been lost and not come back. `order` is a cut-off order in progress with its
start beat and ranks (R391). `spill` is the entry that found the FIFO full, with its beat and TS_OVF as it was (R394). -/
structure FieldIO where
  linkOk : Bool
  lost : Bool
  en : Bool
  cfg : Sparse Word
  inputs : Vector FInput 32
  outputs : Vector FOutput 16
  fifo : List FEdge
  spill : Option (Nat × FEdge × Bool)
  sag : Bool
  cut : Bool
  supplyInv : Bool
  dieOt : Bool
  vfHigh : Bool
  vf : Nat
  vfBeat : Nat
  sagRun : Nat
  highRun : Nat
  sagOk : Option Nat
  good : Option Nat
  rb : Word
  order : Option (Nat × List Nat)
  /-- A strike has fallen, so that a span is open (R381); the first strike after kindling has been taken (R383). -/
  inSpan : Bool
  firstRead : Bool
  /-- The beats of the last changes of the two level words (R375). -/
  loBeat : Option Nat
  hiBeat : Option Nat
  deriving DecidableEq, Repr

def FieldIO.reset : FieldIO :=
  { linkOk := false, lost := false, en := false, cfg := [], inputs := Vector.replicate 32 FInput.reset,
    outputs := Vector.replicate 16 FOutput.reset, fifo := [], spill := none, sag := false, cut := false,
    supplyInv := false, dieOt := false, vfHigh := false, vf := 0, vfBeat := 0, sagRun := 0, highRun := 0,
    sagOk := none, good := none, rb := 0, order := none, inSpan := false, firstRead := false, loBeat := none,
    hiBeat := none }

/-! ## Banks, hosts, flues -/

/-- One bank (R399 to R407): ember state, a wake's end beat, a handover in hold (new owner, writer). -/
structure Bank where
  asleep : Bool
  waking : Option Nat
  asked : Bool
  handover : Option (Fin 22 × Master)
  deriving DecidableEq, Repr

def Bank.reset : Bank := { asleep := false, waking := none, asked := false, handover := none }

/-- The latest error and the latest violation of a bank word (R400, R409). -/
structure BankRec where
  eccAddr : Addr
  eccInfo : Word
  violAddr : Addr
  violInfo : Word
  deriving DecidableEq, Repr

def BankRec.reset : BankRec := { eccAddr := 0, eccInfo := 0, violAddr := 0, violInfo := 0 }

/-- A write to a word in the present beat, for the rule of two writes to one word (R404, R406): its beat, the word's
address, the master, and the word as it was before. -/
structure BeatWrite where
  beat : Nat
  addr : Nat
  master : Master
  old : Word
  deriving DecidableEq, Repr

/-- Bank memory and its state (15_memory_banks.md): bytes by address, marks by word address, corrected words that wait
for their write-back (R409), the writes of the present beat. -/
structure Banks where
  mem : List Host.Cell
  beatW : List BeatWrite
  ecc : Sparse Nat
  writeback : List Nat
  banks : Vector Bank 64
  log : BankRec
  deriving DecidableEq, Repr

def Banks.reset : Banks :=
  { mem := [], beatW := [], ecc := [], writeback := [], banks := Vector.replicate 64 Bank.reset, log := BankRec.reset }

/-- A 16-bit access of a host that waits for its turn (R413, R415): a read, or a write of a word. -/
structure HAcc where
  first : Bool
  addr : Nat
  sel : ByteSel
  w : Option Word
  deriving DecidableEq, Repr

/-- A host port (R411 to R420, R432). `perst` is PERST# asserted; `queue` are accesses that wait, in order; `out` are
the words that the host has been sent; `abort` tells that its last read request was completed with Completer Abort. -/
structure HostPort where
  link : Bool
  fenced : Bool
  absent : Bool
  perst : Bool
  err : Bool
  queue : List HAcc
  abort : Bool
  /-- The bank that the first waiting access waits for, and since which beat (R398, R407). -/
  waits : Option (Fin 64 × Nat)
  wdgEnd : Option Nat
  msi : Nat
  lineNow : Bool
  out : List Word
  deriving DecidableEq, Repr

def HostPort.reset : HostPort :=
  { link := false, fenced := false, absent := false, perst := false, err := false, queue := [], abort := false, waits := none, wdgEnd := none,
    msi := 0, lineNow := false, out := [] }

/-- A flue (R421 to R425): the notice, FULL, and a held P0. -/
structure Flue where
  full : Bool
  n0 : Word
  n1 : Word
  n2 : Word
  p0 : Option Word
  deriving DecidableEq, Repr

def Flue.reset : Flue := { full := false, n0 := 0, n1 := 0, n2 := 0, p0 := none }

/-! ## Kindling -/

/-- The states of the kindling controller (R437). -/
inductive KState where
  | sense | load | verify | start | run | feed | failed | halt
  deriving DecidableEq, Repr

/-- The fuses (R451 to R453): SECURE, the four key hashes (blank until programmed), the revoke bits, the count of blown
version fuses. The serial is Config.serial. -/
structure Fuses where
  secure : Bool
  slots : Vector (Option (List Byte)) 4
  revoked : Vector Bool 4
  count : Nat
  deriving DecidableEq, Repr

/-- Parts leave Frazan with SECURE = 0, every slot blank and a fused count of 0 (R451). -/
def Fuses.reset : Fuses :=
  { secure := false, slots := Vector.replicate 4 none, revoked := Vector.replicate 4 false, count := 0 }

/-- A burn in progress (R453). -/
inductive Burn where
  | slot (k : Fin 4) (hash : List Byte)
  | revoke (k : Fin 4)
  | secure
  deriving DecidableEq, Repr

/-- The image that an attempt takes or that runs: 0 A, 1 B, 2 host-fed (R457). -/
inductive KSlot where
  | a | b | h
  deriving DecidableEq, Repr

/-- The kindling controller (17_kindling_and_startup.md). `stream` is the image read so far, `tableOk` tells that its section table is valid. `kerfs` are the registers
that the running image loaded for kerfs and reserves, which re-plans start from (R463). -/
structure Kindling where
  up : Bool
  st : KState
  slot : Option KSlot
  attempt : Option KSlot
  straps : BitVec 7
  sensed : Bool
  stream : List Byte
  sect : Nat
  tableOk : Bool
  verified : Bool
  starts : Nat
  failA : Byte
  failB : Byte
  failH : Byte
  failSect : Nat
  version : Word
  build : Vector Word 4
  supHost : Nat
  keySlot : Nat
  bootBeat : Nat
  loaded : Sparse Word
  fuses : Fuses
  advArmed : Bool
  advActed : Option Nat
  advTarget : Option Nat
  advBeat : Nat
  burn : Option Burn
  ready : Bool
  readyBeat : Nat
  begun : Bool
  window : Sparse Byte
  chunk : Option Nat
  xBusy : Bool
  deriving DecidableEq, Repr

def Kindling.reset : Kindling :=
  { up := true, st := .sense, slot := none, attempt := none, straps := 0, sensed := false, stream := [], sect := 0,
    tableOk := false, verified := false, starts := 0, failA := 0, failB := 0, failH := 0, failSect := 0, version := 0,
    build := Vector.replicate 4 0, supHost := 0x1F, keySlot := 0, bootBeat := 0, loaded := [], fuses := Fuses.reset,
    advArmed := false, advActed := none, advTarget := none, advBeat := 0, burn := none, ready := false, readyBeat := 0, begun := false,
    window := [], chunk := none, xBusy := false }

/-! ## Seasoning and supervision -/

/-- An entry of the clamp log, with the beat of its clamp (R471). -/
structure ClampRec where
  target : Nat
  cause : Nat
  addr : Addr
  tick : Word
  beat : Nat
  deriving DecidableEq, Repr

/-- Where a re-plan stands (R463). -/
inductive Replan where
  | idle
  | voltage (lowered : Bool)
  | serdes (lane : Nat) (before : Nat) (back : Bool)
  deriving DecidableEq, Repr

/-- Seasoning and the clamp (18_seasoning_and_supervision.md). The index, its count since reset and the anchors are in
units of 2^-48 of 2^-16 hour, so that the remainder is carried (R460). `adjSum` is the sum of ADJ over `adjBeats` beats
with LOCKED = 1 in the re-plan period (R458). -/
structure Season where
  slack : List Int
  osc : List Int
  temp : List Int
  eyes : List Nat
  ron : List Nat
  adjSum : Int
  adjBeats : Nat
  index : Nat
  sinceReset : Nat
  seasonBeat : Nat
  startBeat : Option Nat
  startDone : Bool
  restored : Bool
  seq : Nat
  oscBase : List Int
  ronBase : List Nat
  adjBase : Int
  baseTaken : Bool
  kstage : Nat
  rsteps : Nat
  norLast : Nat
  anchorIdx : Nat
  anchorHead : Int
  replanIdx : Nat
  mv : Nat
  gain : Int
  avsFault : Bool
  avsTries : Nat
  mBefore : Int
  plan : Replan
  predValid : Bool
  eos : Bool
  head : Int
  eosHrs : Word
  clampHrt : BitVec 12
  clampHost : BitVec 4
  clog : List ClampRec
  /-- The entry that found the log full, with CLOG_OVF as it was (R473). -/
  clogSpill : Option (ClampRec × Bool)
  unclampArmed : Bool
  /-- RX_CTLE of the four Rierver lanes (R463), the kerf stage that last took effect and whether a switch is to carry a new
  one (R464), and whether a restore command has come (R462). -/
  ringCtle : List Nat
  kGood : Nat
  kPending : Bool
  restoreTried : Bool
  deriving DecidableEq, Repr

def Season.reset : Season :=
  { slack := [], osc := [], temp := [], eyes := [], ron := [], adjSum := 0, adjBeats := 0, index := 0, sinceReset := 0,
    seasonBeat := 0, startBeat := none, startDone := false, restored := false, seq := 0, oscBase := [], ronBase := [],
    adjBase := 0, baseTaken := false, kstage := 0, rsteps := 0, norLast := 0, anchorIdx := 0, anchorHead := 0,
    replanIdx := 0, mv := 800, gain := 8, avsFault := false, avsTries := 0, mBefore := 0, plan := .idle,
    predValid := false, eos := false, head := 0, eosHrs := 0xFFFF, clampHrt := 0, clampHost := 0, clog := [],
    clogSpill := none, unclampArmed := false, ringCtle := [0, 0, 0, 0], kGood := 0, kPending := false,
    restoreTried := false }

/-! ## The whole device -/

/-- What the device has set or counted in one beat in the registers that a write or a read clears, by register offset
(R15, R482). -/
structure Fresh where
  beat : Nat
  bits : Sparse Word
  deriving DecidableEq, Repr

def Fresh.reset : Fresh := { beat := 0, bits := [] }

/-- The state of the block. `regs` holds every register that no field above holds, by offset from 0x300_0000, with its
reset value as the default. `hold` is the _LO word that each master has written and not yet applied (R481). `latch` is
what reads of _LO words and of lowest words have latched, by master and register (R40, R480). -/
structure State where
  pending : List Instr
  time : TimeUnit
  tick : TickCtl
  jnr : Joiner
  swf : Switch
  mac : Macs
  ring : Vector RingChannel 2
  can : Vector CanChannel 6
  jig : Vector Jig 32
  hearth : Vector Hearth 12
  mot : Motion
  fio : FieldIO
  bank : Banks
  host : Vector HostPort 4
  flue : Vector Flue 64
  epoch : Vector Word 16
  kdl : Kindling
  ssn : Season
  regs : Sparse Word
  hold : Vector (Option (Nat × Word)) 22
  latch : Sparse (Option Word)
  gp : BitVec 64
  fresh : Fresh
  resp : Vector Resp 22
  free : Nat
  deriving DecidableEq, Repr

/-- The device in the beat of reset release (R434): every block in its reset state, SENSE about to run. -/
def State.reset : State :=
  { pending := [], time := TimeUnit.reset, tick := TickCtl.reset, jnr := Joiner.reset, swf := Switch.reset,
    mac := Macs.reset, ring := Vector.replicate 2 RingChannel.reset, can := Vector.replicate 6 CanChannel.reset,
    jig := Vector.replicate 32 Jig.reset, hearth := Vector.replicate 12 Hearth.reset, mot := Motion.reset,
    fio := FieldIO.reset, bank := Banks.reset, host := Vector.replicate 4 HostPort.reset,
    flue := Vector.replicate 64 Flue.reset, epoch := Vector.replicate 16 0, kdl := Kindling.reset,
    ssn := Season.reset, regs := [], hold := Vector.replicate 22 none, latch := [], gp := 0,
    fresh := Fresh.reset, resp := Vector.replicate 22 Resp.reset, free := 0 }

end Sys2Proof.Machine
end

