-- ==== Sys2Proof/Machine/Map.lean ====
section
/-! DEFINITION. Sparse tables in one canonical form, vectors updated at an index, and memory bytes by address. -/

namespace Sys2Proof.Machine

/-- What a sparse table holds at key `k`, `d` its default. -/
def Sparse.get {α : Type} (d : α) (l : Sparse α) (k : Nat) : α :=
  match l.find? (fun e => e.1 == k) with
  | some e => e.2
  | none => d

/-- The table without key `k`. -/
def Sparse.erase {α : Type} (l : Sparse α) (k : Nat) : Sparse α := l.filter (fun e => e.1 != k)

/-- Put an entry before the first greater key. -/
def Sparse.insert {α : Type} (k : Nat) (x : α) : Sparse α → Sparse α
  | [] => [(k, x)]
  | e :: r => if k < e.1 then (k, x) :: e :: r else e :: Sparse.insert k x r

/-- Write `x` at key `k`; the default is not listed. -/
def Sparse.set {α : Type} [DecidableEq α] (d : α) (l : Sparse α) (k : Nat) (x : α) : Sparse α :=
  if x = d then l.erase k else (l.erase k).insert k x

/-- Write consecutive keys from `k` on. -/
def Sparse.setAll {α : Type} [DecidableEq α] (d : α) (l : Sparse α) (k : Nat) : List α → Sparse α
  | [] => l
  | x :: r => (l.set d k x).setAll d (k + 1) r

/-- Read `n` consecutive keys from `k` on. -/
def Sparse.getAll {α : Type} (d : α) (l : Sparse α) (k : Nat) : Nat → List α
  | 0 => []
  | n + 1 => l.get d k :: l.getAll d (k + 1) n

/-- Change every listed entry; an entry that becomes the default is no longer listed. -/
def Sparse.mapAll {α : Type} [DecidableEq α] (d : α) (f : α → α) (l : Sparse α) : Sparse α :=
  (l.map (fun e => (e.1, f e.2))).filter (fun e => e.2 != d)

/-- The canonical form: keys strictly rising, no entry equal to the default. -/
abbrev Sparse.wf {α : Type} (d : α) (l : Sparse α) : Prop :=
  l.Pairwise (fun a b => a.1 < b.1) ∧ ∀ e ∈ l, e.2 ≠ d

/-- Bank memory is well formed: an unlisted byte reads 0, as SENSE leaves it (R438). -/
abbrev Memory.wf (m : List Host.Cell) : Prop := Sparse.wf (0 : BitVec 8) m

/-- The byte of memory at an address. -/
def Memory.byte (m : List Host.Cell) (a : Nat) : Byte := Sparse.get 0 m a

/-- Store a byte. -/
def Memory.setByte (m : List Host.Cell) (a : Nat) (b : Byte) : List Host.Cell := Sparse.set 0 m a b

/-- The 16-bit word at an even address, low byte first (R10). -/
def Memory.word (m : List Host.Cell) (a : Nat) : Word := Memory.byte m (a + 1) ++ Memory.byte m a

/-- Store a 16-bit word, low byte first (R10). -/
def Memory.setWord (m : List Host.Cell) (a : Nat) (w : Word) : List Host.Cell :=
  Memory.setByte (Memory.setByte m a (w.truncate 8)) (a + 1) ((w >>> 8).truncate 8)

/-- The `n` bytes from an address on. -/
def Memory.bytes (m : List Host.Cell) (a n : Nat) : List Byte := Sparse.getAll 0 m a n

/-- Store bytes from an address on. -/
def Memory.setBytes (m : List Host.Cell) (a : Nat) (l : List Byte) : List Host.Cell := Sparse.setAll 0 m a l

/-- Change element `i` of a vector. -/
def upd {α : Type} {n : Nat} (v : Vector α n) (i : Fin n) (f : α → α) : Vector α n := v.set i (f v[i])

/-- The index `i` as an element of `Fin n`, where it is one. -/
def finOf (n i : Nat) : Option (Fin n) := if h : i < n then some ⟨i, h⟩ else none

/-- Element `i` of a list, or `d`. -/
def nthD {α : Type} (l : List α) (i : Nat) (d : α) : α := (l[i]?).getD d

/-- The list of all indices of a vector. -/
def finList (n : Nat) : List (Fin n) := List.finRange n

end Sys2Proof.Machine
end

