-- ==== Sys2Proof/Machine/Ops.lean ====
section
/-! DEFINITION. The operations that every block shares: the registers by offset, the rules of register writes and
reads (R479 to R482), responses, free values, and the passing of beats. -/

namespace Sys2Proof.Machine

open Sys2Proof

/-! ## Registers by offset from 0x300_0000 -/

/-- The reset value of a register where it is not 0 (the Reset columns of the chapters). -/
def Reg.resetOf (off : Nat) : Word :=
  match off / 65536 with
  | 0x0 => if off = 0x0 then 0x6412 else if off = 0x2 then 0x00A0 else if off = 0x10 then 15 else 0
  | 0x1 =>
    if off = 0x1005E then 0x1010 else if off = 0x10066 then 0x0C00 else if off = 0x10068 then 0x0100
    else if 0x10200 ≤ off ∧ off < 0x10240 ∧ off % 16 = 0 then 0x0330 else 0
  | 0x4 => if 0x40600 ≤ off ∧ off < 0x40760 ∧ off % 32 = 8 then 1522 else 0
  | 0x7 => if off < 0x73000 ∧ off % 0x800 = 0 then 2 else 0
  | 0xC => if off < 0xC0400 ∧ off % 16 = 0 then 15 else 0
  | _ => 0

/-- The register at an offset. -/
def State.reg (s : State) (off : Nat) : Word := Sparse.get (Reg.resetOf off) s.regs off

/-- Set the register at an offset. -/
def State.setReg (s : State) (off : Nat) (v : Word) : State :=
  { s with regs := Sparse.set (Reg.resetOf off) s.regs off v }

/-- The 32 bits of a pair whose _LO lies at an offset (R12). -/
def State.pair (s : State) (off : Nat) : Nat := (s.reg off).toNat + 65536 * (s.reg (off + 2)).toNat

/-- Set a pair. -/
def State.setPair (s : State) (off : Nat) (v : Nat) : State := (s.setReg off (wordOf v 0)).setReg (off + 2) (wordOf v 1)

/-- Bit `i` of a register. -/
def State.rbit (s : State) (off i : Nat) : Bool := bit (s.reg off) i

/-- A field of a register. -/
def State.rfld (s : State) (off lo n : Nat) : Nat := fld (s.reg off) lo n

/-- What the device has set or counted in the register at an offset in the present beat: a clear of that beat leaves it
(R15, R482). -/
def State.freshAt (s : State) (off : Nat) : Word :=
  if s.fresh.beat = s.time.beat then Sparse.get 0 s.fresh.bits off else 0

/-- Keep what the device has set or counted in the present beat. -/
def State.markFresh (s : State) (off : Nat) (v : Word) : State :=
  { s with fresh :=
    { beat := s.time.beat, bits := Sparse.set 0 (if s.fresh.beat = s.time.beat then s.fresh.bits else []) off v } }

/-- Set bit `i` of an event register (R15: the event is never lost). -/
def State.raise (s : State) (off i : Nat) : State :=
  (s.setReg off (s.reg off ||| bitMask i)).markFresh off (s.freshAt off ||| bitMask i)

/-- Take an event of this beat back, leaving bit `i` where it `was` set before. -/
def State.withdraw (s : State) (off i : Nat) (was : Bool) : State :=
  (if was then s else s.setReg off (setBit (s.reg off) i false)).markFresh off (s.freshAt off &&& ~~~bitMask i)

/-- Set bit `i` of an event register where a condition holds. -/
def State.raiseIf (s : State) (c : Bool) (off i : Nat) : State := if c then s.raise off i else s

/-- A 16-bit sum that saturates at 0xFFFF. -/
def satWord (w : Word) (n : Nat) : Word := BitVec.ofNat 16 (satAdd 65535 w.toNat n)

/-- Add to a 16-bit counter that saturates at 0xFFFF what earlier beats have counted. -/
def State.count (s : State) (off n : Nat) : State := s.setReg off (satWord (s.reg off) n)

/-- Add to such a counter in the present beat: a clear of this beat leaves it (R482). -/
def State.countNow (s : State) (off n : Nat) : State := (s.count off n).markFresh off (satWord (s.freshAt off) n)

/-- A read that clears a register: what the present beat has set or counted stays (R14, R15, R482). -/
def State.clearRead (s : State) (off : Nat) : State × Word := (s.setReg off (s.freshAt off), s.reg off)

/-! ## Register tables -/

/-- The registers of a table: `n` of them at `base`, `stride` apart (pairs at least 4), and that `m` times, `outer` apart. `rw` are the
bits that a write sets, `w1c` those that a 1 clears. `pair` marks a _LO and _HI pair (R12), `rwHi` the RW bits of its
_HI. -/
structure RegSpec where
  base : Nat
  rw : Nat := 0xFFFF
  w1c : Nat := 0
  n : Nat := 1
  stride : Nat := 2
  m : Nat := 1
  outer : Nat := 0
  pair : Bool := false
  rwHi : Nat := 0xFFFF
  deriving DecidableEq, Repr

/-- The place of an offset in its instance: 0 for the register or _LO, 2 for the _HI of a pair. -/
def RegSpec.place (r : RegSpec) (off : Nat) : Option Nat :=
  if off < r.base then none else
    let d := off - r.base
    let e := d % r.outer
    let w := if r.pair then max r.stride 4 else r.stride
    if d / r.outer < r.m ∧ e / w < r.n then
      if e % w = 0 then some 0 else if r.pair ∧ e % w = 2 then some 2 else none
    else none

/-- The table row of an offset with its place. -/
def RegSpec.find : List RegSpec → Nat → Option (RegSpec × Nat)
  | [], _ => none
  | r :: l, off => match r.place off with
    | some p => some (r, p)
    | none => RegSpec.find l off

/-- What a write leaves in a register: RW bits take the new value, a 1 clears a W1C bit unless the device has set it in
this beat (`keep`), the rest stays (R14, R15, R479). -/
def RegSpec.apply (r : RegSpec) (p : Nat) (old keep v : Word) : Word :=
  merge (BitVec.ofNat 16 (if r.pair ∧ p = 2 then r.rw &&& r.rwHi else r.rw)) old v &&&
    ~~~(v &&& BitVec.ofNat 16 r.w1c &&& ~~~keep)

/-- A write of a _LO word: it is held for the master (R481). -/
def State.holdLo (s : State) (m : Master) (off : Nat) (v : Word) : State :=
  { s with hold := upd s.hold m (fun _ => some (off, v)) }

/-- The low word that a write of _HI uses for the pair at `lo`: the held one if it names the pair, else the present one
(R481). -/
def State.loFor (s : State) (m : Master) (lo : Nat) (present : Word) : Word :=
  match s.hold[m] with
  | some (o, v) => if o = lo then v else present
  | none => present

/-- A write of _HI consumes the hold (R481). -/
def State.dropHold (s : State) (m : Master) : State := { s with hold := upd s.hold m (fun _ => none) }

/-- A write to a register of a table (R14, R479, R481); an offset that no row names ignores it (R476). -/
def State.tableWrite (s : State) (specs : List RegSpec) (m : Master) (off : Nat) (v : Word) : State :=
  match RegSpec.find specs off with
  | none => s
  | some (r, p) =>
    if r.pair then
      if p = 0 then s.holdLo m off v
      else
        let low := match s.hold[m] with
          | some (o, w) => if o = off - 2 then r.apply 0 (s.reg (off - 2)) (s.freshAt (off - 2)) w else s.reg (off - 2)
          | none => s.reg (off - 2)
        ((s.setReg (off - 2) low).setReg off (r.apply 2 (s.reg off) (s.freshAt off) v)).dropHold m
    else s.setReg off (r.apply 0 (s.reg off) (s.freshAt off) v)

/-- Whether an offset is the _LO (`p` = 0) or _HI (`p` = 2) word of a pair of a table. -/
def RegSpec.isPair (specs : List RegSpec) (off p : Nat) : Bool :=
  match RegSpec.find specs off with
  | some (r, q) => r.pair && q == p
  | none => false

/-! ## Latches of multi-word reads (R40, R480) -/

/-- The key of a latch: a master and a register. -/
def latchKey (m : Master) (off : Nat) : Nat := m.val * 1048576 + off

/-- Latch a word for a master and a register. -/
def State.latchWord (s : State) (m : Master) (off : Nat) (w : Word) : State :=
  { s with latch := Sparse.set none s.latch (latchKey m off) (some w) }

/-- Latch the words of a number from word `k` on for a master, at consecutive registers. -/
def State.latchWords (s : State) (m : Master) (off : Nat) : List Word → State
  | [] => s
  | w :: r => (s.latchWord m off w).latchWords m (off + 2) r

/-- What a master reads of a latched register: its latched word, or the live one (R480). -/
def State.latched (s : State) (m : Master) (off : Nat) (live : Word) : Word :=
  (Sparse.get none s.latch (latchKey m off)).getD live

/-- A read of a register of a table whose live value is given by `live`: _LO latches _HI, _HI returns the latched word
(R480). -/
def State.tableRead (s : State) (specs : List RegSpec) (live : State → Nat → Word) (m : Master) (off : Nat) :
    State × Word :=
  if RegSpec.isPair specs off 0 then (s.latchWord m (off + 2) (live s (off + 2)), live s off)
  else if RegSpec.isPair specs off 2 then (s, s.latched m off (live s off))
  else (s, live s off)

/-- A read of a numbered group: word 0 returns its word and latches the others, a later word returns the latched one
(R40). `x` is the live number, `k` the word read, `n` the words. -/
def State.groupRead (s : State) (m : Master) (base k n : Nat) (x : Nat) : State × Word :=
  if k = 0 then (s.latchWords m (base + 2) ((List.range (n - 1)).map (fun i => wordOf x (i + 1))), wordOf x 0)
  else (s, s.latched m (base + 2 * k) (wordOf x k))

/-- Discard a master's latches (R417, R480). -/
def State.clearLatches (s : State) (m : Master) : State :=
  { s with latch := s.latch.filter (fun e => e.1 / 1048576 != m.val) }

/-! ## Responses and free values -/

/-- Record what a master's access answered. -/
def State.respond (s : State) (m : Master) (v : Word) (error : Bool) : State :=
  { s with resp := upd s.resp m (fun _ => { value := v, error := error }) }

/-- Take the next free value: the state counts it, so that no value is used twice. -/
def State.takeFree (s : State) : State × Nat := ({ s with free := s.free + 1 }, s.free)

/-! ## Reset -/

/-- What happens happens only while the device is out of reset: under PORST# every block stands in its reset state
(R434). -/
def State.alive (s : State) (f : State → State) : State := if s.kdl.up then f s else s

/-! ## The passing of beats (R34, R35) -/

/-- One sliver in units of the hidden accumulator (R35). -/
def sliverX : Nat := 2 ^ 45

/-- What time of day gains in a beat, in units of 2^-45 sliver: 8 slivers and ADJ (R35). -/
def TimeUnit.rate (t : TimeUnit) : Nat := ((8 * sliverX : Nat) + t.adj : Int).toNat

/-- `n` beats pass: the beat counter counts them (R34) and time of day advances in each (R35). -/
def TimeUnit.elapse (t : TimeUnit) (n : Nat) : TimeUnit :=
  { t with beat := t.beat + n, todx := t.todx + n * t.rate }

/-- Time of day in slivers (R32). -/
def TimeUnit.tod (t : TimeUnit) : Nat := t.todx / sliverX % 2 ^ 80

/-- Time of day at sliver `sub` of the present beat: the stamp of an event there (R47, R56). -/
def TimeUnit.stamp (t : TimeUnit) (sub : Nat) : BitVec 80 := BitVec.ofNat 80 ((t.todx + sub * t.rate / 8) / sliverX)

/-- The least number of beats after which time of day at the end of the beat is past `x` (in 2^-45 sliver), so that
the present beat plus that number is the beat that contains the instant (R38). -/
def TimeUnit.beatsTo (t : TimeUnit) (x : Nat) : Nat := (x - t.todx) / t.rate

end Sys2Proof.Machine
end

