-- ==== Sys2Proof/Machine/Rights.lean ====
section
/-! DEFINITION. The rights to the register blocks (R485 to R489, R454, R467), by register offset from 0x300_0000. -/

namespace Sys2Proof.Machine

open Sys2Proof

/-- The host that a master ID names (R411). -/
def hostOf (m : Master) : Option (Fin 4) := if m.val < 16 then none else finOf 4 (m.val - 16)

/-- The hearth that a master ID names (R25). -/
def hearthOf (m : Master) : Option HearthId := finOf 12 m.val

/-- The master ID of a host (R411). -/
def hostMaster (n : Fin 4) : Master := ⟨16 + n.val, by omega⟩

/-- The master ID of a hearth (R25). -/
def hearthMaster (h : HearthId) : Master := ⟨h.val, by omega⟩

/-- Kindling has reached RUN, so the running image's delegation holds (R467). -/
def State.inRun (s : State) : Bool := s.kdl.st == .run

/-- Whether kindling leaves H0 to the rights of R454. -/
def State.feedRights (s : State) : Bool := s.kdl.st == .feed || s.kdl.st == .failed || s.kdl.st == .halt

/-- Whether a host port works (R411). -/
def State.hostWorks (s : State) (n : Fin 4) : Bool :=
  s.kdl.up && s.kdl.straps.getLsbD (2 + n.val) && (s.rbit (0xD0600 + 0x20 * n.val) 0 || (n.val == 0 && s.feedRights))

/-- Whether a master is the supervising master (R467). -/
def State.isSup (s : State) (m : Master) : Bool :=
  if s.inRun then s.kdl.supHost != 0x1F && m.val == s.kdl.supHost &&
    (match hostOf m with
     | some n => !s.host[n].fenced
     | none => false)
  else m.val == 15

/-- Offset of flue f, receiver r and host n in the FLU_ block (R433). -/
def fluOff (f : Nat) : Nat := 0xD0000 + 0x10 * f
def fluRecv (r : Nat) : Nat := 0xD0400 + 0x10 * r
def fluHost (n : Nat) : Nat := 0xD0600 + 0x20 * n

/-- The receiver index of a master in the FLU_ block (R433). -/
def recvIdxOf (m : Nat) : Option Nat := if m < 12 then some m else if 16 ≤ m ∧ m < 20 then some (m - 4) else none
def recvIdx (m : Master) : Option Nat := recvIdxOf m.val

/-- SENDER and RECEIVER of a flue; with EN = 0 it has neither (R421). -/
def State.isSender (s : State) (f : Nat) (m : Master) : Bool := s.rbit (fluOff f) 10 && s.rfld (fluOff f) 0 5 == m.val
def State.isReceiver (s : State) (f : Nat) (m : Master) : Bool :=
  s.rbit (fluOff f) 10 && s.rfld (fluOff f) 5 5 == m.val

/-- OWNER of an endpoint group (R161). -/
def State.groupOwner (s : State) (g : Nat) : Nat := s.rfld (0x53000 + 0x80 * g) 1 5

/-- Registers that only the supervising master writes (R488). -/
def supOnly (off : Nat) : Bool :=
  (0xD0600 ≤ off && off < 0xD0680 && (off % 32 == 0 || off % 32 == 4 || off % 32 == 6 || off % 32 == 8 || off % 32 == 0x10)) ||
  (0x40 ≤ off && off < 0x70) || off == 0x20 ||
  off == 0xE0024 || off == 0xE0026 || off == 0xE0028 || off == 0xE002A || (0xE0040 ≤ off && off < 0xE0060) ||
  off == 0xF0310 || off == 0xF0312 || off == 0xF0010 || off == 0xF0014

/-- Registers that the supervising master may write beside their own masters (R401, R433). -/
def supToo (off : Nat) : Bool :=
  (0xC0000 ≤ off && off < 0xC0400) || (0xD0400 ≤ off && off < 0xD0500) ||
  (0xD0600 ≤ off && off < 0xD0680 && off % 32 == 0xC)

/-- The block right in a mask of 16 blocks: hearths under SSN_HRTh_RR and _WR, hosts under FLU_Hn_RRIGHTS and _WRIGHTS
(R418, R486). -/
def State.blockRight (s : State) (m : Master) (off : Nat) (wr : Bool) : Bool :=
  if m.val < 12 then s.rbit (0x40 + 4 * m.val + (if wr then 2 else 0)) (off / 65536)
  else s.rbit (fluHost (m.val - 16) + (if wr then 6 else 4)) (off / 65536)

/-- The rights that are held whatever the masks say (R487). -/
def State.ownRight (s : State) (m : Master) (off : Nat) (wr : Bool) : Bool :=
  if off < 0xA then !wr
  else if 0x90000 ≤ off ∧ off < 0x91800 then (off - 0x90000) / 0x200 == m.val
  else if 0xD0000 ≤ off ∧ off < 0xD0400 then
    let f := (off - 0xD0000) / 16
    let w := off % 16
    (s.isSender f m && w < 8) || (s.isReceiver f m && (w < 4 || (8 ≤ w && w < 0xE)))
  else if 0xD0400 ≤ off ∧ off < 0xD0500 then recvIdx m == some ((off - 0xD0400) / 16)
  else if 0xD0500 ≤ off ∧ off < 0xD0520 then !wr && recvIdx m == some ((off - 0xD0500) / 2)
  else if 0xD0520 ≤ off ∧ off < 0xD05A0 then !wr && recvIdx m == some ((off - 0xD0520) / 8)
  else if 0xD0600 ≤ off ∧ off < 0xD0680 then
    let w := off % 32
    m.val == 16 + (off - 0xD0600) / 32 && (w == 0x2 || w == 0xA || w == 0xC || w == 0xE || w == 0x12 || w == 0x18)
  else if 0x53000 ≤ off ∧ off < 0x53800 then
    let w := off % 128
    s.groupOwner ((off - 0x53000) / 128) == m.val && (!wr || w == 8 || w == 0x10)
  else if off == 0x30008 || off == 0x3000A || off == 0x20020 then wr
  else false

/-- Registers that accept writes and reads only from named masters, whatever the masks say (R424, R488). -/
def State.namedOnly (s : State) (m : Master) (off : Nat) (wr : Bool) : Bool :=
  if wr then
    (!supOnly off) &&
    (if 0xD0000 ≤ off ∧ off < 0xD0400 ∧ (off % 16 = 4 ∨ off % 16 = 6) then s.isSender ((off - 0xD0000) / 16) m
     else if 0xD0400 ≤ off ∧ off < 0xD0500 then recvIdx m == some ((off - 0xD0400) / 16)
     else if 0xD0600 ≤ off ∧ off < 0xD0680 ∧ off % 32 = 0xC then m.val == 16 + (off - 0xD0600) / 32
     else if 0x53000 ≤ off ∧ off < 0x53800 ∧ (off % 128 = 8 ∨ off % 128 = 0x10) then
       s.groupOwner ((off - 0x53000) / 128) == m.val
     else !((0xE0200 ≤ off && off < 0xE0206) || 0xE8000 ≤ off && off < 0xF0000))
  else
    if 0xD0000 ≤ off ∧ off < 0xD0400 ∧ 8 ≤ off % 16 ∧ off % 16 < 0xE then s.isReceiver ((off - 0xD0000) / 16) m
    else true

/-- A write to a CAN message RAM aperture is permitted only in a transmit buffer whose PRODUCER is the writer (R221). -/
def State.canProducer (s : State) (m : Master) (off : Nat) : Bool :=
  let o := (off - 0x74000) % 0x2000
  off < 0x74000 || 0x80000 ≤ off ||
  (0x800 ≤ o && o < 0x1000 &&
    s.rfld (0x70000 + 0x800 * ((off - 0x74000) / 0x2000) + 0x606 + 8 * ((o - 0x800) / 64)) 2 5 == m.val)

/-- Whether a master may access the register at an offset (R485 to R488). In FEED, FAILED and HALT H0 has the rights of
R454 only. -/
def State.mayAccess (s : State) (m : Master) (off : Nat) (wr : Bool) : Bool :=
  if (12 ≤ m.val ∧ m.val < 16) ∨ 20 ≤ m.val then true
  else if m.val = 16 ∧ s.feedRights then
    if wr then s.kdl.st == .feed && (off == 0xE0200 || off == 0xE0204 || (0xE8000 ≤ off && off < 0xF0000))
    else off / 65536 == 0 || off / 65536 == 0xE || off / 65536 == 0xF
  else if wr && s.isSup m && (supOnly off || supToo off) then true
  else s.namedOnly m off wr && (!wr || s.canProducer m off) && (s.blockRight m off wr || s.ownRight m off wr)

end Sys2Proof.Machine
end

