-- ==== Sys2Proof/Machine/Irq.lean ====
section
/-! DEFINITION. The interrupt lines of the hearths and hosts (R310, R428, R432), the MSI of H0 and H1, and the passing of
beats, at whose end the lines are sampled. -/

namespace Sys2Proof.Machine

open Sys2Proof

/-- Whether a bit is set in an event register and in its enable register, which follows it. -/
def State.evOn (s : State) (off : Nat) : Bool := s.reg off &&& s.reg (off + 2) != 0

/-- The interrupt of a CAN channel (R224, R239). -/
def State.canIrq (s : State) (c : Nat) : Bool :=
  let o := 0x70000 + 0x800 * c
  s.evOn (o + 4) || s.evOn (o + 8) || (s.reg (o + 0x48) &&& s.reg (o + 0x4A) &&& 0xFF) != 0

/-- The interrupt of the motion unit: any axis or group (R371). -/
def State.motIrq (s : State) : Bool :=
  (List.range 12).any (fun x => s.evOn (0xA0004 + 0x100 * x)) || (List.range 6).any (fun g => s.evOn (0xA0C0C + 0x20 * g))

/-- The block-wide lines with the block whose read right a host needs for each (R432). The supervision line carries the
events of the SSN_, FLU_ and HRT_ blocks. -/
def State.blockLines (s : State) : List (Nat × Nat × Bool) :=
  [(0, 1, s.evOn 0x10004), (1, 2, s.evOn 0x20004), (2, 3, s.evOn 0x30004), (3, 4, s.evOn 0x40004),
   (5, 6, s.evOn 0x60104), (6, 6, s.evOn 0x60204), (7, 7, (List.range 6).any s.canIrq), (10, 0xC, s.evOn 0xC0500),
   (11, 0xB, s.evOn 0xB0004), (12, 0xA, s.motIrq), (13, 0xF, s.evOn 0xF0004), (13, 0xD, s.evOn 0xD0700),
   (13, 9, (List.range 12).any (fun h => s.evOn (0x90004 + 0x200 * h))), (14, 0xE, s.evOn 0xE0010)]

/-- Whether a jig's interrupt goes to a master (R263). -/
def State.jigIrq (s : State) (m : Master) : Bool :=
  (List.range 32).any (fun j => s.rfld (0x80000 + 0x40 * j) 4 5 == m.val && s.evOn (0x80004 + 0x40 * j))

/-- Whether an endpoint group's interrupt goes to a master (R174). -/
def State.groupIrq (s : State) (m : Master) : Bool :=
  (List.range 16).any (fun g => s.groupOwner g == m.val && s.evOn (0x53014 + 0x80 * g))

/-- Whether a master's doorbell is pending (R428). -/
def State.doorbell (s : State) (m : Master) : Bool :=
  match recvIdx m with
  | some r => (List.finRange 64).any (fun f =>
      s.flue[f].full && s.isReceiver f.val m && s.rbit (fluRecv r + 8 + 2 * (f.val / 16)) (f.val % 16))
  | none => false

/-- WCOL with its enable (R405). -/
def State.wcolIrq (s : State) (m : Master) : Bool := s.reg (0xC0400 + 4 * m.val) &&& 3 == 3

/-- The lines of a master: HRT_h_IRQ_PEND or FLU_Hn_IRQ_PEND (R310, R428, R432). -/
def State.irqPend (s : State) (m : Master) : Word :=
  let wide := s.blockLines.foldl (fun w l =>
    if l.2.2 && (m.val < 12 || s.blockRight m (l.2.1 * 65536) false) then w ||| bitMask l.1 else w) 0
  wide ||| flag (s.groupIrq m) 4 ||| flag (s.jigIrq m) 8 ||| flag (s.doorbell m) 9 ||| flag (s.wcolIrq m) 10

/-- Whether an unmasked line of a host is pending (R432). -/
def State.hostIrq (s : State) (n : Fin 4) : Bool :=
  s.irqPend (hostMaster n) &&& s.reg (fluHost n.val + 0xC) != 0

/-- Whether a host port can send an MSI now: H0 or H1, working, its link up, not fenced, MSI enabled (R419, R432). -/
def State.msiReady (s : State) (n : Fin 4) : Bool :=
  n.val < 2 && s.hostWorks n && s.host[n].link && !s.host[n].fenced && Config.msiEnabled n.val s.time.beat

/-- The end of a beat at a host's interrupt: an MSI where (PEND & MASK) has changed from 0 to nonzero (R432). -/
def State.sampleHost (s : State) (n : Fin 4) : State :=
  let on := s.hostIrq n
  let send := on && !s.host[n].lineNow && s.msiReady n
  { s with host := upd s.host n (fun x => { x with lineNow := on, msi := x.msi + b2n send }) }

/-- The end of a beat at the interrupts of H0 and H1. -/
def State.sampleIrq (s : State) : State := (s.sampleHost 0).sampleHost 1

/-- The beats with LOCKED = 1 enter the mean of ADJ (R458). -/
def Season.pass (x : Season) (t : TimeUnit) (n : Nat) : Season :=
  if t.locked then { x with adjSum := x.adjSum + n * t.adj, adjBeats := x.adjBeats + n } else x

/-- `n` beats pass: the interrupts are sampled at the end of the present beat, and time goes on (R34, R35, R432). -/
def State.elapse (s : State) (n : Nat) : State :=
  if n = 0 then s else { s.sampleIrq with time := s.time.elapse n, ssn := s.ssn.pass s.time n }

/-- The beats up to `due` pass; none if it has come already. -/
def State.until (s : State) (due : Nat) : State := s.elapse (due - s.time.beat)

/-- The beats up to `due` pass, where there is one. -/
def State.untilSome (s : State) (due : Option Nat) : State :=
  match due with
  | some d => s.until d
  | none => s

end Sys2Proof.Machine
end

