-- ==== Sys2Proof/Machine/Clamp.lean ====
section
/-! DEFINITION. The clamp (R312, R468 to R471), the fence (R419) and the jig clamp (R260). -/

namespace Sys2Proof.Machine

open Sys2Proof

/-- An entry enters the log: entries of one beat in the order of their targets (R471). -/
def clogInsert (e : ClampRec) : List ClampRec → List ClampRec
  | [] => [e]
  | x :: r => if x.beat = e.beat ∧ e.target < x.target then e :: x :: r else x :: clogInsert e r

/-- Record a clamp: CLAMP is set, and the log takes the entry or CLOG_OVF is set (R469, R471). -/
def State.logClamp (s : State) (target cause : Nat) (addr : Addr) : State :=
  let s := s.raise 0xF0004 10
  let e : ClampRec := { target := target, cause := cause, addr := addr, tick := wordOf s.tick.tick 0, beat := s.time.beat }
  if s.ssn.clog.length < 8 then { s with ssn := { s.ssn with clog := clogInsert e s.ssn.clog } }
  else { s with ssn := { s.ssn with clogSpill := some (e, s.rbit 0xF0004 11) } }.raise 0xF0004 11

/-- A second violation of a clamped master in the beat of its clamp: the entry takes the lower cause (R471). -/
def State.lowerCause (s : State) (target cause : Nat) (addr : Addr) : State :=
  { s with ssn := { s.ssn with clog := s.ssn.clog.map (fun e =>
    if e.target = target ∧ e.beat = s.time.beat ∧ cause < e.cause then { e with cause := cause, addr := addr } else e) } }

/-- A clamp of a hearth: it enters CLAMPED, a stalled instruction is abandoned, its task ends with no overrun counted
(R76, R312). -/
def State.clampHearth (s : State) (h : HearthId) (cause : Nat) (addr : Addr) : State :=
  if s.hearth[h].st = .clamped then s.lowerCause h.val cause addr else
    let s := { s with
      hearth := upd s.hearth h (fun x => { x with st := .clamped, stall := none, wdgEnd := none })
      tick := { s.tick with
        tasks := upd s.tick.tasks h (fun _ => none)
        lastEnd := match s.tick.tasks[h] with
          | some t => if t.thisTick then s.tick.lastEnd.max s.time.beat else s.tick.lastEnd
          | none => s.tick.lastEnd }
      ssn := { s.ssn with clampHrt := s.ssn.clampHrt ||| BitVec.ofNat 12 (2 ^ h.val) } }
    (s.raise (0x90004 + 0x200 * h.val) 3).logClamp h.val cause addr

/-- A host port at its fence: its waiting accesses get an error response without reaching their targets, so a PCIe read is
aborted and the words of an SPI read are 0xFFFF (R419). -/
def HostPort.fence (x : HostPort) (spi : Bool) : HostPort :=
  let reads := x.queue.filter (fun q => q.w.isNone)
  { x with
    fenced := true, queue := [], waits := none
    err := x.err || (spi && !x.queue.isEmpty)
    abort := x.abort || (!spi && !reads.isEmpty)
    out := if spi then x.out ++ List.replicate reads.length 0xFFFF else if reads.isEmpty then x.out else [] }

/-- A host is fenced (R419). -/
def State.fenceHost (s : State) (n : Fin 4) (cause : Nat) (addr : Addr) : State :=
  if s.host[n].fenced then s.lowerCause (16 + n.val) cause addr else
    let s := { s with
      host := upd s.host n (fun x => x.fence (decide (2 ≤ n.val)))
      ssn := { s.ssn with clampHost := s.ssn.clampHost ||| BitVec.ofNat 4 (2 ^ n.val) } }
    (s.raise 0xD0700 n.val).logClamp (16 + n.val) cause addr

/-- A clamp of a jig: it halts, with its claim, line table, SR, CT, words and PC kept (R260). -/
def State.clampJig (s : State) (j : JigId) (cause : Nat) : State :=
  if s.jig[j].clamped then s.lowerCause (32 + j.val) cause 0 else
    { s with jig := upd s.jig j (fun x => { x with clamped := true, stall := none }) }.logClamp (32 + j.val) cause 0

/-- A violation of a master: a hearth is clamped, a host fenced, the other masters are never clamped (R25, R468, R489). -/
def State.violate (s : State) (m : Master) (cause : Nat) (addr : Addr) : State :=
  match hearthOf m with
  | some h => s.clampHearth h cause addr
  | none => match hostOf m with
    | some n => s.fenceHost n cause addr
    | none => s

/-- The address of a register (R27). -/
def regAddr (off : Nat) : Addr := BitVec.ofNat 26 (0x3000000 + off)

/-- The cause of a register violation: 7 for a post or a notice read by a party not named, else 4 (R424, R468). -/
def State.accessCause (s : State) (m : Master) (off : Nat) (wr : Bool) : Nat :=
  if 0xD0000 ≤ off ∧ off < 0xD0400 then
    if wr then (if (off % 16 = 4 ∨ off % 16 = 6) ∧ !s.isSender ((off - 0xD0000) / 16) m then 7 else 4)
    else if 8 ≤ off % 16 ∧ off % 16 < 0xE ∧ !s.isReceiver ((off - 0xD0000) / 16) m then 7 else 4
  else 4

/-- A register violation: the access is discarded and its master clamped or fenced (R489). -/
def State.regViolation (s : State) (m : Master) (off : Nat) (wr : Bool) : State :=
  s.violate m (s.accessCause m off wr) (regAddr off)

/-- A command of a master that names a register: nothing comes of it where the master is a host whose port does not
work or is fenced, or a hearth that is not running (R289, R411, R419). -/
def State.canAct (s : State) (m : Master) : Bool :=
  match hearthOf m with
  | some h => s.hearth[h].st == .running && s.hearth[h].stall == none
  | none => match hostOf m with
    | some n => s.hostWorks n && !s.host[n].fenced
    | none => true

/-- A write command to the register at an offset, carried out by `act` (R413, R478, R489). -/
def State.writeCmd (s : State) (m : Master) (off : Nat) (act : State → State) : State :=
  if s.canAct m then
    if s.mayAccess m off true then (act s).respond m 0 false else (s.regViolation m off true).respond m 0 true
  else s.respond m 0 true

/-- A byte write to a register changes nothing, commits no violation and gets an error response (R477). -/
def State.byteWriteCmd (s : State) (m : Master) : State := s.respond m 0 true

/-- A read command to the register at an offset, carried out by `act`, which answers the word (R489). -/
def State.readCmd (s : State) (m : Master) (off : Nat) (act : State → State × Word) : State :=
  if s.canAct m then
    if s.mayAccess m off false then (act s).1.respond m (act s).2 false
    else (s.regViolation m off false).respond m 0 true
  else s.respond m 0 true

end Sys2Proof.Machine
end

