-- ==== Sys2Proof/Machine/Time.lean ====
section
/-! DEFINITION. The time unit (02_timebase.md): the servo, holdover, measured clocks, timestamp inputs, timed outputs,
conversion, and the TIM_ registers. -/

namespace Sys2Proof.Machine

open Sys2Proof

/-- Change the time unit. -/
def State.mapTime (s : State) (f : TimeUnit → TimeUnit) : State := { s with time := f s.time }

/-- A new ADJ: it waits for the next tick start while ticks run, and takes effect at once while they are stopped (R37). -/
def State.newAdj (s : State) (x : Int) : State :=
  if s.tick.running then s.mapTime (fun t => { t with adjNew := some x })
  else s.mapTime (fun t => { t with adj := x, adjNew := none })

/-- The point of R37 at a tick start: the newest ADJ takes effect. -/
def State.adjPoint (s : State) : State :=
  s.mapTime (fun t => { t with adj := t.adjNew.getD t.adj, adjNew := none })

/-- SRV_EN (R58). -/
def State.srvOn (s : State) : Bool := s.rbit 0x10000 0

/-- SRV_SRC (R41). -/
def State.srvSource (s : State) : Nat := s.rfld 0x10000 1 3

/-- Whether SRV_SRC selects a source (R41: 0 and 5 to 7 select none). -/
def State.srvHasSource (s : State) : Bool := 1 ≤ s.srvSource && s.srvSource ≤ 4

/-- The duration of the holdover in progress or of the last one, in 2^-10 s (R45). -/
def TimeUnit.holdUnits (t : TimeUnit) : Nat :=
  if t.hold then min 0xFFFFFFFF ((t.beat - t.holdBeat) / 524288) else t.holdTime

/-- The end of holdover: HOLD clears and TIM_HOLD_TIME keeps the duration (R45). -/
def TimeUnit.endHold (t : TimeUnit) : TimeUnit := { t with hold := false, holdTime := t.holdUnits }

/-- One gain product of R43: e × K × 2^(S−16), rounded toward minus infinity. -/
def servoTerm (e : Int) (k sh : Nat) : Int := e * k * 2 ^ sh / 65536

/-- The lock rule of R44 on one sample. -/
def State.lockRule (s : State) (small : Bool) : State :=
  if small then
    s.mapTime (fun t => { t with good := t.good + 1, bad := 0, locked := t.locked || decide (8 ≤ t.good + 1) })
  else
    let lose := s.time.locked && decide (4 ≤ s.time.bad + 1)
    (s.mapTime (fun t => { t with good := 0, bad := t.bad + 1, locked := t.locked && !lose })).raiseIf lose 0x10004 0

/-- One accepted sample of the servo (R43 to R45). -/
def State.sample (s : State) (e0 : Int) : State :=
  let e := clip (-2147483648) 2147483647 e0
  let integ := sat32 (s.time.integ + servoTerm e (s.reg 0x1005C).toNat (s.rfld 0x1005E 8 5))
  let raw := integ + servoTerm e (s.reg 0x1005A).toNat (s.rfld 0x1005E 0 5)
  let s := s.raiseIf (e != e0) 0x10004 5
  let s := s.mapTime (fun t => { t.endHold with integ := integ, adjSat := sat32 raw != raw, holdFrom := t.beat })
  (s.newAdj (sat32 raw)).lockRule (decide (e.natAbs < (s.reg 0x10068).toNat))

/-- A sample from a source counts only if the servo is enabled and selects that source (R41). -/
def State.offer (s : State) (src : Nat) (e : Int) : State :=
  if s.srvOn && s.srvSource == src then s.sample e else s

/-- Entry into holdover, at the beat in which the timeout has passed (R45). -/
def State.enterHold (s : State) : State :=
  if s.srvOn && s.srvHasSource && !s.time.hold then
    let s := s.until (s.time.holdFrom + max 1 (s.reg 0x10066).toNat * 524288)
    let s := s.raiseIf s.time.locked 0x10004 0
    let s := s.mapTime (fun t => { t with hold := true, holdBeat := t.beat, locked := false, good := 0 })
    (s.newAdj s.time.integ).raise 0x10004 1
  else s

/-- The 80-bit value of the words TIM_SET0 to TIM_SET4 (R32). -/
def State.setWords (s : State) : Nat := ofWords ((List.range 5).map (fun k => s.reg (0x10020 + 2 * k)))

/-- TIM_CTRL.SET: with ticks stopped, the beat of the write passes and time of day is the written value at the start of
the next, its accumulator 0; while ticks run, SET_REJ is set (R39). -/
def State.setTod (s : State) : State :=
  if s.tick.running then s.raise 0x10004 2
  else (s.elapse 1).mapTime (fun t => { t with todx := s.setWords * sliverX })

/-- A write of TIM_CTRL (R39, R41, R45, R58). -/
def State.timCtrl (s : State) (v : Word) : State :=
  let old := s.reg 0x10000
  let s := s.setReg 0x10000 (v &&& 0xFF)
  let restart := (!bit old 0 && bit v 0) || fld old 1 3 != fld v 1 3
  let s := if restart then s.mapTime (fun t => { t with holdFrom := t.beat }) else s
  let s := if bit v 9 then s.mapTime (fun t => { t with integ := 0 }) else s
  let s := if s.srvOn && s.srvHasSource then s else (s.mapTime (fun t => if t.hold then t.endHold else t)).newAdj s.time.integ
  let s := if bit v 9 then s.newAdj 0 else s
  if bit v 8 then s.setTod else s

/-! ## Measured clocks -/

/-- The SerDes reference lies within ±100 ppm of 156.25 MHz: `per` is its period in 2^-16 sliver (R51). -/
def sdsInRange (per : Nat) : Bool := per * 156234375 ≤ 2 ^ 48 && 2 ^ 48 ≤ per * 156265625

/-- The end of a gate of 524,288 beats (R50, R51). -/
def State.sdsGate (s : State) (per : BitVec 32) : State :=
  let s := s.until (s.time.sdsBeat + 524288)
  let ok := sdsInRange per.toNat
  (s.mapTime (fun t => { t with sdsPer := per, sdsOk := ok, sdsBeat := t.beat })).raiseIf (!ok) 0x10004 3

/-- The end of a 2^-10 s span of the CAN kernel clock (R52). -/
def State.canSpan (s : State) (cycles : Nat) : State :=
  let s := s.until (s.time.canSpanBeat + 524288)
  let ok := cycles == 78125
  (s.mapTime (fun t => { t with canOk := ok, canSpanBeat := t.beat, canSpanTod := t.stamp 0 })).raiseIf (!ok) 0x10004 4

/-- The time of day of a CAN event at kernel cycle `k` after the last coincidence (R52). -/
def TimeUnit.canStamp (t : TimeUnit) (k : Nat) : Nat := (t.canSpanTod.toNat + k * 4194304 / 78125) % 2 ^ 80

/-! ## Nanoseconds (R54, R55) -/

/-- Nanoseconds of a fraction, rounded to nearest with ties to even; 1,000,000,000 stands for a carry (R54). -/
def nsOf (f : Nat) : Nat := (roundEven (f * 1953125 : Nat) 8388608).toNat

/-- The residual of a conversion in 2^-16 ns (R55). -/
def nsResidual (f : Nat) : Int := roundEven ((f * 1953125 : Nat) - (nsOf f * 8388608 : Nat) : Int) 128

/-- TIM_CNV: convert a fraction (R54, R55, R58). -/
def State.convert (s : State) (f : Nat) : State :=
  let ns := nsOf f
  s.mapTime (fun t => { t with
    cnvNs := if ns = 1000000000 then 0x80000000 else BitVec.ofNat 32 ns
    cnvRes := nsResidual f })

/-! ## Timestamp inputs (R56) -/

/-- Offsets of the registers of a timestamp input and of a timed output (R58). -/
def tsiOff (i : Nat) : Nat := 0x10080 + 0x10 * i
def tsoOff (j : Nat) : Nat := 0x10200 + 0x10 * j

/-- Change a timestamp input. -/
def State.mapTsi (s : State) (i : Fin 16) (f : Tsi → Tsi) : State := s.mapTime (fun t => { t with tsi := upd t.tsi i f })

/-- Change a timed output. -/
def State.mapTso (s : State) (j : Fin 4) (f : Tso → Tso) : State := s.mapTime (fun t => { t with tso := upd t.tso j f })

/-- The servo sample of a PPS edge with stamp fraction `f` (R42). -/
def ppsError (f : Nat) : Int := if f < 2147483648 then -(f : Int) else 4294967296 - f

/-- Whether an input stamps an edge of a direction: EN and EDGE (R58). -/
def State.tsiStamps (s : State) (i : Fin 16) (rising : Bool) : Bool :=
  s.rbit (tsiOff i) 0 && s.rbit (tsiOff i) (if rising then 1 else 2)

/-- Push a stamp into the FIFO of an input, or set OVF (R56). -/
def State.tsiPush (s : State) (i : Fin 16) (st : Stamp) : State :=
  if s.time.tsi[i].fifo.length < 4 then s.mapTsi i (fun x => { x with fifo := x.fifo ++ [st] })
  else ((s.mapTsi i (fun x => { x with ovf := true })).markFresh (tsiOff i + 2) 8).raise 0x10004 6

/-- An edge on a timestamp input (R41, R42, R56). -/
def State.tsiEdge (s : State) (i : Fin 16) (rising : Bool) (sub : Fin 8) : State :=
  let s := s.mapTsi i (fun x => { x with pin := rising })
  if s.tsiStamps i rising then
    let st := s.time.stamp sub.val
    let s := s.tsiPush i { tod := st, rising := rising }
    if rising && s.rfld 0x10000 4 4 == i.val then s.offer 4 (ppsError (st.toNat % 4294967296)) else s
  else s

/-- The head stamp of an input, 0 with the FIFO empty. -/
def Tsi.head (x : Tsi) : Nat :=
  match x.fifo with
  | st :: _ => st.tod.toNat
  | [] => 0

/-- A read of TIM_TSIi_S0: the head stamp's low word; its other words are latched and it is popped (R56). -/
def State.tsiRead (s : State) (m : Master) (i : Fin 16) : State × Word :=
  let r := s.groupRead m (tsiOff i + 4) 0 5 s.time.tsi[i].head
  (r.1.mapTsi i (fun x => { x with fifo := x.fifo.drop 1 }), r.2)

/-- A write of TIM_TSIi_CTRL: EN = 0 flushes the FIFO (R58). -/
def State.tsiCtrl (s : State) (i : Fin 16) (v : Word) : State :=
  let s := s.setReg (tsiOff i) (v &&& 7)
  if bit v 0 then s else s.mapTsi i (fun x => { x with fifo := [] })

/-! ## Timed outputs (R57) -/

/-- MODE of a timed output. -/
def State.tsoMode (s : State) (j : Fin 4) : Nat := s.rfld (tsoOff j) 0 3

/-- What a pin drives on entry into a mode (R57). -/
def tsoEntry (mode : Nat) (pin : Drive) : Drive :=
  match mode with
  | 0 => .hiZ
  | 1 => .low
  | 2 => .high
  | 6 => if pin = .hiZ then .low else pin
  | 7 => .hiZ
  | _ => .low

/-- A write of TIM_TSOj_CTRL (R57). -/
def State.tsoCtrl (s : State) (j : Fin 4) (v : Word) : State :=
  let old := s.tsoMode j
  let s := s.setReg (tsoOff j) (v &&& 0x1FFF)
  let mode := fld v 0 3
  if mode = old then s
  else s.mapTso j (fun x => { x with pin := tsoEntry mode x.pin, pulse := none, queue := [] })

/-- A pulse of a timed output begins. -/
def State.tsoPulse (s : State) (j : Fin 4) : State :=
  s.mapTso j (fun x => { x with pin := .high, pulse := some s.time.beat })

/-- The strobes of the outputs in a mode: 4 at a tick start, 5 at a strike (R57). -/
def State.tsoStrobes (s : State) (mode : Nat) : State :=
  (finList 4).foldl (fun s j => if s.tsoMode j = mode then s.tsoPulse j else s) s

/-- The next whole second of time of day that no pulse has marked, in 2^-45 sliver: a second in the present beat counts
unless the output's pulse began in it. -/
def TimeUnit.nextSecond (t : TimeUnit) (marked : Bool) : Nat :=
  let x := ceilDiv t.todx (2 ^ 77) * 2 ^ 77
  if marked && decide (x < t.todx + t.rate) then x + 2 ^ 77 else x

/-- The rising edge of a PPS output at the next whole second (R57). -/
def State.tsoPps (s : State) (j : Fin 4) : State :=
  if s.tsoMode j = 3 then
    let x := s.time.nextSecond (s.time.tso[j].pulse == some s.time.beat)
    (s.elapse (s.time.beatsTo x)).tsoPulse j
  else s

/-- The length in beats of a pulse: WIDTH × 2^-10 s for PPS, 4,096 beats for a strobe (R57, R58). -/
def State.tsoWidth (s : State) (j : Fin 4) : Nat :=
  if s.tsoMode j = 3 then max 1 (s.rfld (tsoOff j) 3 10) * 524288 else 4096

/-- The end of a pulse (R57). -/
def State.tsoEnd (s : State) (j : Fin 4) : State :=
  match s.time.tso[j].pulse with
  | some b => (s.until (b + s.tsoWidth j)).mapTso j (fun x => { x with pin := .low, pulse := none })
  | none => s

/-- The other level. -/
def Drive.flip : Drive → Drive
  | .high => .low
  | _ => .high

/-- The head of an edge queue: a toggle at its time, or MISS if it has passed (R57). -/
def State.tsoToggle (s : State) (j : Fin 4) : State :=
  match s.time.tso[j].queue with
  | [] => s
  | h :: r =>
    if h.toNat < s.time.tod then ((s.mapTso j (fun x => { x with queue := r, miss := true })).markFresh (tsoOff j + 2)
      (s.freshAt (tsoOff j + 2) ||| 8)).raise 0x10004 7
    else
      let d := s.time.beatsTo ((s.time.todx / sliverX / 2 ^ 80 * 2 ^ 80 + h.toNat) * sliverX)
      (s.elapse d).mapTso j (fun x => { x with queue := r, pin := x.pin.flip })

/-- A write of TIM_TSOj_T4 pushes the time of words T0 to T4 (R57). -/
def State.tsoPush (s : State) (j : Fin 4) (v : Word) : State :=
  let t := ofWords ((List.range 4).map (fun k => s.reg (tsoOff j + 4 + 2 * k)) ++ [v])
  if s.tsoMode j = 6 then
    if s.time.tso[j].queue.length < 4 then s.mapTso j (fun x => { x with queue := x.queue ++ [BitVec.ofNat 80 t] })
    else (s.mapTso j (fun x => { x with full := true })).markFresh (tsoOff j + 2) (s.freshAt (tsoOff j + 2) ||| 32)
  else s

/-! ## Registers (R58) -/

/-- The plain registers and pairs of the time unit. -/
def timSpecs : List RegSpec :=
  [{ base := 0x10004, rw := 0, w1c := 0xFF }, { base := 0x10006, rw := 0xFF }, { base := 0x10020, n := 5 },
   { base := 0x10040 }, { base := 0x10042, rw := 3 }, { base := 0x10050, rw := 0, pair := true }, { base := 0x10054, pair := true },
   { base := 0x1005A, n := 2 }, { base := 0x1005E, rw := 0x1F1F }, { base := 0x10060, n := 2 },
   { base := 0x10066, n := 2 }, { base := 0x1006A, rw := 0, pair := true }, { base := 0x10070, rw := 0, pair := true },
   { base := 0x10074, rw := 0, pair := true }, { base := 0x10078, pair := true },
   { base := 0x1007C, rw := 0, pair := true }, { base := 0x10204, n := 4, m := 4, outer := 16 }]

/-- The 48 bits of the words TIM_SRV_E0 to E2, signed (R41). -/
def State.srvE (s : State) (e2 : Word) : Int := asInt (ofWords [s.reg 0x10060, s.reg 0x10062, e2]) 48

/-- A write of TIM_INTEG_HI: ignored while SRV_EN = 1; else the integrator, which ADJ follows (R41, R58). -/
def State.integWrite (s : State) (m : Master) (v : Word) : State :=
  let lo := s.loFor m 0x10054 (wordOfInt s.time.integ 0)
  let s := s.dropHold m
  if s.srvOn then s
  else
    let x := asInt (ofWords [lo, v]) 32
    (s.mapTime (fun t => { t with integ := x })).newAdj x

/-- A write to a register of the time unit. -/
def State.timWrite (s : State) (m : Master) (off : Nat) (v : Word) : State :=
  if off = 0x10000 then s.timCtrl v
  else if off = 0x10056 then s.integWrite m v
  else if off = 0x10064 then s.offer 1 (s.srvE v)
  else if off = 0x1007A then
    let s := s.tableWrite timSpecs m off v
    s.convert (s.pair 0x10078)
  else if 0x10080 ≤ off ∧ off < 0x10180 then
    match finOf 16 ((off - 0x10080) / 16), off % 16 with
    | some i, 0 => s.tsiCtrl i v
    | some i, 2 => if bit v 3 then s.mapTsi i (fun x => { x with ovf := bit (s.freshAt off) 3 }) else s
    | _, _ => s
  else if 0x10200 ≤ off ∧ off < 0x10240 then
    match finOf 4 ((off - 0x10200) / 16), off % 16 with
    | some j, 0 => s.tsoCtrl j v
    | some j, 2 => s.mapTso j (fun x => { x with
        miss := x.miss && !(bit v 3 && !bit (s.freshAt off) 3), full := x.full && !(bit v 5 && !bit (s.freshAt off) 5) })
    | some j, 12 => s.tsoPush j v
    | _, _ => s.tableWrite timSpecs m off v
  else s.tableWrite timSpecs m off v

/-- The registers of the time unit as they read at present. -/
def State.timLive (s : State) (off : Nat) : Word :=
  let t := s.time
  if off = 0x10002 then flag t.locked 0 ||| flag t.hold 1 ||| flag t.adjSat 2 ||| flag t.sdsOk 3 ||| flag t.canOk 4
  else if off = 0x10050 ∨ off = 0x10052 then wordOfInt t.adj ((off - 0x10050) / 2)
  else if off = 0x10054 ∨ off = 0x10056 then wordOfInt t.integ ((off - 0x10054) / 2)
  else if 0x10060 ≤ off ∧ off < 0x10066 then 0
  else if off = 0x1006A ∨ off = 0x1006C then wordOf t.holdUnits ((off - 0x1006A) / 2)
  else if off = 0x10070 ∨ off = 0x10072 then wordOf t.sdsPer.toNat ((off - 0x10070) / 2)
  else if off = 0x10074 ∨ off = 0x10076 then wordOfInt t.cnvRes ((off - 0x10074) / 2)
  else if off = 0x1007C ∨ off = 0x1007E then wordOf t.cnvNs.toNat ((off - 0x1007C) / 2)
  else if 0x10080 ≤ off ∧ off < 0x10180 then
    match finOf 16 ((off - 0x10080) / 16), off % 16 with
    | some _, 0 => s.reg off
    | some i, 2 =>
      let x := t.tsi[i]
      BitVec.ofNat 16 x.fifo.length ||| flag x.ovf 3 |||
        flag (match x.fifo with | st :: _ => st.rising | [] => false) 4 ||| flag x.pin 5
    | some i, w => if 4 ≤ w ∧ w < 14 then wordOf t.tsi[i].head ((w - 4) / 2) else 0
    | none, _ => 0
  else if 0x10200 ≤ off ∧ off < 0x10240 then
    match finOf 4 ((off - 0x10200) / 16), off % 16 with
    | some _, 0 => s.reg off
    | some j, 2 =>
      let x := t.tso[j]
      BitVec.ofNat 16 x.queue.length ||| flag x.miss 3 ||| flag (x.pin == .high) 4 ||| flag x.full 5
    | _, _ => 0
  else s.reg off

/-- A read of a register of the time unit (R40, R56, R58). -/
def State.timRead (s : State) (m : Master) (off : Nat) : State × Word :=
  if 0x10010 ≤ off ∧ off < 0x1001A then s.groupRead m 0x10010 ((off - 0x10010) / 2) 5 s.time.tod
  else if 0x10030 ≤ off ∧ off < 0x10038 then s.groupRead m 0x10030 ((off - 0x10030) / 2) 4 s.time.beat
  else if 0x10080 ≤ off ∧ off < 0x10180 ∧ 4 ≤ off % 16 ∧ off % 16 < 14 then
    match finOf 16 ((off - 0x10080) / 16) with
    | some i =>
      if off % 16 = 4 then s.tsiRead m i
      else s.groupRead m (tsiOff i + 4) ((off % 16 - 4) / 2) 5 s.time.tsi[i].head
    | none => (s, 0)
  else s.tableRead timSpecs State.timLive m off

/-- TIM_CTRL as a command that changes one field writes it back: SET and INTEG_CLR are not set by it. -/
def State.timCtrlNow (s : State) : Word := s.reg 0x10000 &&& 0xFF

/-! ## Commands -/

def execTimCtrlSet (m : Master) (s : State) : Host.Outcome State Fault Refusal :=
  .next (s.alive fun s => s.writeCmd m 0x10000 (fun s => s.timCtrl (s.timCtrlNow ||| bitMask 8)))

def execIntegClr (m : Master) (s : State) : Host.Outcome State Fault Refusal :=
  .next (s.alive fun s => s.writeCmd m 0x10000 (fun s => s.timCtrl (s.timCtrlNow ||| bitMask 9)))

def execSrvEn (m : Master) (en : Bool) (s : State) : Host.Outcome State Fault Refusal :=
  .next (s.alive fun s => s.writeCmd m 0x10000 (fun s => s.timCtrl (setBit s.timCtrlNow 0 en)))

def execSrvSrc (m : Master) (src : BitVec 3) (s : State) : Host.Outcome State Fault Refusal :=
  .next (s.alive fun s => s.writeCmd m 0x10000 (fun s => s.timCtrl (setFld s.timCtrlNow 1 3 src.toNat)))

def execTimSrvESubmit (m : Master) (v : Word) (s : State) : Host.Outcome State Fault Refusal :=
  .next (s.alive fun s => s.writeCmd m 0x10064 (fun s => s.offer 1 (s.srvE v)))

def execHoldoverEntry (s : State) : Host.Outcome State Fault Refusal := .next (s.alive fun s => s.enterHold)

def execSdsGate (per : BitVec 32) (s : State) : Host.Outcome State Fault Refusal :=
  .next (s.alive fun s => s.sdsGate per)

def execTsiEdge (i : Fin 16) (rising : Bool) (sub : Fin 8) (s : State) : Host.Outcome State Fault Refusal :=
  .next (s.alive fun s => s.tsiEdge i rising sub)

def execTsiS0Read (m : Master) (i : Fin 16) (s : State) : Host.Outcome State Fault Refusal :=
  .next (s.alive fun s => s.readCmd m (tsiOff i + 4) (fun s => s.tsiRead m i))

def execTsiEnClear (m : Master) (i : Fin 16) (s : State) : Host.Outcome State Fault Refusal :=
  .next (s.alive fun s => s.writeCmd m (tsiOff i) (fun s => s.tsiCtrl i (setBit (s.reg (tsiOff i)) 0 false)))

def execTsoPpsEdge (j : Fin 4) (s : State) : Host.Outcome State Fault Refusal := .next (s.alive fun s => s.tsoPps j)

def execTsoPulseEnd (j : Fin 4) (s : State) : Host.Outcome State Fault Refusal := .next (s.alive fun s => s.tsoEnd j)

def execTsoToggle (j : Fin 4) (s : State) : Host.Outcome State Fault Refusal := .next (s.alive fun s => s.tsoToggle j)

def execTsoPush (m : Master) (j : Fin 4) (v : Word) (s : State) : Host.Outcome State Fault Refusal :=
  .next (s.alive fun s => s.writeCmd m (tsoOff j + 12) (fun s => s.tsoPush j v))

def execTsoModeChange (m : Master) (j : Fin 4) (mode : BitVec 3) (s : State) : Host.Outcome State Fault Refusal :=
  .next (s.alive fun s => s.writeCmd m (tsoOff j) (fun s => s.tsoCtrl j (setFld (s.reg (tsoOff j)) 0 3 mode.toNat)))

def execTimCnv (m : Master) (v : Word) (s : State) : Host.Outcome State Fault Refusal :=
  .next (s.alive fun s => s.writeCmd m 0x1007A (fun s => s.timWrite m 0x1007A v))

end Sys2Proof.Machine
end

