-- ==== Sys2Proof/Machine/Modes.lean ====
section
/-! DEFINITION. Schedule modes: their tables, their reserve, and the checks on a mode in the tick controller (R80), the
joiner (R115), the ring (R191), CAN (R236) and the jigs (R254). -/

namespace Sys2Proof.Machine

open Sys2Proof

/-! ## The mode and task tables (R91) -/

/-- Offset of mode m's table and of its task entry for hearth h. -/
def modeOff (m : Nat) : Nat := 0x20100 + 0x20 * m
def taskOff (m h : Nat) : Nat := 0x20400 + 0x100 * m + 0x10 * h

/-- n of a mode (R60). -/
def State.modeN (s : State) (m : Nat) : Nat := s.rfld (modeOff m) 0 4

/-- RSV of a mode (R79). -/
def State.modeRsv (s : State) (m : Nat) : Nat := s.rfld (modeOff m) 4 8

/-- RSV_MAX of a mode (R79). -/
def State.modeRsvMax (s : State) (m : Nat) : Nat := s.rfld (modeOff m + 2) 0 8

/-- L, JIN and JOUT of a mode, in beats. -/
def State.modeL (s : State) (m : Nat) : Nat := s.pair (modeOff m + 4)
def State.modeJin (s : State) (m : Nat) : Nat := s.pair (modeOff m + 8)
def State.modeJout (s : State) (m : Nat) : Nat := s.pair (modeOff m + 12)

/-- The nominal period P = 2^(29−n) beats (R60). -/
def State.modeP (s : State) (m : Nat) : Nat := 2 ^ (29 - s.modeN m)

/-- The tick reserve Q = P × RSV / 256 (R79). -/
def State.modeQ (s : State) (m : Nat) : Nat := s.modeP m * s.modeRsv m / 256

/-- The shortest tick P_min = P − ⌈P × 2^-17⌉ − 1 (R80). -/
def State.modePmin (s : State) (m : Nat) : Nat := s.modeP m - ceilDiv (s.modeP m) 131072 - 1

/-- KIND of a hearth's task in a mode: 0 none, 1 ticked, 2 free; 3 is taken as none (R91). -/
def State.taskKind (s : State) (m h : Nat) : Nat := let k := s.rfld (taskOff m h) 0 2; if k = 3 then 0 else k

/-- A ticked task's RATE, PHASE, ENTRY and budget (R91). -/
def State.taskRate (s : State) (m h : Nat) : Nat := s.rfld (taskOff m h) 2 3
def State.taskPhase (s : State) (m h : Nat) : Nat := s.rfld (taskOff m h) 5 7
def State.taskEntry (s : State) (m h : Nat) : Word := s.reg (taskOff m h + 2)
def State.taskBudget (s : State) (m h : Nat) : Nat := s.pair (taskOff m h + 4)

/-- The tick controller's own check of a reserve value (R79). -/
def rsvOk (rsv rsvMax : Nat) : Bool := 16 ≤ rsv && rsv ≤ rsvMax && rsvMax ≤ 128

/-- The tick controller's own check of a mode (R80). -/
def State.tickModeOk (s : State) (m : Nat) : Bool :=
  let p := s.modeP m
  4 ≤ s.modeN m && s.modeN m ≤ 14 && s.modeL m ≤ p / 2 && rsvOk (s.modeRsv m) (s.modeRsvMax m) &&
  (List.range 12).all (fun h => s.taskKind m h != 1 ||
    decide (s.modeL m + s.modeJin m + s.taskBudget m h + s.modeJout m + p * s.modeRsvMax m / 256 ≤ s.modePmin m))

/-! ## The joiner's runs (R115) -/

/-- First descriptor and length of a run: join-in or join-out of a mode (R123). -/
def State.runFirst (s : State) (m : Nat) (out : Bool) : Nat :=
  s.pair (0x30100 + 0x10 * m + (if out then 8 else 0)) % 262144
def State.runCount (s : State) (m : Nat) (out : Bool) : Nat :=
  s.pair (0x30104 + 0x10 * m + (if out then 8 else 0)) % 524288

/-- A run that extends past descriptor 262,143 fails the mode (R115). -/
def State.joinerModeOk (s : State) (m : Nat) : Bool :=
  s.runFirst m false + s.runCount m false ≤ 262144 && s.runFirst m true + s.runCount m true ≤ 262144

/-! ## The ring's layout (R191) -/

/-- Offsets of a channel's slot, window and image entries (R210). -/
def slotOff (c m sl : Nat) : Nat := 0x60400 + 0x100 * c + 0x20 * m + 8 * sl
def winOff (c m w : Nat) : Nat := 0x60800 + 0x800 * c + 0x100 * m + 8 * w
def rimgOff (c i : Nat) : Nat := 0x61800 + 0x400 * c + 8 * i
def ringOff (c : Nat) : Nat := 0x60100 + 0x100 * c

/-- EN, launch offset and payload length of a slot. -/
def State.slotEn (s : State) (c m sl : Nat) : Bool := s.rbit (slotOff c m sl + 4) 0
def State.slotLaunch (s : State) (c m sl : Nat) : Nat := s.pair (slotOff c m sl)
def State.slotLp (s : State) (c m sl : Nat) : Nat := 64 * s.rfld (slotOff c m sl + 4) 1 9

/-- The code groups and the beats of a frame of a payload length (R181). -/
def frameGroups (lp : Nat) : Nat := 22 + lp + 4 * ceilDiv lp 1024
def frameBeats (lp : Nat) : Nat := ceilDiv (frameGroups lp * 2 ^ 29) 312500000

/-- A window entry of a channel and mode (R184, R210). -/
structure RWin where
  start : Nat
  write : Bool
  len : Nat
  en : Bool
  slot : Nat
  image : Nat
  writer : Nat
  deriving DecidableEq, Repr

def State.ringWin (s : State) (c m w : Nat) : RWin :=
  let o := winOff c m w
  { start := s.rfld o 0 15, write := s.rbit o 15, len := s.rfld (o + 2) 0 15, en := s.rbit (o + 2) 15,
    slot := s.rfld (o + 4) 0 2, image := s.rfld (o + 4) 2 7, writer := s.rfld (o + 6) 0 8 }

/-- The enabled windows of a channel and mode. -/
def State.ringWins (s : State) (c m : Nat) : List RWin :=
  ((List.range 32).map (fun w => s.ringWin c m w)).filter (fun w => w.en)

/-- An image of the ring's store: offset, length, direction, producer (R189, R210). -/
def State.rimgOfs (s : State) (c i : Nat) : Nat := s.rfld (rimgOff c i) 0 14
def State.rimgLen (s : State) (c i : Nat) : Nat := s.rfld (rimgOff c i + 2) 0 15
def State.rimgWrite (s : State) (c i : Nat) : Bool := s.rbit (rimgOff c i + 4) 0
def State.rimgProducer (s : State) (c i : Nat) : Nat := s.rfld (rimgOff c i + 4) 1 5

/-- Two windows of one slot overlap. -/
def RWin.overlaps (a b : RWin) : Bool :=
  a.slot == b.slot && decide (a.start < b.start + b.len) && decide (b.start < a.start + a.len)

/-- No two windows of a list overlap. -/
def noOverlap : List RWin → Bool
  | [] => true
  | w :: r => r.all (fun x => !w.overlaps x) && noOverlap r

/-- RMAX and SVY_OFS of a channel. -/
def State.ringRmax (s : State) (c : Nat) : Nat := (s.reg (ringOff c + 0x18)).toNat
def State.svyOfs (s : State) (c : Nat) : Nat := s.pair (ringOff c + 0x1E)

/-- The enabled slots of a mode, contiguous from slot 0 (R191): their number, or none if they are not contiguous. -/
def State.slotCount (s : State) (c m : Nat) : Option Nat :=
  match (List.range 4).map (fun sl => s.slotEn c m sl) with
  | [false, false, false, false] => some 0
  | [true, false, false, false] => some 1
  | [true, true, false, false] => some 2
  | [true, true, true, false] => some 3
  | [true, true, true, true] => some 4
  | _ => none

/-- The check of a window against its slot and image (R184, R191). -/
def State.ringWinOk (s : State) (c m : Nat) (w : RWin) : Bool :=
  3 ≤ w.len && decide (w.start + w.len ≤ (if s.slotEn c m w.slot then s.slotLp c m w.slot else 0)) &&
  !(w.slot == 0 && decide (w.start < 32)) &&
  (1 ≤ s.rimgLen c w.image && s.rimgLen c w.image ≤ 16384 && s.rimgOfs c w.image + s.rimgLen c w.image ≤ 16384 &&
   s.rimgWrite c w.image == w.write)

/-- A channel's check of a mode (R191); a channel that is not enabled checks nothing. -/
def State.ringModeOk (s : State) (m c : Nat) : Bool :=
  !s.rbit (ringOff c) 0 ||
  (match s.slotCount c m with
   | none => false
   | some n =>
     (List.range n).all (fun sl =>
       let nextAt := if sl + 1 < n then s.slotLaunch c m (sl + 1) else s.svyOfs c
       decide (s.slotLaunch c m sl + frameBeats (s.slotLp c m sl) + 2 * s.ringRmax c + 64 ≤ nextAt)) &&
     decide (s.svyOfs c + 7103 + 2 * s.ringRmax c + 64 + 1024 ≤ s.modePmin m) &&
     (s.ringWins c m).all (s.ringWinOk c m) && noOverlap (s.ringWins c m))

/-! ## The CAN matrix (R231, R236) -/

/-- Offsets of a channel's registers, of its mode entry and of a transmit buffer (R239). -/
def canOff (c : Nat) : Nat := 0x70000 + 0x800 * c
def canMode (c m : Nat) : Nat := canOff c + 0x60 + 0x10 * m
def canTxOff (c b : Nat) : Nat := canOff c + 0x600 + 8 * b

/-- Kernel cycles of a nominal and of a data bit (R213). -/
def State.canNbt (s : State) (c : Nat) : Nat :=
  (s.rfld (canOff c + 0x10) 0 8 + 1) * (1 + (s.rfld (canOff c + 0x12) 0 8 + 1) + (s.rfld (canOff c + 0x12) 8 7 + 1))
def State.canDbt (s : State) (c : Nat) : Nat :=
  (s.rfld (canOff c + 0x14) 0 5 + 1) * (1 + (s.rfld (canOff c + 0x14) 5 5 + 1) + (s.rfld (canOff c + 0x16) 0 4 + 1))

/-- Data bytes of a DLC in a classic or an FD frame (ISO 11898-1). -/
def dlcBytes (fd : Bool) (dlc : Nat) : Nat :=
  if dlc ≤ 8 then dlc
  else if !fd then 8
  else match dlc with
    | 9 => 12
    | 10 => 16
    | 11 => 20
    | 12 => 24
    | 13 => 32
    | 14 => 48
    | _ => 64

/-- Beats of `k` kernel cycles, rounded up: a kernel cycle is 2^29 / 80,000,000 beats (R213). -/
def kernelBeats (k : Nat) : Nat := ceilDiv (k * 2 ^ 29) 80000000

/-- The worst-case duration Wc of a frame of n data bytes (R231). -/
def State.canWc (s : State) (c : Nat) (ide fd brs : Bool) (n : Nat) : Nat :=
  if fd then
    let a := if ide then 57 else 34
    let d := if n ≤ 16 then 10 * n + 34 else 10 * n + 39
    if brs then kernelBeats (a * s.canNbt c + d * s.canDbt c) else kernelBeats ((a + d) * s.canNbt c)
  else
    let g := if ide then 54 else 34
    kernelBeats ((g + 8 * n + 13 + (g + 8 * n - 1) / 4) * s.canNbt c)

/-- Wc of a transmit buffer's frame and of the reference message (R231, R232). -/
def State.canBufWc (s : State) (c b : Nat) : Nat :=
  let o := canTxOff c b
  s.canWc c (s.rbit (o + 2) 13) (s.rbit (o + 2) 14) (s.rbit (o + 2) 15)
    (dlcBytes (s.rbit (o + 2) 14) (s.rfld (o + 4) 0 4))
def State.canRefWc (s : State) (c : Nat) : Nat := s.canWc c false false false 1

/-- Window `w` of a channel and mode. -/
def State.canWin (s : State) (c : CanId) (m w : Nat) : Window := Sparse.get Window.reset s.can[c].windows (m * 32 + w)

/-- Whether a window is in force in a basic cycle (R234). -/
def Window.inForce (w : Window) (cyc : Nat) : Bool :=
  (w.kind == 1 || w.kind == 2) && cyc % 2 ^ w.rep == w.base % 2 ^ w.rep

/-- Windows in ascending order without overlap (R236). -/
def ascending : List Window → Bool
  | a :: b :: r => decide (a.start + a.len ≤ b.start) && ascending (b :: r)
  | _ => true

/-- REF_OFS, NCYC_EXP, PRIO and kerf of a channel's mode. -/
def State.canRefOfs (s : State) (c m : Nat) : Nat := s.pair (canMode c m)
def State.canNcyc (s : State) (c m : Nat) : Nat := s.rfld (canMode c m + 4) 0 3
def State.canPrio (s : State) (c m : Nat) : Nat := s.rfld (canMode c m + 4) 3 3
def State.canKerf (s : State) (c m : Nat) : Nat := s.rfld (canMode c m + 6) 0 15

/-- A channel's check of a mode with a kerf (R236). -/
def State.canModeOkK (s : State) (m : Nat) (c : CanId) (k : Nat) : Bool :=
  let ref := s.canRefWc c
  let wins := (List.range 32).map (fun w => s.canWin c m w)
  let used := wins.filter (fun w => w.kind == 1 || w.kind == 2)
  (List.range (2 ^ s.canNcyc c m)).all (fun cyc =>
    let f := wins.filter (fun w => w.inForce cyc)
    ascending f && (match f with
      | w :: _ => decide (ref + k ≤ w.start)
      | [] => true)) &&
  used.all (fun w => w.kind != 1 || decide (s.canBufWc c w.buf.val + k ≤ w.len)) &&
  decide (s.canRefOfs c m + ref + k + (used.map (fun w => w.start + w.len)).foldl max 0 + 1024 ≤ s.modePmin m)

def State.canModeOk (s : State) (m : Nat) (c : CanId) : Bool := s.canModeOkK m c (s.canKerf c m)

/-! ## The jig windows (R254) -/

/-- Offset of jig j's window in mode m, and of the mode's kerf (R263). -/
def jwinOff (m j : Nat) : Nat := 0x82000 + 0x100 * m + 8 * j
def jkerfOff (m : Nat) : Nat := 0x82800 + 4 * m

def State.jigStart (s : State) (m j : Nat) : Nat := s.pair (jwinOff m j)
def State.jigLen (s : State) (m j : Nat) : Nat := s.pair (jwinOff m j + 4)
def State.jigKerf (s : State) (m : Nat) : Nat := s.rfld (jkerfOff m) 0 15

/-- The jig array's check of a mode with a kerf (R254). -/
def State.jigModeOkK (s : State) (m k : Nat) : Bool :=
  (List.range 32).all (fun j => s.jigLen m j == 0 ||
    (decide (s.jigStart m j + s.jigLen m j ≤ s.modePmin m) && decide (k < s.jigLen m j)))

def State.jigModeOk (s : State) (m : Nat) : Bool := s.jigModeOkK m (s.jigKerf m)

/-! ## The whole check and the protection of tables -/

/-- The check of a mode under R80, with the checks that the joiner, ring, CAN and jigs make in it. -/
def State.modeOk (s : State) (m : Nat) : Bool :=
  s.tickModeOk m && s.joinerModeOk m && (List.range 2).all (fun c => s.ringModeOk m c) &&
  (finList 6).all (fun c => s.canModeOk m c) && s.jigModeOk m

/-- Whether writes to the tables of a mode are barred: it is in force, or the target of a pending request (R87). R87
does not apply to writes made before RUN (R447). -/
def State.modeBarred (s : State) (m : Nat) : Bool :=
  s.inRun && s.tick.running &&
  (s.tick.mode.val == m || (match s.tick.req with
    | some r => r.mode.val == m
    | none => false))

/-- A write to a table of a mode: ignored with CFG_REJ of TCK_EVENT while barred (R87). -/
def State.modeTable (s : State) (m : Nat) (act : State → State) : State :=
  if s.modeBarred m then s.raise 0x20004 8 else act s

end Sys2Proof.Machine
end

