-- ==== Sys2Proof/Machine/Images.lean ====
section
/-! DEFINITION. Images as the image table describes them (R94), where their buffers lie, and sealing (R67 to R71). -/

namespace Sys2Proof.Machine

open Sys2Proof

/-- Word `k` of the image-table entry of image `i` (R94). -/
def State.imgWord (s : State) (i k : Nat) : Word := Sparse.get 0 s.jnr.img (16 * i + k)

/-- Fields of an image-table entry (R94). -/
def State.imgRole (s : State) (i : Nat) : Nat := let r := fld (s.imgWord i 0) 0 3; if 4 < r then 0 else r
def State.imgLocal (s : State) (i : Nat) : Bool := bit (s.imgWord i 0) 3
def State.imgProducer (s : State) (i : Nat) : Nat := fld (s.imgWord i 0) 4 5
def State.imgBase (s : State) (i : Nat) (side : Bool) : Nat :=
  let k := if side then 3 else 1
  ofWords [s.imgWord i k, s.imgWord i (k + 1)] % 2 ^ 26
def State.imgStore (s : State) (i : Nat) : Nat := fld (s.imgWord i 1) 12 4
def State.imgIndex (s : State) (i : Nat) : Nat := fld (s.imgWord i 1) 0 12
def State.imgLen (s : State) (i : Nat) : Nat :=
  let n := (s.imgWord i 5).toNat
  if n = 0 ∨ 32768 < n then 32768 else n
def State.imgQBase (s : State) (i : Nat) (side : Bool) : Option Nat :=
  let q0 := ofWords [s.imgWord i 6, s.imgWord i 7] % 2 ^ 26
  if q0 = 0x3FFFFFF then none
  else some (if side then ofWords [s.imgWord i 8, s.imgWord i 9] % 2 ^ 26 else q0)
def State.imgQCnt (s : State) (i : Nat) : Nat := fld (s.imgWord i 10) 0 12

/-- Roles (R94): 1 intake, 2 delivery, 3 hearth variable, 4 transmit. -/
def State.isIntake (s : State) (i : Nat) : Bool := s.imgRole i == 1
def State.isHVar (s : State) (i : Nat) : Bool := s.imgRole i == 3
def State.isTransmit (s : State) (i : Nat) : Bool := s.imgRole i == 4

/-- The images that the table lists: those whose first word is not 0. -/
def State.imgIds (s : State) : List Nat := (s.jnr.img.filter (fun e => e.1 % 16 == 0)).map (fun e => e.1 / 16)

/-- Whether any of `n` table words from `k` on is marked with an error of a kind: 1 single, 2 double (R118). -/
def eccAny (marks : Sparse Nat) (k n kind : Nat) : Bool := (Sparse.getAll 0 marks k n).any (fun x => x == kind)

/-- Whether an image-table entry holds an uncorrectable error (R69). -/
def State.imgUnc (s : State) (i : Nat) : Bool := eccAny s.jnr.imgEcc (16 * i) 16 2

/-- What the tick controller knows of an image. -/
def State.image (s : State) (i : Nat) : ImageSt := Sparse.get ImageSt.reset s.tick.images i

/-- Change the tick controller. -/
def State.mapTick (s : State) (f : TickCtl → TickCtl) : State := { s with tick := f s.tick }

/-- Change what the tick controller knows of an image. -/
def State.mapImage (s : State) (i : Nat) (f : ImageSt → ImageSt) : State :=
  s.mapTick (fun t => { t with images := Sparse.set ImageSt.reset t.images i (f (s.image i)) })

/-- Change what the joiner knows of an image. -/
def State.jimage (s : State) (i : Nat) : JImage := Sparse.get JImage.reset s.jnr.images i
def State.mapJnr (s : State) (f : Joiner → Joiner) : State := { s with jnr := f s.jnr }
def State.mapJImage (s : State) (i : Nat) (f : JImage → JImage) : State :=
  s.mapJnr (fun j => { j with images := Sparse.set JImage.reset j.images i (f (s.jimage i)) })

/-- T+P−Q of the tick in progress (R79). -/
def State.deadline (s : State) : Nat := s.tick.tBeat + s.tick.pk - s.modeQ s.tick.mode.val

/-- Whether seals count now: ticks run, the first strike after a start has fallen, and it is before T+P−Q (R71, R89). -/
def State.sealsCount (s : State) : Bool :=
  s.tick.running && !(s.tick.first && !s.tick.struck) && !s.tick.sealClosed && decide (s.time.beat < s.deadline)

/-- The buffer that the producer of an image is filling: SIDE, or the store's filling buffer (R24, R98). -/
def State.fillSide (s : State) (i : Nat) : Bool := if s.imgLocal i then (s.image i).fill else s.jnr.side

/-- Seal an image in the tick in progress (R67, R69). -/
def State.sealImage (s : State) (i : Nat) : State :=
  s.mapImage i (fun x => { x with sealed := true, sealedSide := s.fillSide i, everSealed := true })

/-- Whether the task of a hearth is in overrun, so that its seals are void (R74). -/
def State.inOverrun (s : State) (m : Master) : Bool :=
  match hearthOf m with
  | some h => match s.tick.tasks[h] with
    | some t => t.overrun
    | none => false
  | none => false

/-- A write of TCK_SEAL (R69, R71). -/
def State.tckSeal (s : State) (m : Master) (v : Word) : State :=
  let i := fld v 0 10
  if s.imgUnc i then (s.raise 0x30004 9).raise 0x20004 6
  else if s.imgProducer i == m.val && !(s.image i).sealed && s.sealsCount && !s.inOverrun m then s.sealImage i
  else s.raise 0x20004 6

/-- Seal every image of a hearth, as TEND within budget does (R69). -/
def State.sealAll (s : State) (h : HearthId) : State :=
  s.imgIds.foldl (fun s i =>
    if s.imgProducer i == h.val && (s.isHVar i || s.isTransmit i) then
      if s.imgUnc i then s.raise 0x30004 9 else if (s.image i).sealed then s else s.sealImage i
    else s) s

/-! ## Overruns, high-water marks and tasks (R73 to R77) -/

/-- An overrun of index x: flag, event and count (R74, R77). -/
def State.overrun (s : State) (x : Nat) : State :=
  ((s.raise 0x20060 x).raise 0x20004 2).countNow (0x20040 + 2 * x) 1

/-- A high-water mark takes the larger number of beats (R77). -/
def State.highWater (s : State) (x n : Nat) : State :=
  let o := 0x20080 + 4 * x
  let k := max (ofWords [s.freshAt o, s.freshAt (o + 2)]) n
  ((s.setPair o (max (s.pair o) n)).markFresh o (wordOf k 0)).markFresh (o + 2) (wordOf k 1)

/-- The budget of a task has expired before its TEND: overrun (R74). -/
def State.expireTask (s : State) (h : HearthId) : State :=
  match s.tick.tasks[h] with
  | some t =>
    if t.overrun then s
    else if t.ended then (s.mapTick (fun k => { k with tasks := upd k.tasks h (fun _ => none) })).overrun h.val
    else (s.mapTick (fun k => { k with tasks := upd k.tasks h (fun _ => some { t with overrun := true }) })).overrun h.val
  | none => s

/-- BUDGET_EXPIRY: the budget of a hearth's task expires at the start of beat r + B (R74). -/
def State.budgetExpiry (s : State) (h : HearthId) : State :=
  match s.tick.tasks[h] with
  | some t => (s.until (t.release + t.budget)).expireTask h
  | none => s

/-- The task of a hearth ends by TEND: within budget and in time it seals the hearth's images (R69, R74). -/
def State.taskEnd (s : State) (h : HearthId) : State :=
  match s.tick.tasks[h] with
  | some t =>
    let s := if t.release + t.budget ≤ s.time.beat then s.expireTask h else s
    let isOver := t.overrun || decide (t.release + t.budget ≤ s.time.beat)
    let s := s.highWater h.val (s.time.beat - t.release + 1)
    let s := if !isOver && s.sealsCount then s.sealAll h else s
    s.mapTick (fun k => { k with
      tasks := upd k.tasks h (fun _ => none)
      lastEnd := if t.thisTick then k.lastEnd.max s.time.beat else k.lastEnd })
  | none => s

/-- The task of a hearth ends without TEND by RUN = 0; its budget still runs (R74, R297). -/
def State.taskStop (s : State) (h : HearthId) : State :=
  match s.tick.tasks[h] with
  | some t =>
    s.mapTick (fun k => { k with
      tasks := upd k.tasks h (fun _ => if t.overrun then none else some { t with ended := true })
      lastEnd := if t.thisTick then k.lastEnd.max s.time.beat else k.lastEnd })
  | none => s

/-! ## Release of a hearth (R65, R290) -/

/-- Offset of the control registers of a hearth (R314). -/
def hrtOff (h : Nat) : Nat := 0x90000 + 0x200 * h

/-- Change a hearth. -/
def State.mapHearth (s : State) (h : HearthId) (f : Hearth → Hearth) : State := { s with hearth := upd s.hearth h f }

/-- The watchdog reloads from WDG_TMO, in its first stage (R311). -/
def State.wdgReload (s : State) (h : HearthId) : State :=
  let t := (s.reg (hrtOff h.val + 0x10)).toNat
  s.mapHearth h (fun x => { x with wdgEnd := if t = 0 then none else some (s.time.beat + t * 1024), wdgTrapped := false })

/-- The entry state of a release or of the start of a free hearth (R290). -/
def State.enterHearth (s : State) (h : HearthId) : State :=
  let entry := s.taskEntry s.tick.mode.val h.val
  let wstop := s.reg (hrtOff h.val + 0x14) &&& 0xFFFE
  let fl := flag (s.rbit (hrtOff h.val) 1) 7
  (s.mapHearth h (fun x => { x with
    st := .running, pcode := 0x3FF, pc := entry, res := 1, wsp := wstop, fl := fl, cnt := 0, stall := none,
    resume := false, rep := [] })).wdgReload h

/-- Whether a hearth's task is due in the tick in progress (R65). -/
def State.taskDue (s : State) (h : Nat) : Bool :=
  let m := s.tick.mode.val
  s.taskKind m h == 1 && s.tick.tick % 2 ^ s.taskRate m h == s.taskPhase m h

/-- The release of one hearth at work start, or its skip (R65). -/
def State.releaseOne (s : State) (h : HearthId) : State :=
  if s.taskDue h.val then
    match s.hearth[h].st with
    | .stopped => s
    | .idle =>
      (s.enterHearth h).mapTick (fun k => { k with
        tasks := upd k.tasks h (fun _ => some
          { release := s.time.beat, budget := s.taskBudget s.tick.mode.val h.val, overrun := false, thisTick := true,
            ended := false }) })
    | _ => (s.raise 0x20062 h.val).raise 0x20004 3
  else s

/-- Work starts: every due task is released (R65). -/
def State.releaseAll (s : State) : State := (finList 12).foldl State.releaseOne s

/-- Whether a released task of this tick still runs (R66). -/
def State.tasksRun (s : State) : Bool :=
  s.tick.tasks.toList.any (fun t => match t with
    | some t => t.thisTick && !t.ended
    | none => false)

/-- A free hearth starts: into RUNNING at the entry state (R289, R290). -/
def State.startFree (s : State) (h : HearthId) : State :=
  if s.hearth[h].st = .idle ∧ s.taskKind s.tick.mode.val h.val = 2 then s.enterHearth h else s

end Sys2Proof.Machine
end

