-- ==== Sys2Proof/Machine/Bank.lean ====
section
/-! DEFINITION. Memory banks (15_memory_banks.md): permission, ember, error codes, two writes to one word, handover, and
the BNK_ registers. -/

namespace Sys2Proof.Machine

open Sys2Proof

/-- The kinds of access of R410: their codes are those of BNK_VIOL_INFO. -/
inductive BKind where
  | write | read | fetch | aliased
  deriving DecidableEq, Repr

/-- What an access answers: the word, an error response, a violation (its master is dealt with), or the wait for a
waking bank. -/
inductive BRes where
  | ok (w : Word)
  | err
  | viol
  | wait (b : Fin 64)
  deriving DecidableEq, Repr

def BKind.code : BKind → Nat
  | .write => 0
  | .read => 1
  | .fetch => 2
  | .aliased => 3

/-- The cause of the clamp of a violation (R468). -/
def BKind.cause : BKind → Nat
  | .write => 1
  | .read => 2
  | .fetch => 3
  | .aliased => 1

/-- Offset of a bank's registers, and of a master's registers in the BNK_ block (R410). -/
def bnkOff (b : Nat) : Nat := 0xC0000 + 0x10 * b
def bnkMaster (m : Nat) : Nat := 0xC0400 + 4 * m

/-- The bank of a bank address (R396). -/
def bankIdx (a : Nat) : Fin 64 := ⟨a / 0x40000 % 64, Nat.mod_lt _ (by decide)⟩

/-- OWNER, and the bits of RMASK and GMASK (R399). -/
def State.bankOwner (s : State) (b : Fin 64) : Nat := s.rfld (bnkOff b.val) 0 5
def State.inRmask (s : State) (b : Fin 64) (m : Master) : Bool := s.pair (bnkOff b.val + 2) / 2 ^ m.val % 2 == 1
def State.inGmask (s : State) (b : Fin 64) (m : Master) : Bool := s.pair (bnkOff b.val + 6) / 2 ^ m.val % 2 == 1

/-- The table of R399. -/
def State.bankPermits (s : State) (m : Master) (b : Fin 64) (k : BKind) : Bool :=
  s.bankOwner b == m.val ||
  (match k with
   | .read => s.inRmask b m
   | .fetch => s.inRmask b m
   | .write => false
   | .aliased => s.inGmask b m)

/-- Change the bank unit. -/
def State.mapBanks (s : State) (f : Banks → Banks) : State := { s with bank := f s.bank }

/-- Change one bank's state. -/
def State.mapBank (s : State) (b : Fin 64) (f : Bank → Bank) : State :=
  s.mapBanks (fun x => { x with banks := upd x.banks b f })

/-- A violation of R399 (R400). -/
def State.bankViolation (s : State) (m : Master) (a : Nat) (k : BKind) : State :=
  let unclamped := (12 ≤ m.val && m.val < 16) || 20 ≤ m.val
  let info := BitVec.ofNat 16 (m.val + 32 * k.code) ||| flag unclamped 7
  ((s.mapBanks (fun x => { x with log := { x.log with violAddr := BitVec.ofNat 26 a, violInfo := info } })).raise
    0xC0500 2).violate m k.cause (BitVec.ofNat 26 a)

/-- A wake starts: EMBER clears, AWOKE is set, and it ends after 4,096 beats (R407). -/
def State.startWake (s : State) (b : Fin 64) : State :=
  ((s.setReg (bnkOff b.val + 0xA) (s.reg (bnkOff b.val + 0xA) &&& 0xFFFE)).raise 0xC0500 5).mapBank b
    (fun x => { x with waking := some (s.time.beat + 4096) })

/-- Record an error of a word (R409). -/
def State.bankError (s : State) (m : Master) (a : Nat) (unc : Bool) : State :=
  (s.mapBanks (fun x => { x with log := { x.log with
    eccAddr := BitVec.ofNat 26 a, eccInfo := BitVec.ofNat 16 m.val ||| flag unc 5 } })).raise 0xC0500 (if unc then 1 else 0)

/-- The near port serves the hearths, the far port the other masters (R397). -/
def nearPort (m : Master) : Bool := m.val < 12

/-- The write of the present beat to a word at the other port, if any (R404, R406). -/
def State.otherWrite (s : State) (m : Master) (a : Nat) : Option BeatWrite :=
  s.bank.beatW.find? (fun w => w.beat == s.time.beat && w.addr == a && (nearPort w.master != nearPort m))

/-- A lost write sets WCOL of its master (R405). -/
def State.lostWrite (s : State) (m : Master) : State := s.raise (bnkMaster m.val) 0

/-- Whether the write of `m` wins over that of `o`: the owner's, else the lower ID's (R404). -/
def State.writeWins (s : State) (b : Fin 64) (m o : Master) : Bool :=
  s.bankOwner b == m.val || (s.bankOwner b != o.val && decide (m.val < o.val))

/-- Store a word that a master writes, with a fresh code; the write is remembered for its beat (R404, R409). -/
def State.putWord (s : State) (m : Master) (a : Nat) (old w : Word) : State :=
  s.mapBanks (fun x => { x with
    mem := Memory.setWord x.mem a w
    ecc := Sparse.set 0 x.ecc a 0
    writeback := x.writeback.filter (fun y => y != a)
    beatW := x.beatW.filter (fun y => y.beat == s.time.beat && y.addr != a) ++
      [{ beat := s.time.beat, addr := a, master := m, old := old }] })

/-- The write part of an access: `f` gives the new word from the old (R404). -/
def State.bankStore (s : State) (m : Master) (a : Nat) (f : Word → Word) : State :=
  let b := bankIdx a
  match s.otherWrite m a with
  | none => let w := Memory.word s.bank.mem a; s.putWord m a w (f w)
  | some o =>
    if s.writeWins b m o.master then (s.putWord m a o.old (f o.old)).lostWrite o.master
    else s.lostWrite m

/-- The word that an access sees: a write of the other port in the same beat comes after it (R406). -/
def State.seenWord (s : State) (m : Master) (a : Nat) : Word :=
  match s.otherWrite m a with
  | some o => o.old
  | none => Memory.word s.bank.mem a

/-- The part of an access that takes place at an awake bank which permits it: the code is checked unless a whole word
is written (R409), then the word is read and, with `f`, written. -/
def State.bankServe (s : State) (m : Master) (a : Nat) (check : Bool) (f : Option (Word → Word)) : State × BRes :=
  let mark := if check then Sparse.get 0 s.bank.ecc a else 0
  let seen := s.seenWord m a
  if mark = 2 then (s.bankError m a true, .err)
  else
    let s := if mark = 1 then s.bankError m a false else s
    match f with
    | some f => (s.bankStore m a f, .ok seen)
    | none =>
      let s := if mark = 1 ∧ a ∉ s.bank.writeback then s.mapBanks (fun x => { x with writeback := x.writeback ++ [a] })
        else s
      (s, .ok seen)

/-- One access of a master to the word at an even bank address (R399, R400, R407, R409); `via` is the address that the
master named, which a violation records. -/
def State.bankAccess (s : State) (m : Master) (a : Nat) (k : BKind) (check : Bool) (f : Option (Word → Word))
    (via : Nat := a) : State × BRes :=
  let b := bankIdx a
  if !s.bankPermits m b k then
    (s.bankViolation m via k, if (hearthOf m).isSome || (hostOf m).isSome then .viol else .err)
  else if s.bank.banks[b].asleep then
    if s.bank.banks[b].waking.isSome then (s, .wait b)
    else if s.rbit (bnkOff b.val + 0xA) 1 then (s.startWake b, .wait b)
    else (s.raise 0xC0500 3, .err)
  else s.bankServe m a check f

/-- The bits of a word that an access covers (R477). -/
def selMask : ByteSel → Word
  | .word => 0xFFFF
  | .low => 0x00FF
  | .high => 0xFF00

/-- The three windows on bank memory (R26): memory, the bit-set alias, the bit-clear alias. -/
inductive BView where
  | plain | set | clear
  deriving DecidableEq, Repr

def viewOf (a : Nat) : BView :=
  if a < 0x1000000 then .plain else if a < 0x2000000 then .set else .clear

/-- What a write of `v` to a view leaves in a word (R403, R396). -/
def viewWrite (w : BView) (sel : ByteSel) (v old : Word) : Word :=
  match w with
  | .plain => merge (selMask sel) old v
  | .set => old ||| (v &&& selMask sel)
  | .clear => old &&& ~~~(v &&& selMask sel)

/-- A read through an address below 0x300_0000 (R399, R403). -/
def State.memRead (s : State) (m : Master) (a : Nat) (k : BKind) : State × BRes :=
  s.bankAccess m (a % 0x1000000 / 2 * 2) k true none a

/-- A write through an address below 0x300_0000 (R399, R403, R409). -/
def State.memWrite (s : State) (m : Master) (a : Nat) (sel : ByteSel) (v : Word) : State × BRes :=
  let w := viewOf a
  s.bankAccess m (a % 0x1000000 / 2 * 2) (if w = .plain then .write else .aliased)
    (w != .plain || sel != .word) (some (viewWrite w sel v)) a

/-- The end of a wake (R407). -/
def State.endWake (s : State) (b : Fin 64) : State := s.mapBank b (fun x => { x with asleep := false, waking := none })

/-- An access of a master that the spec gives no queue of its own: it waits for the wake in place, its conflict counter
counting the beats (R398, R407). -/
def State.engineAccess (s : State) (m : Master) (a : Nat) (k : BKind) (check : Bool) (f : Option (Word → Word)) :
    State × BRes :=
  match s.bankAccess m a k check f with
  | (s, .wait b) =>
    let due := (s.bank.banks[b].waking).getD s.time.beat
    let n := due - s.time.beat
    (((s.until due).endWake b).count (bnkMaster m.val + 2) n).bankAccess m a k check f
  | r => r

/-- Read `n` bytes from a bank address on, for an engine: `none` where an access is answered with an error. -/
def State.engineBytes (s : State) (m : Master) (a : Nat) : Nat → State × Option (List Byte)
  | 0 => (s, some [])
  | n + 1 =>
    match s.engineAccess m (a / 2 * 2) .read true none with
    | (s, .ok w) =>
      let b : Byte := if a % 2 = 0 then w.truncate 8 else (w >>> 8).truncate 8
      match s.engineBytes m (a + 1) n with
      | (s, some r) => (s, some (b :: r))
      | (s, none) => (s, none)
    | (s, _) => (s, none)

/-- Write bytes from a bank address on, for an engine; the flag tells that no access was answered with an error. -/
def State.engineStore (s : State) (m : Master) (a : Nat) : List Byte → State × Bool
  | [] => (s, true)
  | [b] =>
    let sel := if a % 2 = 0 then ByteSel.low else .high
    let v : Word := b.zeroExtend 16
    match s.engineAccess m (a / 2 * 2) .write true (some (viewWrite .plain sel (if a % 2 = 0 then v else v <<< 8))) with
    | (s, .ok _) => (s, true)
    | (s, _) => (s, false)
  | b :: c :: r =>
    if a % 2 = 0 then
      match s.engineAccess m a .write false (some (fun _ => c ++ b)) with
      | (s, .ok _) => s.engineStore m (a + 2) r
      | (s, _) => (s, false)
    else
      match s.engineAccess m (a - 1) .write true (some (viewWrite .plain .high (b.zeroExtend 16 <<< 8))) with
      | (s, .ok _) => s.engineStore m (a + 1) (c :: r)
      | (s, _) => (s, false)

/-! ## Control of a bank (R401, R402, R407) -/

/-- Whether a master may write a bank's OWNER, masks and CFG (R401). -/
def State.bankControls (s : State) (m : Master) (b : Fin 64) : Bool := s.bankOwner b == m.val || s.isSup m

/-- A write of BNK_b_OWNER: a handover is held, or refused with CFG_REJ (R401, R402). Before RUN the controller's write
takes effect at once: it sets the owners from the image (R401). -/
def State.ownerWrite (s : State) (m : Master) (b : Fin 64) (v : Word) : State :=
  let o := fld v 0 5
  match finOf 22 o with
  | some new =>
    if s.bankControls m b then
      if m.val = 15 ∧ !s.inRun then s.setReg (bnkOff b.val) (BitVec.ofNat 16 o)
      else s.mapBank b (fun x => { x with handover := some (new, m) })
    else s.raise 0xC0500 4
  | none => s.raise 0xC0500 4

/-- Whether a write of the present owner to the bank still waits for its wake (R402). -/
def State.ownerWaits (s : State) (b : Fin 64) : Bool :=
  s.hearth.toList.zipIdx.any (fun e => e.2 == s.bankOwner b && (match e.1.stall with
    | some (.bank c _ true) => c == b
    | _ => false)) ||
  s.host.toList.zipIdx.any (fun e => e.2 + 16 == s.bankOwner b && e.1.waits.any (fun w => w.1 == b) &&
    (e.1.queue.take 1).any (fun q => q.w.isSome))

/-- The handover takes effect (R402). -/
def State.handoverEffect (s : State) (b : Fin 64) : State :=
  match s.bank.banks[b].handover with
  | some (new, _) =>
    if s.ownerWaits b then s
    else (s.setReg (bnkOff b.val) (BitVec.ofNat 16 new.val)).mapBank b (fun x => { x with handover := none })
  | none => s

/-- A write of BNK_b_CFG (R407). -/
def State.bankCfg (s : State) (b : Fin 64) (v : Word) : State :=
  let x := s.bank.banks[b]
  let s := s.setReg (bnkOff b.val + 0xA) (v &&& 3)
  if bit v 0 then if x.asleep then s else s.mapBank b (fun x => { x with asked := true })
  else
    let s := s.mapBank b (fun x => { x with asked := false })
    if x.asleep ∧ x.waking = none then s.startWake b else s

/-- Entry into ember (R407). -/
def State.emberEntry (s : State) (b : Fin 64) : State :=
  if s.bank.banks[b].asked then s.mapBank b (fun x => { x with asked := false, asleep := true }) else s

/-- The write-back of the oldest corrected word of a bank (R409). -/
def State.eccWriteback (s : State) (b : Fin 64) : State :=
  match s.bank.writeback.find? (fun a => bankIdx a == b) with
  | some a => s.mapBanks (fun x => { x with
      ecc := Sparse.set 0 x.ecc a 0, writeback := x.writeback.filter (fun y => y != a) })
  | none => s

/-! ## Registers (R410) -/

def bnkSpecs : List RegSpec :=
  [{ base := 0xC0002, pair := true, stride := 4, n := 2, m := 64, outer := 16 },
   { base := 0xC0400, rw := 2, w1c := 1, n := 22, stride := 4 }, { base := 0xC0500, rw := 0, w1c := 0x3F },
   { base := 0xC0502, rw := 0x3F }]

/-- A write to a register of the BNK_ block. A _LO word is only held, so R401 refuses the write of _HI. -/
def State.bnkWrite (s : State) (m : Master) (off : Nat) (v : Word) : State :=
  if off < 0xC0400 then
    match finOf 64 ((off - 0xC0000) / 16), off % 16 with
    | some b, 0 => s.ownerWrite m b v
    | some b, w =>
      if w < 0xC then
        if w = 2 ∨ w = 6 then s.holdLo m off v
        else if s.bankControls m b then
          if w = 0xA then s.bankCfg b v
          else if w = 4 ∨ w = 8 then s.tableWrite bnkSpecs m off (v &&& 0x3F)
          else s.tableWrite bnkSpecs m off v
        else s.raise 0xC0500 4
      else s
    | none, _ => s
  else s.tableWrite bnkSpecs m off v

/-- The beats that a master has waited in the wait in progress (R398). -/
def State.waitingBeats (s : State) (m : Master) : Nat :=
  match hearthOf m with
  | some h => match s.hearth[h].stall with
    | some (.bank _ since _) => s.time.beat - since
    | _ => 0
  | none => match hostOf m with
    | some n => match s.host[n].waits with
      | some (_, since) => s.time.beat - since
      | none => 0
    | none => 0

/-- Count the wait in progress of a master from the present beat on (R398). -/
def State.restartWait (s : State) (m : Master) : State :=
  match hearthOf m with
  | some h => s.mapHearth h (fun x => { x with stall := match x.stall with
      | some (.bank b _ w) => some (.bank b s.time.beat w)
      | y => y })
  | none => match hostOf m with
    | some n => { s with host := upd s.host n (fun x => { x with waits := x.waits.map (fun y => (y.1, s.time.beat)) }) }
    | none => s

/-- The registers of the BNK_ block as they read at present. -/
def State.bnkLive (s : State) (off : Nat) : Word :=
  if off < 0xC0400 ∧ off % 16 = 0xC then
    match finOf 64 ((off - 0xC0000) / 16) with
    | some b =>
      let x := s.bank.banks[b]
      flag x.asleep 0 ||| flag x.waking.isSome 1 ||| flag x.handover.isSome 2
    | none => 0
  else if off = 0xC0504 ∨ off = 0xC0506 then wordOf s.bank.log.eccAddr.toNat ((off - 0xC0504) / 2)
  else if off = 0xC0508 then s.bank.log.eccInfo
  else if off = 0xC050A ∨ off = 0xC050C then wordOf s.bank.log.violAddr.toNat ((off - 0xC050A) / 2)
  else if off = 0xC050E then s.bank.log.violInfo
  else s.reg off

/-- A read of a register of the BNK_ block (R398, R410). -/
def State.bnkRead (s : State) (m : Master) (off : Nat) : State × Word :=
  if 0xC0400 ≤ off ∧ off < 0xC0458 ∧ off % 4 = 2 then
    match finOf 22 ((off - 0xC0400) / 4) with
    | some c =>
      let v := satAdd 65535 (s.reg off).toNat (s.waitingBeats c)
      ((s.setReg off 0).restartWait c, BitVec.ofNat 16 v)
    | none => (s, 0)
  else if off = 0xC0504 ∨ off = 0xC050A then
    (s.latchWords m (off + 2) [s.bnkLive (off + 2), s.bnkLive (off + 4)], s.bnkLive off)
  else if 0xC0504 ≤ off ∧ off < 0xC0510 then (s, s.latched m off (s.bnkLive off))
  else s.tableRead bnkSpecs State.bnkLive m off

/-! ## Commands -/

def execBnkOwnerWrite (m : Master) (b : Fin 64) (v : Word) (s : State) : Host.Outcome State Fault Refusal :=
  .next (s.alive fun s => s.writeCmd m (bnkOff b.val) (fun s => s.ownerWrite m b v))

def execEmberRequest (m : Master) (b : Fin 64) (s : State) : Host.Outcome State Fault Refusal :=
  .next (s.alive fun s => s.writeCmd m (bnkOff b.val + 0xA)
    (fun s => s.bnkWrite m (bnkOff b.val + 0xA) (setBit (s.reg (bnkOff b.val + 0xA)) 0 true)))

def execEmberEntry (b : Fin 64) (s : State) : Host.Outcome State Fault Refusal :=
  .next (s.alive fun s => s.emberEntry b)

def execEmberWake (m : Master) (b : Fin 64) (s : State) : Host.Outcome State Fault Refusal :=
  .next (s.alive fun s => s.writeCmd m (bnkOff b.val + 0xA)
    (fun s => s.bnkWrite m (bnkOff b.val + 0xA) (setBit (s.reg (bnkOff b.val + 0xA)) 0 false)))

def execEccWriteback (b : Fin 64) (s : State) : Host.Outcome State Fault Refusal :=
  .next (s.alive fun s => s.eccWriteback b)

end Sys2Proof.Machine
end

