-- ==== Sys2Proof/Machine/Flue.lean ====
section
/-! DEFINITION. Flues and the host ports' registers, watchdogs, resets and interrupts (16_hosts_and_flues.md). -/

namespace Sys2Proof.Machine

open Sys2Proof

/-! ## Flues (R421 to R431) -/

/-- Change a flue. -/
def State.mapFlue (s : State) (f : Fin 64) (g : Flue → Flue) : State := { s with flue := upd s.flue f g }

/-- Change a host port. -/
def State.mapHost (s : State) (n : Fin 4) (g : HostPort → HostPort) : State := { s with host := upd s.host n g }

/-- The sender epoch of a master (R426). -/
def State.epochOf (s : State) (m : Master) : Word :=
  match (recvIdx m).bind (finOf 16) with
  | some r => s.epoch[r]
  | none => 0

/-- The sender epoch of a master advances, once kindling has released the hearths (R426). -/
def State.advanceEpoch (s : State) (m : Master) : State :=
  match (recvIdx m).bind (finOf 16) with
  | some r => if s.inRun then { s with epoch := upd s.epoch r (fun e => e + 1) } else s
  | none => s

/-- A post of a notice: stored with the sender's epoch if the flue is empty (R422, R423). -/
def State.post (s : State) (m : Master) (f : Fin 64) (n0 n1 : Word) : State × Bool :=
  if s.flue[f].full then (s, false)
  else (s.mapFlue f (fun _ => { full := true, n0 := n0, n1 := n1, n2 := s.epochOf m, p0 := none }), true)

/-- A write of FLU_f_P0: held for the flue's next post (R423). -/
def State.fluP0 (s : State) (f : Fin 64) (v : Word) : State := s.mapFlue f (fun x => { x with p0 := some v })

/-- A write of FLU_f_P1 posts; a host that finds the flue full is told by POST_FULL (R423). -/
def State.fluP1 (s : State) (m : Master) (f : Fin 64) (v : Word) : State :=
  match s.post m f ((s.flue[f].p0).getD 0) v with
  | (s, true) => s
  | (s, false) => match hostOf m with
    | some n => s.raise (fluHost n.val + 0x18) 0
    | none => s

/-- A read of FLU_f_N2 by the receiver clears FULL (R425). -/
def State.fluN2 (s : State) (m : Master) (f : Fin 64) : State × Word :=
  (if s.isReceiver f.val m then s.mapFlue f (fun x => { x with full := false }) else s, s.flue[f].n2)

/-- A sender's reset or stop discards the P0 words that it holds (R423). -/
def State.dropP0 (s : State) (m : Master) : State :=
  (finList 64).foldl (fun s f => if s.isSender f.val m then s.mapFlue f (fun x => { x with p0 := none }) else s) s

/-- Whether a flue is ready for hearth h in its effective wait set (R430). -/
def State.flueReady (s : State) (h : HearthId) (f : Fin 64) : Bool :=
  s.rbit (fluRecv h.val + 2 * (f.val / 16)) (f.val % 16) &&
  ((s.isReceiver f.val (hearthMaster h) && s.flue[f].full) || (s.isSender f.val (hearthMaster h) && !s.flue[f].full))

/-- Whether the effective wait set of a hearth is empty (R430). -/
def State.waitSetEmpty (s : State) (h : HearthId) : Bool :=
  (finList 64).all (fun f => !(s.rbit (fluRecv h.val + 2 * (f.val / 16)) (f.val % 16) &&
    (s.isReceiver f.val (hearthMaster h) || s.isSender f.val (hearthMaster h))))

/-- The lowest-numbered ready flue of a hearth's wait set (R430). -/
def State.readyFlue (s : State) (h : HearthId) : Option (Fin 64) := (finList 64).find? (fun f => s.flueReady h f)

/-- FLU_Rr_FULLk: the full flues of 16k to 16k+15 that a receiver receives (R428). -/
def State.fullWord (s : State) (r k : Nat) : Word :=
  (finList 64).foldl (fun w f =>
    if f.val / 16 = k ∧ s.flue[f].full ∧ s.rbit (fluOff f.val) 10 ∧
        recvIdxOf (s.rfld (fluOff f.val) 5 5) = some r
    then w ||| bitMask (f.val % 16) else w) 0

/-! ## Hosts (R411 to R420, R432) -/

/-- A host reset: the epoch advances, the SPI write queue, ERR, latches, held words and held P0 go (R417, R423, R481). -/
def State.hostReset (s : State) (n : Fin 4) : State :=
  let m := hostMaster n
  let s := s.advanceEpoch m
  let s := s.mapHost n (fun x => { x with queue := [], err := false, abort := false, waits := none, out := [] })
  (((s.clearLatches m).dropHold m).dropP0 m).raise 0xD0700 (8 + n.val)

/-- A write of FLU_Hn_CTRL; a PCIe port that stops working loses its link, which is a host reset (R411, R417). -/
def State.hostCtrl (s : State) (n : Fin 4) (v : Word) : State :=
  let s := s.setReg (fluHost n.val) (v &&& 1)
  if s.host[n].link && !s.hostWorks n then (s.mapHost n (fun x => { x with link := false })).hostReset n else s

/-- A write of FLU_Hn_WDG_TMO loads and starts the watchdog, or turns it off (R420). -/
def State.hostWdgTmo (s : State) (n : Fin 4) (v : Word) : State :=
  (s.setReg (fluHost n.val + 0x10) v).mapHost n (fun x => { x with
    wdgEnd := if v = 0 then none else some (s.time.beat + v.toNat * 524288) })

/-- A write of FLU_Hn_WDG_KICK: by the host itself it reloads the count and clears ABSENT (R420). -/
def State.hostKick (s : State) (m : Master) (n : Fin 4) : State :=
  if m = hostMaster n then
    let t := (s.reg (fluHost n.val + 0x10)).toNat
    s.mapHost n (fun x => { x with
      absent := false, wdgEnd := if t = 0 then none else some (s.time.beat + t * 524288) })
  else s

/-- A host watchdog expires (R420). -/
def State.hostWdgExpiry (s : State) (n : Fin 4) : State :=
  match s.host[n].wdgEnd with
  | some e => ((s.until e).mapHost n (fun x => { x with absent := true, wdgEnd := none })).raise 0xD0700 (4 + n.val)
  | none => s

/-- A write of FLU_Hn_IRQ_ACK sends the MSI again while lines are pending (R432). -/
def State.irqAckWrite (s : State) (n : Fin 4) : State :=
  if s.hostIrq n && s.msiReady n then s.mapHost n (fun x => { x with msi := x.msi + 1 }) else s

/-! ## Registers (R433) -/

def fluSpecs : List RegSpec :=
  [{ base := 0xD0400, n := 8, m := 16, outer := 16 }, { base := 0xD0604, n := 2, m := 4, outer := 32 },
   { base := 0xD0608, rw := 1, m := 4, outer := 32 }, { base := 0xD060C, m := 4, outer := 32 },
   { base := 0xD0618, rw := 0, w1c := 1, m := 4, outer := 32 }, { base := 0xD0700, rw := 0, w1c := 0xFFF },
   { base := 0xD0702, rw := 0xFFF }]

/-- Whether a read-only register of Reset "kindling" takes a write: by master 15 before RUN (R447). -/
def State.kindlingField (s : State) (m : Master) : Bool := m.val == 15 && !s.inRun

/-- A write to a register of the FLU_ block. -/
def State.fluWrite (s : State) (m : Master) (off : Nat) (v : Word) : State :=
  if off < 0xD0400 then
    match finOf 64 ((off - 0xD0000) / 16), off % 16 with
    | some _, 0 => if s.kindlingField m then s.setReg off (v &&& 0x7FF) else s
    | some f, 4 => if s.isSender f.val m then s.fluP0 f v else s
    | some f, 6 => if s.isSender f.val m then s.fluP1 m f v else s
    | _, _ => s
  else if 0xD0600 ≤ off ∧ off < 0xD0680 then
    match finOf 4 ((off - 0xD0600) / 32), off % 32 with
    | some n, 0 => s.hostCtrl n v
    | some n, 0xE => s.irqAckWrite n
    | some n, 0x10 => s.hostWdgTmo n v
    | some n, 0x12 => s.hostKick m n
    | some n, w =>
      if w = 0x14 ∨ w = 0x16 then (if s.kindlingField m ∧ n.val < 2 then s.setReg off v else s)
      else s.tableWrite fluSpecs m off v
    | none, _ => s
  else s.tableWrite fluSpecs m off v

/-- The registers of the FLU_ block as they read at present. -/
def State.fluLive (s : State) (off : Nat) : Word :=
  if off < 0xD0400 then
    match finOf 64 ((off - 0xD0000) / 16), off % 16 with
    | some _, 0 => s.reg off
    | some f, 2 => flag s.flue[f].full 0
    | some f, 8 => s.flue[f].n0
    | some f, 0xA => s.flue[f].n1
    | some f, 0xC => s.flue[f].n2
    | _, _ => 0
  else if 0xD0500 ≤ off ∧ off < 0xD0520 then
    match finOf 16 ((off - 0xD0500) / 2) with
    | some r => s.epoch[r]
    | none => 0
  else if 0xD0520 ≤ off ∧ off < 0xD05A0 then s.fullWord ((off - 0xD0520) / 8) ((off - 0xD0520) % 8 / 2)
  else if 0xD0600 ≤ off ∧ off < 0xD0680 then
    match finOf 4 ((off - 0xD0600) / 32), off % 32 with
    | some n, 2 =>
      flag (s.hostWorks n) 0 ||| flag (s.host[n].link && s.hostWorks n) 1 ||| flag s.host[n].fenced 2 |||
        flag s.host[n].absent 3
    | some n, 0xA => s.irqPend (hostMaster n)
    | some _, w => if w = 0xE ∨ w = 0x12 then 0 else s.reg off
    | none, _ => 0
  else s.reg off

/-- A read of a register of the FLU_ block. -/
def State.fluRead (s : State) (m : Master) (off : Nat) : State × Word :=
  if off < 0xD0400 ∧ off % 16 = 0xC then
    match finOf 64 ((off - 0xD0000) / 16) with
    | some f => s.fluN2 m f
    | none => (s, 0)
  else (s, s.fluLive off)

/-! ## Commands -/

def execFluP0Write (m : Master) (f : Fin 64) (v : Word) (s : State) : Host.Outcome State Fault Refusal :=
  .next (s.alive fun s => s.writeCmd m (fluOff f.val + 4) (fun s => s.fluWrite m (fluOff f.val + 4) v))

def execFluP1Write (m : Master) (f : Fin 64) (v : Word) (s : State) : Host.Outcome State Fault Refusal :=
  .next (s.alive fun s => s.writeCmd m (fluOff f.val + 6) (fun s => s.fluWrite m (fluOff f.val + 6) v))

def execFluN2Read (m : Master) (f : Fin 64) (s : State) : Host.Outcome State Fault Refusal :=
  .next (s.alive fun s => s.readCmd m (fluOff f.val + 0xC) (fun s => s.fluN2 m f))

def execHostWdgExpiry (n : Fin 4) (s : State) : Host.Outcome State Fault Refusal :=
  .next (s.alive fun s => s.hostWdgExpiry n)

def execHostWdgKick (m : Master) (n : Fin 4) (_v : Word) (s : State) : Host.Outcome State Fault Refusal :=
  .next (s.alive fun s => s.writeCmd m (fluHost n.val + 0x12) (fun s => s.hostKick m n))

def execHostWdgTmoWrite (m : Master) (n : Fin 4) (v : Word) (s : State) : Host.Outcome State Fault Refusal :=
  .next (s.alive fun s => s.writeCmd m (fluHost n.val + 0x10) (fun s => s.hostWdgTmo n v))

def execIrqAck (m : Master) (n : Fin 4) (_v : Word) (s : State) : Host.Outcome State Fault Refusal :=
  .next (s.alive fun s => s.writeCmd m (fluHost n.val + 0xE) (fun s => s.irqAckWrite n))

end Sys2Proof.Machine
end

