-- ==== Sys2Proof/Machine/Stores.lean ====
section
/-! DEFINITION. The buffers of images: bank-held ones through the joiner's far-port accesses, local ones in the ring and
CAN stores (R22, R94, R189, R221). -/

namespace Sys2Proof.Machine

open Sys2Proof

/-- Change a ring channel, a CAN channel. -/
def State.mapRing (s : State) (c : ChanId) (f : RingChannel → RingChannel) : State := { s with ring := upd s.ring c f }
def State.mapCan (s : State) (c : CanId) (f : CanChannel → CanChannel) : State := { s with can := upd s.can c f }

/-- Where a byte of a local image lies: its store (0 and 1 ring, 2 to 7 CAN) and the key in it (R94, R189, R221). -/
def State.localKey (s : State) (i : Nat) (side : Bool) (k : Nat) : Nat :=
  let st := s.imgStore i
  let x := s.imgIndex i
  if st < 2 then b2n side * 16384 + s.rimgOfs st x + k
  else if x < 32 then b2n side * 4096 + 64 * x + k
  else b2n side * 4096 + 2048 + 64 * (x - 32) + k

/-- A byte of a local store. -/
def State.storeByte (s : State) (st key : Nat) : Byte :=
  if st = 0 then Sparse.get 0 s.ring[0].store key
  else if st = 1 then Sparse.get 0 s.ring[1].store key
  else match finOf 6 (st - 2) with
    | some c => Sparse.get 0 s.can[c].ram key
    | none => 0

/-- Write a byte of a local store. -/
def State.setStoreByte (s : State) (st key : Nat) (b : Byte) : State :=
  if st = 0 then s.mapRing 0 (fun r => { r with store := Sparse.set 0 r.store key b })
  else if st = 1 then s.mapRing 1 (fun r => { r with store := Sparse.set 0 r.store key b })
  else match finOf 6 (st - 2) with
    | some c => s.mapCan c (fun r => { r with ram := Sparse.set 0 r.ram key b })
    | none => s

/-- Write bytes of a local store from a key on. -/
def State.setStoreBytes (s : State) (st key : Nat) : List Byte → State
  | [] => s
  | b :: r => (s.setStoreByte st key b).setStoreBytes st (key + 1) r

/-- Bytes of a local store from a key on. -/
def State.storeBytes (s : State) (st key n : Nat) : List Byte := (List.range n).map (fun k => s.storeByte st (key + k))

/-- The bytes of an image's buffer as they lie in memory or in its store, without an access. -/
def State.bufferBytes (s : State) (i : Nat) (side : Bool) (n : Nat) : List Byte :=
  if s.imgLocal i then s.storeBytes (s.imgStore i) (s.localKey i side 0) n
  else Memory.bytes s.bank.mem (s.imgBase i side) n

/-- Read bytes of an image's buffer for a master; none where a bank access is answered with an error. -/
def State.readBuffer (s : State) (m : Master) (i : Nat) (side : Bool) (k n : Nat) : State × Option (List Byte) :=
  if s.imgLocal i then (s, some (s.storeBytes (s.imgStore i) (s.localKey i side k) n))
  else s.engineBytes m (s.imgBase i side + k) n

/-- Write one 16-bit word of bank memory under a mask: whole, or read and then written (R121). -/
def State.engineMasked (s : State) (m : Master) (a : Nat) (mask v : Word) : State × Bool :=
  if mask = 0xFFFF then
    match s.engineAccess m a .write false (some (fun _ => v)) with
    | (s, .ok _) => (s, true)
    | (s, _) => (s, false)
  else
    match s.engineAccess m a .read true none with
    | (s, .ok w) =>
      match s.engineAccess m a .write false (some (fun _ => merge mask w v)) with
      | (s, .ok _) => (s, true)
      | (s, _) => (s, false)
    | (s, _) => (s, false)

/-- Write words of bank memory in order, each under its mask, until one is answered with an error (R110). -/
def State.engineWords (s : State) (m : Master) : List (Nat × Word × Word) → State × Bool
  | [] => (s, true)
  | (a, mask, v) :: r =>
    match s.engineMasked m a mask v with
    | (s, true) => s.engineWords m r
    | (s, false) => (s, false)

/-- The image that a local store's index stands for, among those of the image table (R100). -/
def State.localImage (s : State) (st idx : Nat) : Option Nat :=
  s.imgIds.find? (fun i => s.imgLocal i && s.imgStore i == st && s.imgIndex i == idx && s.imgRole i != 0)

/-- A block's tail check makes its local intake image fresh with a length, as if it had been posted (R100). -/
def State.localFresh (s : State) (st idx len : Nat) : State :=
  match s.localImage st idx with
  | some i => s.mapJImage i (fun x => { x with filling := { fresh := true, lost := false, supplyInv := false, len := len } })
  | none => s

/-- A block reports its local intake image lost for the span (R100). -/
def State.localLost (s : State) (st idx : Nat) : State :=
  match s.localImage st idx with
  | some i => s.mapJImage i (fun x => { x with filling := { Span.reset with lost := true } })
  | none => s

end Sys2Proof.Machine
end

