-- ==== Sys2Proof/Machine/Requests.lean ====
section
/-! DEFINITION. Requests for a mode switch (R81 to R83, R205, R206) and the start of ticks (R88). -/

namespace Sys2Proof.Machine

open Sys2Proof

/-- A request is rejected (R80 to R82). -/
def State.rejectReq (s : State) : State := s.raise 0x20004 5

/-- Whether the node sees a vote open on a channel (R205). -/
def State.seesVreq (s : State) : Bool := s.ring.toList.any (fun r => r.vreq && r.st != .off && r.st != .master)

/-- What every request must meet: ticks run, none is pending, no vote is seen (R81, R82, R205). -/
def State.reqAllowed (s : State) : Bool := s.tick.running && s.tick.req.isNone && !s.seesVreq

/-- A request for a mode whose check fails (R80). -/
def State.badMode (s : State) : State := s.raise 0x20004 7

/-- A request for a local switch or a self-switch (R81 to R83). -/
def State.localReq (s : State) (mode : Fin 8) (delay : Nat) : State :=
  if !s.reqAllowed || decide (delay < 2) then s.rejectReq
  else if !s.modeOk mode.val then s.badMode.rejectReq
  else s.mapTick (fun t => { t with req := some { mode := mode, commit := some (t.tick + delay) } })

/-- The switch that a header with VGO announces for a tick (R206); a request that is pending stays (R82). -/
def State.vgoCommit (s : State) (mode : Fin 8) (tick : Nat) : State :=
  if !s.tick.running || s.tick.req.isSome then s
  else if !s.modeOk mode.val then s.badMode.rejectReq
  else s.mapTick (fun t => { t with req := some { mode := mode, commit := some tick } })

/-- TCK_CTRL.RUN = 1 while ticks are stopped: the mode is checked, and ticks start at the first boundary at least 8,192
beats on (R88). -/
def State.tckStart (s : State) (mode : Fin 8) : State :=
  if s.modeOk mode.val then s.mapTick (fun t => { t with starting := some (s.time.beat + 8192, mode) }) else s.badMode

/-- A write of TCK_CTRL (R88, R90). -/
def State.tckCtrl (s : State) (v : Word) : State :=
  let s := s.setReg 0x20000 (v &&& 0xF)
  if bit v 0 && !s.tick.running then s.tckStart (BitVec.ofNat 3 (fld v 1 3)).toFin else s

end Sys2Proof.Machine
end

