-- ==== Sys2Proof/Machine/Jig.lean ====
section
/-! DEFINITION. The jig array (09_jigs_and_legacy_lines.md): the jig instruction set, claims and pins, pace, windows and
gates, injection, and the JIG_ registers. -/

namespace Sys2Proof.Machine

open Sys2Proof

/-! ## Access -/

def State.mapJig (s : State) (j : JigId) (f : Jig → Jig) : State := { s with jig := upd s.jig j f }

/-- Offset of a jig's registers (R263). -/
def jigOff (j : Nat) : Nat := 0x80000 + 0x40 * j

def State.jigEvent (s : State) (j : JigId) (i : Nat) : State := s.raise (jigOff j.val + 4) i
def State.jigEventIf (s : State) (b : Bool) (j : JigId) (i : Nat) : State := s.raiseIf b (jigOff j.val + 4) i

/-- A jig runs (R241). -/
def Jig.running (x : Jig) : Bool := x.en && !x.halted && !x.clamped

/-- SEND_LSB and TAKE_LSB (R263). -/
def State.sendLsb (s : State) (j : JigId) : Bool := s.rbit (jigOff j.val) 2
def State.takeLsb (s : State) (j : JigId) : Bool := s.rbit (jigOff j.val) 3

/-- The byte of a line table entry (R263), and its pin, INV and EN. -/
def State.lineByte (s : State) (j l : Nat) : Nat := s.rfld (jigOff j + 0x34 + 2 * (l / 2)) (8 * (l % 2)) 8
def State.linePin (s : State) (j l : Nat) : Nat := s.lineByte j l % 64
def State.lineInv (s : State) (j l : Nat) : Bool := (s.lineByte j l).testBit 6
def State.lineEn (s : State) (j l : Nat) : Bool := (s.lineByte j l).testBit 7

/-- The level of a line as the jig senses it, where `gp` are the ball levels as seen under R242 (R245). -/
def State.lineLevel (s : State) (j l : Nat) (gp : BitVec 64) : Bool := gp.getLsbD (s.linePin j l) != s.lineInv j l

/-- A jig's claim of a pin (R243). -/
def State.claims (s : State) (j k : Nat) : Bool := s.rbit (jigOff j + 0x2C + 2 * (k / 16)) (k % 16)
def State.claimOverlap (s : State) (i j : Nat) : Bool :=
  (List.range 4).any (fun k => s.reg (jigOff i + 0x2C + 2 * k) &&& s.reg (jigOff j + 0x2C + 2 * k) != 0)

/-! ## Windows, gates and pins (R241, R252, R253) -/

def State.jigOpen (s : State) (j : Nat) : Nat := s.tick.tBeat + s.jigStart s.tick.mode.val j
def State.jigClose (s : State) (j : Nat) : Nat := s.jigOpen j + s.jigLen s.tick.mode.val j
def State.jigKerfNow (s : State) : Nat := s.jigKerf s.tick.mode.val

/-- ROOM (R253). -/
def State.jigRoom (s : State) (j : JigId) : Bool :=
  s.tick.running && decide (s.jigOpen j.val ≤ s.time.beat) && decide (s.time.beat < s.jigClose j.val) &&
  decide (s.time.beat + 16 * s.jig[j].ct.toNat + s.jigKerfNow ≤ s.jigClose j.val)

/-- GATE and IDLE of a pin (R263). -/
def State.pinGate (s : State) (k : Nat) : Bool := s.rbit (0x80800 + 2 * k) 2
def State.pinIdle (s : State) (k : Nat) : Drive :=
  match s.rfld (0x80800 + 2 * k) 0 2 with
  | 1 => .low
  | 2 => .high
  | _ => .hiZ

/-- The line of a jig that drives a pin: the lowest enabled one that names it with its drive on (R245). -/
def State.drivingLine (s : State) (j : JigId) (k : Nat) : Option (Fin 8) :=
  match (finList 8).find? (fun l => s.lineEn j.val l.val && s.linePin j.val l.val == k) with
  | some l => if s.jig[j].lines[l].on then some l else none
  | none => none

/-- What the device drives on a general-purpose ball (R241, R252). -/
def State.pinDrive (s : State) (k : Nat) : Drive :=
  match (finList 32).find? (fun j => s.claims j.val k && s.jig[j].running) with
  | some j =>
    if s.pinGate k && !s.jig[j].gateOpen then s.pinIdle k
    else match s.drivingLine j k with
      | some l => if s.jig[j].lines[l].level != s.lineInv j.val l.val then .high else .low
      | none => .hiZ
  | none => if (finList 32).any (fun j => s.claims j.val k) then s.pinIdle k else .hiZ

/-- GATE_CUT where the jig would drive a pin that its gate holds (R252). -/
def State.gateCheck (s : State) (j : JigId) : State :=
  let cut := s.jig[j].running && !s.jig[j].gateOpen &&
    (List.range 64).any (fun k => s.claims j.val k && s.pinGate k && (s.drivingLine j k).isSome)
  s.jigEventIf cut j 7

/-- JIG_GATE: the gate of a window opens at T + START, and closes at C − K (R252). -/
def State.jigGateCmd (s : State) (j : JigId) : State :=
  let cutAt := s.jigClose j.val - s.jigKerfNow
  if !s.tick.running then s
  else if s.jig[j].gateOpen then ((s.until cutAt).mapJig j (fun x => { x with gateOpen := false })).gateCheck j
  else if s.jigLen s.tick.mode.val j.val != 0 && decide (max s.time.beat (s.jigOpen j.val) < cutAt) then
    (s.until (s.jigOpen j.val)).mapJig j (fun x => { x with gateOpen := true })
  else s

/-! ## Instructions (R245 to R247) -/

/-- The kinds of instruction. -/
inductive JKind where
  | goto | loop | hold | drive | send | take | load | store | delay | at' | pace | ldi | xfr | evt | nop | halt | illegal
  deriving DecidableEq, Repr

/-- The fields of an instruction that must be 0 are 0 (R245). -/
def jigFieldsOk (w : Word) : Bool :=
  match fld w 12 4 with
  | 0x1 => fld w 6 6 == 0
  | 0x2 => fld w 9 1 == 0 && fld w 0 6 == 0
  | 0x3 => fld w 11 1 == 0 && fld w 2 6 == 0
  | 0x4 => fld w 4 3 == 0
  | 0x5 => fld w 4 3 == 0
  | 0x6 => fld w 0 12 == 0
  | 0x7 => fld w 2 10 == 0
  | 0x9 => fld w 0 10 == 0
  | 0xA => fld w 0 11 == 0
  | 0xC => fld w 0 4 == 0
  | 0xD => fld w 0 12 == 0
  | 0xF => fld w 1 11 == 0
  | _ => true

/-- The line that an instruction needs enabled (R247). -/
def jigLine (w : Word) : Option Nat :=
  match fld w 12 4 with
  | 0x0 => if fld w 9 3 = 1 ∨ fld w 9 3 = 2 then some (fld w 6 3) else none
  | 0x2 => some (fld w 6 3)
  | 0x3 => some (fld w 8 3)
  | 0x4 => some (fld w 8 3)
  | 0x5 => some (fld w 8 3)
  | _ => none

/-- The kind of an instruction word of a jig (R245, R247). -/
def State.jigKind (s : State) (j : JigId) (w : Word) : JKind :=
  let lineOk := match jigLine w with
    | some l => s.lineEn j.val l
    | none => true
  if !jigFieldsOk w || !lineOk then .illegal
  else match fld w 12 4 with
    | 0x0 => .goto
    | 0x1 => .loop
    | 0x2 => .hold
    | 0x3 => .drive
    | 0x4 => if bit w 11 && !bit w 7 then .illegal else .send
    | 0x5 => if bit w 11 && !bit w 7 then .illegal else .take
    | 0x6 => .load
    | 0x7 => .store
    | 0x8 => .delay
    | 0x9 => .at'
    | 0xA => .pace
    | 0xB => .ldi
    | 0xC => if 2 < fld w 9 3 ∨ 5 < fld w 6 3 ∨ 2 < fld w 4 2 then .illegal else .xfr
    | 0xD => .evt
    | 0xE => .illegal
    | _ => if bit w 0 then .halt else .nop

/-- The instruction that a jig executes next: a pending injection, else the word at PC (R255). -/
def State.jigWord (s : State) (j : JigId) : Word :=
  match s.jig[j].inj with
  | some w => w
  | none => s.reg (0x81000 + 0x80 * j.val + 2 * s.jig[j].pc.toNat)

/-- A jig executes its next instruction if it runs, is not stalled, and that instruction is of a kind. -/
def State.jigDo (s : State) (j : JigId) (k : JKind) (act : State → Word → State) : State :=
  let x := s.jig[j]
  if x.running && x.stall.isNone then
    let w := s.jigWord j
    if s.jigKind j w = k then act (s.mapJig j (fun x => { x with inj := none, stallInj := x.inj.isSome })) w else s
  else s

/-- An instruction that does not jump ends: PC advances unless it was injected (R247, R255). -/
def Jig.done (x : Jig) : Jig :=
  { x with stall := none, stallInj := false, pc := if x.stallInj then x.pc else x.pc + 1 }
def State.jigDone (s : State) (j : JigId) : State := s.mapJig j Jig.done

/-- A jump (R247). -/
def State.jigJump (s : State) (j : JigId) (a : Nat) : State :=
  s.mapJig j (fun x => { x with stall := none, stallInj := false, pc := BitVec.ofNat 6 a })

/-- An instruction stalls. -/
def State.jigStall (s : State) (j : JigId) (st : JStall) : State := s.mapJig j (fun x => { x with stall := some st })

/-- GOTO (R246). -/
def State.jigGoto (s : State) (j : JigId) (gp : BitVec 64) (w : Word) : State :=
  let x := s.jig[j]
  let level := s.lineLevel j.val (fld w 6 3) gp
  let holds := match fld w 9 3 with
    | 0 => true
    | 1 => level
    | 2 => !level
    | 3 => !x.txFull
    | 4 => x.rxFull
    | 5 => s.jigRoom j
    | 6 => x.ct == 0
    | _ => x.ct != 0
  if holds then s.jigJump j (fld w 0 6) else s.jigDone j

/-- LOOP (R246). -/
def State.jigLoop (s : State) (j : JigId) (w : Word) : State :=
  if s.jig[j].ct = 0 then s.jigDone j
  else (s.mapJig j (fun x => { x with ct := x.ct - 1 })).jigJump j (fld w 0 6)

/-- HOLD issues (R245). -/
def State.jigHold (s : State) (j : JigId) (gp : BitVec 64) (w : Word) : State :=
  let line : Fin 8 := (BitVec.ofNat 3 (fld w 6 3)).toFin
  let at' := s.lineLevel j.val line.val gp == bit w 11
  if at' && !bit w 10 then s.jigDone j else s.jigStall j (.hold line (bit w 11) (bit w 10) (!at'))

/-- A beat of a stalled HOLD with the levels seen in it (R245). -/
def State.jigHoldSee (s : State) (j : JigId) (gp : BitVec 64) : State :=
  match s.jig[j].stall with
  | some (.hold line level edge saw) =>
    let at' := s.lineLevel j.val line.val gp == level
    if at' && (!edge || saw) then s.jigDone j else s.jigStall j (.hold line level edge (saw || !at'))
  | _ => s

/-- A drive of a line to a level; outside the jig's own claim it is suppressed, and a pin of another jig's claim clamps
the jig (R244, R245). -/
def State.lineDrive (s : State) (j : JigId) (l : Fin 8) (level : Bool) : State :=
  let pin := s.linePin j.val l.val
  if s.claims j.val pin then
    (s.mapJig j (fun x => { x with lines := upd x.lines l (fun _ => { on := true, level := level }) })).gateCheck j
  else
    let s := s.jigEvent j 6
    if (List.range 32).any (fun i => i != j.val && s.claims i pin) then s.clampJig j 9 else s

/-- End an instruction unless the jig has been clamped in it (R260). -/
def State.jigDoneUnlessClamped (s : State) (j : JigId) : State := if s.jig[j].clamped then s else s.jigDone j

/-- DRIVE (R245). -/
def State.jigDrive (s : State) (j : JigId) (w : Word) : State :=
  let l : Fin 8 := (BitVec.ofNat 3 (fld w 8 3)).toFin
  let x := s.jig[j].lines[l]
  match fld w 0 2 with
  | 0 => (s.lineDrive j l false).jigDoneUnlessClamped j
  | 1 => (s.lineDrive j l true).jigDoneUnlessClamped j
  | 2 => (s.mapJig j (fun y => { y with lines := upd y.lines l (fun z => { z with on := false }) })).jigDone j
  | _ => (s.lineDrive j l (!x.level)).jigDoneUnlessClamped j

/-! ## Shifts and pace (R248, R251) -/

/-- The bit that SEND takes next, and SR after it. -/
def sendBit (lsb : Bool) (sr : Word) : Bool × Word := if lsb then (bit sr 0, sr >>> 1) else (bit sr 15, sr <<< 1)

/-- SR after TAKE has entered a bit. -/
def takeBit (lsb : Bool) (sr : Word) (b : Bool) : Word := if lsb then (sr >>> 1) ||| flag b 15 else (sr <<< 1) ||| flag b 0

/-- SEND drives and takes one bit; nothing more happens once the jig is clamped. -/
def State.sendOne (s : State) (j : JigId) (l : Fin 8) : State :=
  if s.jig[j].clamped then s
  else
    let r := sendBit (s.sendLsb j) s.jig[j].sr
    (s.mapJig j (fun x => { x with sr := r.2, shiftDone := x.shiftDone + 1 })).lineDrive j l r.1

/-- TAKE enters one sample. -/
def State.takeOne (s : State) (j : JigId) (b : Bool) : State :=
  s.mapJig j (fun x => { x with sr := takeBit (s.takeLsb j) x.sr b, shiftDone := x.shiftDone + 1 })

/-- The beat of pace step i (R251). -/
def Jig.stepBeat (x : Jig) (i : Nat) : Nat := x.paceOrigin + i * x.pacePeriod / 65536

/-- Pace steps up to the present beat that nothing waited for are missed (R251). -/
def State.paceCatchUp (s : State) (j : JigId) : State :=
  let x := s.jig[j]
  let next := max x.paceStep (ceilDiv ((s.time.beat + 1 - x.paceOrigin) * 65536) x.pacePeriod)
  (s.mapJig j (fun x => { x with paceStep := next })).jigEventIf (decide (x.paceStep < next)) j 9

/-- The pace generator starts anew with step 0 in the present beat (R251, R258). -/
def State.paceStart (s : State) (j : JigId) : State :=
  let p := max 65536 (s.pair (jigOff j.val + 0xC))
  (s.paceCatchUp j).mapJig j (fun x => { x with paceOrigin := s.time.beat, pacePeriod := p, paceStep := 1 })

/-- SEND and TAKE issue: unpaced bits all move, a paced shift waits for its steps (R248). -/
def State.jigShift (s : State) (j : JigId) (send : Bool) (samples : BitVec 16) (w : Word) : State :=
  let l : Fin 8 := (BitVec.ofNat 3 (fld w 8 3)).toFin
  let n := fld w 0 4 + 1
  let s := s.mapJig j (fun x => { x with shiftDone := 0 })
  if bit w 7 then (s.paceCatchUp j).jigStall j (.shift send (bit w 11) l n none)
  else
    let s := (List.range n).foldl (fun (s : State) k =>
      if send then s.sendOne j l else s.takeOne j (samples.getLsbD k != s.lineInv j.val l.val)) s
    s.jigDoneUnlessClamped j

/-- One pace step of a paced shift (R248). -/
def State.shiftStep (s : State) (j : JigId) (gp : BitVec 64) (send man : Bool) (l : Fin 8) (left : Nat)
    (half : Option Bool) : State :=
  let level := s.lineLevel j.val l.val gp
  let next := fun (s : State) =>
    if s.jig[j].clamped then s
    else if left ≤ 1 then s.jigDone j else s.jigStall j (.shift send man l (left - 1) none)
  if man then
    match half with
    | none =>
      if send then
        let s := s.lineDrive j l (!(sendBit (s.sendLsb j) s.jig[j].sr).1)
        if s.jig[j].clamped then s else s.jigStall j (.shift send man l left (some false))
      else s.jigStall j (.shift send man l left (some level))
    | some first =>
      if send then next (s.sendOne j l)
      else next ((s.takeOne j level).jigEventIf (first == level) j 13)
  else if send then next (s.sendOne j l)
  else next (s.takeOne j level)

/-- PACE_STEP: the next step of a jig's pace (R251). -/
def State.paceStepCmd (s : State) (j : JigId) (gp : BitVec 64) : State :=
  let x := s.jig[j]
  let s := { s.until (x.stepBeat x.paceStep) with gp := gp }
  let s := s.mapJig j (fun x => { x with paceStep := x.paceStep + 1 })
  match x.stall with
  | some .pace => s.jigDone j
  | some (.shift send man l left half) => s.shiftStep j gp send man l left half
  | _ => s.jigEvent j 9

/-- PACE (R251). -/
def State.jigPace (s : State) (j : JigId) (w : Word) : State :=
  if bit w 11 then (s.paceStart j).jigDone j else (s.paceCatchUp j).jigStall j .pace

/-! ## Words and waits (R249, R250) -/

/-- LOAD takes the TX word. -/
def State.loadWord (s : State) (j : JigId) : State :=
  (s.mapJig j (fun x => { x with sr := x.tx, txFull := false })).jigDone j

/-- STORE fills the RX word. -/
def State.storeWord (s : State) (j : JigId) (clr : Bool) : State :=
  (s.mapJig j (fun x => { x with rx := x.sr, rxFull := true, sr := if clr then 0 else x.sr })).jigDone j

def State.jigLoad (s : State) (j : JigId) : State := if s.jig[j].txFull then s.loadWord j else s.jigStall j .load

def State.jigStore (s : State) (j : JigId) (w : Word) : State :=
  if !s.jig[j].rxFull then s.storeWord j (bit w 0)
  else if bit w 1 then
    ((s.mapJig j (fun x => { x with sr := if bit w 0 then 0 else x.sr })).jigEvent j 3).jigDone j
  else s.jigStall j (.store (bit w 0))

/-- A stalled LOAD or STORE whose word has become available (R249). -/
def State.jigWordEnd (s : State) (j : JigId) : State :=
  match s.jig[j].stall with
  | some .load => if s.jig[j].txFull then s.loadWord j else s
  | some (.store clr) => if s.jig[j].rxFull then s else s.storeWord j clr
  | _ => s

/-- DELAY (R245). -/
def State.jigDelay (s : State) (j : JigId) (w : Word) : State :=
  let n := if bit w 11 then s.jig[j].ct.toNat else fld w 0 11
  if n ≤ 1 then s.jigDone j else s.jigStall j (.delay (s.time.beat + n))

def State.jigDelayEnd (s : State) (j : JigId) : State :=
  match s.jig[j].stall with
  | some (.delay e) => (s.until e).jigDone j
  | _ => s

/-- AT (R250). -/
def State.jigAt (s : State) (j : JigId) (w : Word) : State :=
  let timed := fun (s : State) =>
    let t := s.jig[j].at'.toNat
    if t ≤ s.time.beat then (s.jigEvent j 1).jigDone j else s.jigStall j (.at t)
  match fld w 10 2 with
  | 0 => timed s
  | 1 => s.jigStall j .atStrike
  | 2 => s.jigStall j .atTick
  | _ => timed (s.mapJig j (fun x => { x with at' := x.at' + x.ct.zeroExtend 64 }))

def State.jigAtEnd (s : State) (j : JigId) : State :=
  match s.jig[j].stall with
  | some (.at t) => (s.until t).jigDone j
  | _ => s

/-- Jigs that wait for the strike, or for the tick start (R250). -/
def State.jigWake (s : State) (st : JStall) : State :=
  (finList 32).foldl (fun (s : State) j => if s.jig[j].stall == some st then s.jigDone j else s) s

/-- LDI (R245). -/
def State.jigLdi (s : State) (j : JigId) (w : Word) : State :=
  let put := fun (old : Word) => if bit w 10 then setFld old 6 10 (fld w 0 10) else w &&& 0x3FF
  (s.mapJig j (fun x => if bit w 11 then { x with sr := put x.sr } else { x with ct := put x.ct })).jigDone j

/-- XFR (R245). -/
def State.jigXfr (s : State) (j : JigId) (gp : BitVec 64) (w : Word) : State :=
  let x := s.jig[j]
  let v : Word := match fld w 6 3 with
    | 0 => x.ct
    | 1 => x.sr
    | 2 => wordOf s.time.beat 0
    | 3 => BitVec.ofNat 16 x.shiftDone
    | 4 => (List.range 8).foldl (fun (y : Word) l => y ||| flag (s.lineEn j.val l && s.lineLevel j.val l gp) l) 0
    | _ => 0
  let v := match fld w 4 2 with
    | 0 => v
    | 1 => ~~~v
    | _ => v.rotateLeft 8
  match fld w 9 3 with
  | 0 => (s.mapJig j (fun x => { x with ct := v })).jigDone j
  | 1 => (s.mapJig j (fun x => { x with sr := v })).jigDone j
  | _ => s.jigJump j (v.toNat % 64)

/-- HALT, and what an illegal instruction does beside ILL (R245, R247). -/
def State.jigHalt (s : State) (j : JigId) : State := (s.jigDone j).mapJig j (fun x => { x with halted := true })

/-! ## Injection, forcing, enabling (R255 to R259) -/

/-- A stalled instruction is aborted: LOAD, STORE and HOLD leave no effect, the others leave PC past them (R256). -/
def State.jigAbort (s : State) (j : JigId) : State :=
  match s.jig[j].stall with
  | none => s
  | some (.hold ..) => s.mapJig j (fun x => { x with stall := none, stallInj := false })
  | some .load => s.mapJig j (fun x => { x with stall := none, stallInj := false })
  | some (.store _) => s.mapJig j (fun x => { x with stall := none, stallInj := false })
  | some _ => s.jigDone j

/-- Complete a stalled instruction that ends in the present beat anyway (R259). -/
def State.jigEndsNow (s : State) (j : JigId) : State :=
  match s.jig[j].stall with
  | some (.delay e) => if e ≤ s.time.beat then s.jigDone j else s
  | some (.at t) => if t ≤ s.time.beat then s.jigDone j else s
  | _ => s.jigWordEnd j

/-- INJECT (R255). -/
def State.jigInject (s : State) (j : JigId) (v : Word) : State :=
  if !s.jig[j].en || s.jig[j].inj.isSome then s.jigEvent j 5 else s.mapJig j (fun x => { x with inj := some v })

/-- FORCE (R256, R259). -/
def State.jigForce (s : State) (j : JigId) (v : Word) : State :=
  if !s.jig[j].en then s.jigEvent j 5
  else
    let s := s.jigEventIf s.jig[j].inj.isSome j 5
    let s := s.jigEndsNow j
    let s := if s.jig[j].stall.isSome then (s.jigAbort j).jigEvent j 8 else s
    s.mapJig j (fun x => { x with inj := some v })

/-- RST of a stopped jig (R258). -/
def State.jigReset (s : State) (j : JigId) : State :=
  (s.mapJig j (fun x => { x with
    pc := 0, sr := 0, ct := 0, txFull := false, rxFull := false, shiftDone := 0
    lines := x.lines.map (fun l => { l with on := false }) })).paceStart j

/-- EN 0 to 1: the claim check, then the jig runs (R243, R258). -/
def State.jigStartUp (s : State) (j : JigId) : State :=
  if s.jig[j].clamped then s
  else if (finList 32).any (fun i => i != j && (s.jig[i].running || s.jig[i].clamped) && s.claimOverlap i.val j.val) then
    (s.jigEvent j 11).clampJig j 8
  else (s.mapJig j (fun x => { x with en := true, halted := false })).gateCheck j

/-- EN 1 to 0 (R258). -/
def State.jigStop (s : State) (j : JigId) : State :=
  let s := s.jigEventIf s.jig[j].inj.isSome j 5
  (s.jigAbort j).mapJig j (fun x => { x with en := false, halted := false, inj := none })

/-- A write of JIG_j_CTRL (R258). -/
def State.jigCtrl (s : State) (j : JigId) (v : Word) : State :=
  let was := s.jig[j].en
  let s := s.setReg (jigOff j.val) (v &&& 0x1FC)
  let s := if bit v 1 then (if was then s.jigEvent j 12 else s.jigReset j) else s
  if bit v 0 && !was then s.jigStartUp j else if !bit v 0 && was then s.jigStop j else s

/-- A write of the TX word (R249): for a hearth at JIG_j_TX a full word is a wait, which the flag tells. -/
def State.jigTxPut (s : State) (hearth : Bool) (j : JigId) (v : Word) : State × Bool :=
  if !s.jig[j].txFull then (s.mapJig j (fun x => { x with tx := v, txFull := true }), false)
  else if hearth then (s, true)
  else (s.jigEvent j 2, false)

/-- A read of the RX word (R249). -/
def State.jigRxGet (s : State) (hearth : Bool) (j : JigId) : State × Word × Bool :=
  if s.jig[j].rxFull then (s.mapJig j (fun x => { x with rxFull := false }), s.jig[j].rx, false)
  else if hearth then (s, 0, true)
  else (s.jigEvent j 4, 0, false)

/-- A write of JIG_j_TX as a command of a master; a hearth stalls on a full word. -/
def State.jigTxCmd (s : State) (m : Master) (j : JigId) (v : Word) : State :=
  let r := s.jigTxPut (hearthOf m).isSome j v
  match hearthOf m, r.2 with
  | some h, true => r.1.mapHearth h (fun x => { x with stall := some (.jigTx j v false) })
  | _, _ => r.1

/-- A read of JIG_j_RX as a command of a master. -/
def State.jigRxCmd (s : State) (m : Master) (j : JigId) : State × Word :=
  let r := s.jigRxGet (hearthOf m).isSome j
  match hearthOf m, r.2.2 with
  | some h, true => (r.1.mapHearth h (fun x => { x with stall := some (.jigRx j false) }), 0)
  | _, _ => (r.1, r.2.1)

/-- A write of JIG_j_AT3 (R250). -/
def State.jigAt3 (s : State) (j : JigId) (v : Word) : State :=
  s.mapJig j (fun x => { x with at' := v ++ x.atHeld[2] ++ x.atHeld[1] ++ x.atHeld[0] })

/-- The shadow kerf at a switch (R84, R254). -/
def State.jigShadow (s : State) (m : Nat) : State :=
  let v := s.reg (jkerfOff m + 2)
  if bit v 15 then
    let s := s.setReg (jkerfOff m + 2) (v &&& 0x7FFF)
    if s.jigModeOkK m (fld v 0 15) then s.setReg (jkerfOff m) (v &&& 0x7FFF) else s.badMode
  else s

/-- T+0 in the jig array: jigs that wait for it go on, every gate is closed until its window opens. -/
def State.jigTick (s : State) : State :=
  let s := s.jigWake .atTick
  (finList 32).foldl (fun (s : State) j => s.mapJig j (fun x => { x with gateOpen := false })) s

/-! ## Registers (R263) -/

def jigSpecs : List RegSpec :=
  [{ base := 0x80004, rw := 0, w1c := 0x3FFF, n := 32, stride := 0x40 }, { base := 0x80006, rw := 0x3FFF, n := 32, stride := 0x40 },
   { base := 0x8000C, pair := true, n := 32, stride := 0x40 }, { base := 0x8002C, n := 4, m := 32, outer := 0x40 },
   { base := 0x80034, n := 4, m := 32, outer := 0x40 }, { base := 0x80800, rw := 7, n := 64 }, { base := 0x81000, n := 2048 },
   { base := 0x82000, pair := true, stride := 4, n := 512 }, { base := 0x82800, rw := 0x7FFF, stride := 4, n := 8 },
   { base := 0x82802, stride := 4, n := 8 }]

/-- A write to a register of jig j at offset `o`. -/
def State.jigRegWrite (s : State) (m : Master) (j : JigId) (o : Nat) (v : Word) : State :=
  let locked := s.jig[j].en
  if o = 0 then s.jigCtrl j v
  else if o = 8 then (if locked then s.jigEvent j 12 else s.mapJig j (fun x => { x with ct := v }))
  else if 0x10 ≤ o ∧ o < 0x16 then
    match finOf 3 ((o - 0x10) / 2) with
    | some k => s.mapJig j (fun x => { x with atHeld := upd x.atHeld k (fun _ => v) })
    | none => s
  else if o = 0x16 then s.jigAt3 j v
  else if o = 0x18 then s.jigTxCmd m j v
  else if o = 0x1A then (s.jigTxPut false j v).1
  else if o = 0x20 then s.jigInject j v
  else if o = 0x22 then s.jigForce j v
  else if 0x2C ≤ o ∧ o < 0x3C ∧ locked then s.jigEvent j 12
  else (s.tableWrite jigSpecs m (jigOff j.val + o) v).gateCheck j

/-- CLAMPED_LO and _HI are a pair (R12). -/
def jigReadSpecs : List RegSpec := { base := 0x80888, rw := 0, pair := true } :: jigSpecs

/-- A write to a register of the JIG_ block. -/
def State.jigWrite (s : State) (m : Master) (off : Nat) (v : Word) : State :=
  if off < 0x80800 then
    match finOf 32 ((off - 0x80000) / 0x40) with
    | some j => s.jigRegWrite m j ((off - 0x80000) % 0x40) v
    | none => s
  else if 0x82000 ≤ off ∧ off < 0x82800 ∧ off % 4 = 2 then
    s.modeTable ((off - 0x82000) / 0x100) (fun s => s.tableWrite jigSpecs m off v)
  else if 0x82800 ≤ off ∧ off < 0x82820 ∧ off % 4 = 0 then
    s.modeTable ((off - 0x82800) / 4) (fun s => s.tableWrite jigSpecs m off v)
  else s.tableWrite jigReadSpecs m off v

/-- STALL_KIND of a stall (R263). -/
def JStall.kind : JStall → Nat
  | .hold .. => 1
  | .delay _ => 2
  | .at _ => 3
  | .atStrike => 3
  | .atTick => 3
  | .pace => 4
  | .load => 5
  | .store _ => 6
  | .shift .. => 7

/-- The registers of the JIG_ block as they read at present. -/
def State.jigLive (s : State) (off : Nat) : Word :=
  if off < 0x80800 then
    match finOf 32 ((off - 0x80000) / 0x40) with
    | some j =>
      let x := s.jig[j]
      let o := (off - 0x80000) % 0x40
      if o = 0 then s.reg off ||| flag x.en 0
      else if o = 2 then
        BitVec.ofNat 16 x.pc.toNat ||| flag x.running 6 ||| flag x.stall.isSome 7 |||
          BitVec.ofNat 16 ((x.stall.map JStall.kind).getD 0 * 256) ||| flag x.txFull 11 ||| flag x.rxFull 12 |||
          flag x.inj.isSome 13 ||| flag x.clamped 14
      else if o = 8 then x.ct
      else if 0x10 ≤ o ∧ o < 0x18 then wordOf x.at'.toNat ((o - 0x10) / 2)
      else if o = 0x24 then BitVec.ofNat 16 x.shiftDone
      else if o = 0x26 then x.sr
      else if 0x18 ≤ o ∧ o < 0x24 then 0
      else s.reg off
    | none => 0
  else if 0x80880 ≤ off ∧ off < 0x80888 then wordOf s.gp.toNat ((off - 0x80880) / 2)
  else if off = 0x80888 ∨ off = 0x8088A then
    (List.range 16).foldl (fun (w : Word) i => match finOf 32 (i + 8 * (off - 0x80888)) with
      | some j => w ||| flag s.jig[j].clamped i
      | none => w) 0
  else s.reg off

/-- A read of a register of the JIG_ block. -/
def State.jigRead (s : State) (m : Master) (off : Nat) : State × Word :=
  if off < 0x80800 ∧ off % 0x40 = 0x1C then
    match finOf 32 ((off - 0x80000) / 0x40) with
    | some j => s.jigRxCmd m j
    | none => (s, 0)
  else if off < 0x80800 ∧ off % 0x40 = 0x1E then
    match finOf 32 ((off - 0x80000) / 0x40) with
    | some j => let r := s.jigRxGet false j; (r.1, r.2.1)
    | none => (s, 0)
  else s.tableRead jigReadSpecs State.jigLive m off

/-! ## Commands -/

/-- The ball levels that a command has seen. -/
def State.seeGp (s : State) (gp : BitVec 64) : State := { s with gp := gp }

def execJigGoto (j : JigId) (gp : BitVec 64) (s : State) : Host.Outcome State Fault Refusal :=
  .next (s.alive fun s => (s.seeGp gp).jigDo j .goto (fun s w => s.jigGoto j gp w))

def execJigLoop (j : JigId) (s : State) : Host.Outcome State Fault Refusal :=
  .next (s.alive fun s => s.jigDo j .loop (fun s w => s.jigLoop j w))

def execJigHold (j : JigId) (gp : BitVec 64) (s : State) : Host.Outcome State Fault Refusal :=
  .next (s.alive fun s => (s.seeGp gp).jigDo j .hold (fun s w => s.jigHold j gp w))

def execJigHoldRelease (j : JigId) (gp : BitVec 64) (s : State) : Host.Outcome State Fault Refusal :=
  .next (s.alive fun s => (s.seeGp gp).jigHoldSee j gp)

def execJigDrive (j : JigId) (s : State) : Host.Outcome State Fault Refusal :=
  .next (s.alive fun s => s.jigDo j .drive (fun s w => s.jigDrive j w))

def execJigSend (j : JigId) (s : State) : Host.Outcome State Fault Refusal :=
  .next (s.alive fun s => s.jigDo j .send (fun s w => s.jigShift j true 0 w))

def execJigTake (j : JigId) (samples : BitVec 16) (s : State) : Host.Outcome State Fault Refusal :=
  .next (s.alive fun s => s.jigDo j .take (fun s w => s.jigShift j false samples w))

def execPaceStep (j : JigId) (gp : BitVec 64) (s : State) : Host.Outcome State Fault Refusal :=
  .next (s.alive fun s => s.paceStepCmd j gp)

def execJigLoad (j : JigId) (s : State) : Host.Outcome State Fault Refusal :=
  .next (s.alive fun s => s.jigDo j .load (fun s _ => s.jigLoad j))

def execJigStore (j : JigId) (s : State) : Host.Outcome State Fault Refusal :=
  .next (s.alive fun s => s.jigDo j .store (fun s w => s.jigStore j w))

def execJigWordStallEnd (j : JigId) (s : State) : Host.Outcome State Fault Refusal :=
  .next (s.alive fun s => s.jigWordEnd j)

def execJigDelay (j : JigId) (s : State) : Host.Outcome State Fault Refusal :=
  .next (s.alive fun s => s.jigDo j .delay (fun s w => s.jigDelay j w))

def execJigDelayEnd (j : JigId) (s : State) : Host.Outcome State Fault Refusal :=
  .next (s.alive fun s => s.jigDelayEnd j)

def execJigAt (j : JigId) (s : State) : Host.Outcome State Fault Refusal :=
  .next (s.alive fun s => s.jigDo j .at' (fun s w => s.jigAt j w))

def execJigAtTarget (j : JigId) (s : State) : Host.Outcome State Fault Refusal := .next (s.alive fun s => s.jigAtEnd j)

def execJigPace (j : JigId) (s : State) : Host.Outcome State Fault Refusal :=
  .next (s.alive fun s => s.jigDo j .pace (fun s w => s.jigPace j w))

def execJigLdi (j : JigId) (s : State) : Host.Outcome State Fault Refusal :=
  .next (s.alive fun s => s.jigDo j .ldi (fun s w => s.jigLdi j w))

def execJigXfr (j : JigId) (gp : BitVec 64) (s : State) : Host.Outcome State Fault Refusal :=
  .next (s.alive fun s => (s.seeGp gp).jigDo j .xfr (fun s w => s.jigXfr j gp w))

def execJigEvt (j : JigId) (s : State) : Host.Outcome State Fault Refusal :=
  .next (s.alive fun s => s.jigDo j .evt (fun s _ => (s.jigEvent j 0).jigDone j))

def execJigNop (j : JigId) (s : State) : Host.Outcome State Fault Refusal :=
  .next (s.alive fun s => s.jigDo j .nop (fun s _ => s.jigDone j))

def execJigHalt (j : JigId) (s : State) : Host.Outcome State Fault Refusal :=
  .next (s.alive fun s => s.jigDo j .halt (fun s _ => s.jigHalt j))

def execJigIllegal (j : JigId) (s : State) : Host.Outcome State Fault Refusal :=
  .next (s.alive fun s => s.jigDo j .illegal (fun s _ => (s.jigEvent j 10).jigHalt j))

def execJigTxWrite (m : Master) (j : JigId) (v : Word) (s : State) : Host.Outcome State Fault Refusal :=
  .next (s.alive fun s => s.writeCmd m (jigOff j.val + 0x18) (fun s => s.jigTxCmd m j v))

def execJigTxnbWrite (m : Master) (j : JigId) (v : Word) (s : State) : Host.Outcome State Fault Refusal :=
  .next (s.alive fun s => s.writeCmd m (jigOff j.val + 0x1A) (fun s => (s.jigTxPut false j v).1))

def execJigRxRead (m : Master) (j : JigId) (s : State) : Host.Outcome State Fault Refusal :=
  .next (s.alive fun s => s.readCmd m (jigOff j.val + 0x1C) (fun s => s.jigRxCmd m j))

def execJigRxnbRead (m : Master) (j : JigId) (s : State) : Host.Outcome State Fault Refusal :=
  .next (s.alive fun s =>
    s.readCmd m (jigOff j.val + 0x1E) (fun s => ((s.jigRxGet false j).1, (s.jigRxGet false j).2.1)))

def execJigInject (m : Master) (j : JigId) (v : Word) (s : State) : Host.Outcome State Fault Refusal :=
  .next (s.alive fun s => s.writeCmd m (jigOff j.val + 0x20) (fun s => s.jigInject j v))

def execJigForce (m : Master) (j : JigId) (v : Word) (s : State) : Host.Outcome State Fault Refusal :=
  .next (s.alive fun s => s.writeCmd m (jigOff j.val + 0x22) (fun s => s.jigForce j v))

def execJigEnable (m : Master) (j : JigId) (s : State) : Host.Outcome State Fault Refusal :=
  .next (s.alive fun s => s.writeCmd m (jigOff j.val) (fun s => s.jigCtrl j (s.jigLive (jigOff j.val) &&& 0x1FD ||| 1)))

def execJigDisable (m : Master) (j : JigId) (s : State) : Host.Outcome State Fault Refusal :=
  .next (s.alive fun s =>
    s.writeCmd m (jigOff j.val) (fun s => s.jigCtrl j (s.jigLive (jigOff j.val) &&& 0x1FC)))

def execJigRst (m : Master) (j : JigId) (s : State) : Host.Outcome State Fault Refusal :=
  .next (s.alive fun s => s.writeCmd m (jigOff j.val) (fun s => s.jigCtrl j (s.jigLive (jigOff j.val) &&& 0x1FD ||| 2)))

def execJigAt3Write (m : Master) (j : JigId) (v : Word) (s : State) : Host.Outcome State Fault Refusal :=
  .next (s.alive fun s => s.writeCmd m (jigOff j.val + 0x16) (fun s => s.jigAt3 j v))

def execJigImemWrite (m : Master) (j : JigId) (i : Fin 64) (v : Word) (s : State) : Host.Outcome State Fault Refusal :=
  .next (s.alive fun s =>
    s.writeCmd m (0x81000 + 0x80 * j.val + 2 * i.val) (fun s => s.setReg (0x81000 + 0x80 * j.val + 2 * i.val) v))

def execJigGate (j : JigId) (s : State) : Host.Outcome State Fault Refusal := .next (s.alive fun s => s.jigGateCmd j)

end Sys2Proof.Machine
end

