-- ==== Sys2Proof/Machine/JTables.lean ====
section
/-! DEFINITION. The joiner's tables: descriptors (R102), parameter blocks (R106), the check of a descriptor (R105), and
staging (R119). -/

namespace Sys2Proof.Machine

open Sys2Proof

/-! ## Descriptors and parameter blocks -/

/-- A descriptor (R102), widths as widths. -/
structure Desc where
  srcImg : Nat
  srcW : Nat
  srcBit : Nat
  srcFmt : Nat
  srcBe : Bool
  dstImg : Nat
  dstW : Nat
  dstBit : Nat
  dstFmt : Nat
  dstBe : Bool
  scale : Bool
  limit : Bool
  edge : Nat
  en : Bool
  out : Bool
  subst : Nat
  ageMax : Nat
  param : Nat
  qidx : Nat
  deriving DecidableEq, Repr

/-- The descriptor that eight words hold (R102); a SUBST of 3 is taken as 0 (R112). -/
def descOf (w : List Word) : Desc :=
  let x := fun k => nthD w k 0
  { srcImg := fld (x 0) 0 10, srcW := fld (x 0) 10 6 + 1, srcBit := (x 1).toNat + 65536 * fld (x 2) 0 2,
    srcFmt := fld (x 2) 2 3, srcBe := bit (x 2) 5, dstImg := fld (x 2) 6 10,
    dstBit := (x 3).toNat + 65536 * fld (x 4) 0 2, dstFmt := fld (x 4) 2 3, dstBe := bit (x 4) 5,
    dstW := fld (x 4) 6 6 + 1, scale := bit (x 4) 12, limit := bit (x 4) 13, edge := fld (x 4) 14 2,
    en := bit (x 5) 0, out := bit (x 5) 1, subst := if fld (x 5) 2 2 = 3 then 0 else fld (x 5) 2 2,
    ageMax := fld (x 5) 8 8, param := fld (x 6) 0 12, qidx := fld (x 7) 0 12 }

/-- The words of descriptor `d`. -/
def State.descWords (s : State) (d : Nat) : List Word := Sparse.getAll 0 s.jnr.dsc (8 * d) 8
def State.desc (s : State) (d : Nat) : Desc := descOf (s.descWords d)

/-- A parameter block (R106). -/
structure Param where
  factor : Int
  shift : Nat
  fbits : Nat
  offset : Int
  limLo : Int
  limHi : Int
  preset : Nat
  deriving DecidableEq, Repr

/-- Parameter block `p`; for "none" every field is 0. -/
def State.param (s : State) (p : Nat) : Param :=
  if p = 0xFFF then { factor := 0, shift := 0, fbits := 0, offset := 0, limLo := 0, limHi := 0, preset := 0 }
  else
    let x := fun k => Sparse.get 0 s.jnr.prm (16 * p + k)
    { factor := asInt (x 0).toNat 16, shift := fld (x 1) 0 6, fbits := fld (x 1) 8 5,
      offset := asInt (ofWords [x 2, x 3]) 32, limLo := asInt (ofWords [x 4, x 5]) 32,
      limHi := asInt (ofWords [x 6, x 7]) 32, preset := ofWords [x 8, x 9, x 10, x 11] }

/-- The hearth-side image of a move (R111). -/
def Desc.qImg (d : Desc) : Nat := if d.out then d.srcImg else d.dstImg

/-- Whether the roles of a descriptor's images agree with its phase (R95, R105). -/
def State.rolesOk (s : State) (d : Desc) : Bool :=
  let r := s.imgRole d.srcImg
  if d.out then (r == 1 || r == 2 || r == 3) && s.isTransmit d.dstImg && s.imgProducer d.dstImg == 12
  else (r == 1 || r == 3) && s.imgRole d.dstImg == 2

/-- A format fits its width (R105). -/
def fmtOk (fmt w : Nat) : Bool := fmt ≤ 5 && (fmt != 3 || w == 16) && (fmt != 4 || w == 32)

/-- The checks of R105 on an enabled descriptor. -/
def State.descOk (s : State) (d : Desc) : Bool :=
  !d.en ||
  (decide (d.srcBit + d.srcW ≤ 8 * s.imgLen d.srcImg) && decide (d.dstBit + d.dstW ≤ 8 * s.imgLen d.dstImg) &&
   fmtOk d.srcFmt d.srcW && fmtOk d.dstFmt d.dstW &&
   ((d.srcFmt != 5 && d.dstFmt != 5) ||
    (d.srcFmt == 5 && d.dstFmt == 5 && d.srcW == d.dstW && !d.scale && !d.limit && d.edge == 0)) &&
   s.rolesOk d &&
   (d.edge == 0 || (d.dstW == 1 && d.dstFmt == 0)) &&
   (!(d.scale || d.limit || d.subst == 1 || d.subst == 2) || d.param != 0xFFF) &&
   (d.qidx == 0xFFF || s.imgQBase d.qImg false == none || decide (d.qidx < s.imgQCnt d.qImg)))

/-! ## Error marks and staging (R118, R119) -/

/-- Offset of a register of the joiner. -/
def jnrOff (o : Nat) : Nat := 0x30000 + o

/-- JNR_ERR_IDX names a descriptor. -/
def State.errIdx (s : State) (d : Nat) : State := s.mapJnr (fun j => { j with errIdx := BitVec.ofNat 32 d })

/-- An event of JNR_EVENT. -/
def State.jnrEvent (s : State) (i : Nat) : State := s.raise (jnrOff 4) i

/-- Clear the single-error marks of `n` words: they are corrected in place (R118). -/
def correct (marks : Sparse Nat) (k n : Nat) : Sparse Nat :=
  (List.range n).foldl (fun l i => if Sparse.get 0 l (k + i) = 1 then Sparse.set 0 l (k + i) 0 else l) marks

/-- The four tables of the dictionary store (R92). -/
inductive JTable where
  | dsc | img | prm | sig
  deriving DecidableEq, Repr

def Joiner.marks (j : Joiner) : JTable → Sparse Nat
  | .dsc => j.dscEcc
  | .img => j.imgEcc
  | .prm => j.prmEcc
  | .sig => j.sigEcc

def Joiner.setMarks (j : Joiner) (t : JTable) (x : Sparse Nat) : Joiner :=
  match t with
  | .dsc => { j with dscEcc := x }
  | .img => { j with imgEcc := x }
  | .prm => { j with prmEcc := x }
  | .sig => { j with sigEcc := x }

/-- Read `n` words of a table through their codes: a single error is corrected and sets ECC_COR, a double error sets
ECC_UNC; the flag tells that the words can be used (R118). -/
def State.tableCheck (s : State) (t : JTable) (k n : Nat) : State × Bool :=
  let marks := s.jnr.marks t
  let s := if eccAny marks k n 1 then (s.mapJnr (fun j => j.setMarks t (correct marks k n))).jnrEvent 8 else s
  if eccAny marks k n 2 then (s.jnrEvent 9, false) else (s, true)

/-- What each of the three staged tables has: words of an entry, its entries, its index, its first data register. -/
def JTable.words : JTable → Nat
  | .dsc => 8
  | .sig => 1
  | _ => 16

def JTable.dataOff : JTable → Nat
  | .dsc => jnrOff 0x20
  | .img => jnrOff 0x60
  | _ => jnrOff 0xA0

def State.stageIdx (s : State) : JTable → Nat
  | .dsc => s.pair (jnrOff 0x10) % 262144
  | .img => s.rfld (jnrOff 0x40) 0 10
  | _ => s.rfld (jnrOff 0x80) 0 12

/-- An index that names an entry (R119): parameter block 4,095 does not. -/
def JTable.hasEntry (t : JTable) (i : Nat) : Bool := t != .prm || i < 4095

def Joiner.table (j : Joiner) : JTable → Sparse Word
  | .dsc => j.dsc
  | .img => j.img
  | _ => j.prm

def Joiner.held (j : Joiner) : JTable → Option Held
  | .dsc => j.heldDsc
  | .img => j.heldImg
  | _ => j.heldPrm

def Joiner.setHeld (j : Joiner) (t : JTable) (h : Option Held) : Joiner :=
  match t with
  | .dsc => { j with heldDsc := h }
  | .img => { j with heldImg := h }
  | _ => { j with heldPrm := h }

/-- Set consecutive registers. -/
def State.setRegs (s : State) (off : Nat) : List Word → State
  | [] => s
  | w :: r => (s.setReg off w).setRegs (off + 2) r

/-- CMD.READ: the committed entry is loaded into the staging words (R119). -/
def State.stageRead (s : State) (t : JTable) : State :=
  let i := s.stageIdx t
  let n := t.words
  if t.hasEntry i then
    let (s, ok) := s.tableCheck t (n * i) n
    let s := if !ok && t == .dsc then s.errIdx i else s
    s.setRegs t.dataOff (Sparse.getAll 0 (s.jnr.table t) (n * i) n)
  else s.setRegs t.dataOff (List.replicate n 0)

/-- CMD.WRITE: the entry is checked and held for the next T+0 (R119). -/
def State.stageWrite (s : State) (t : JTable) : State :=
  let i := s.stageIdx t
  let w := (List.range t.words).map (fun k => s.reg (t.dataOff + 2 * k))
  if (s.jnr.held t).isSome then s.jnrEvent 1
  else if !t.hasEntry i then s.jnrEvent 0
  else if t == .dsc && (descOf w).en && (s.imgUnc (descOf w).srcImg || s.imgUnc (descOf w).dstImg) then
    (s.jnrEvent 0).jnrEvent 9
  else if t == .dsc && !s.descOk (descOf w) then s.jnrEvent 0
  else s.mapJnr (fun j => j.setHeld t (some { idx := i, words := w }))

/-- A write of a CMD register: [0] READ, [1] WRITE (R123). -/
def State.stageCmd (s : State) (t : JTable) (v : Word) : State :=
  let s := if bit v 0 then s.stageRead t else s
  if bit v 1 then s.stageWrite t else s

/-- The hidden state and quality word that a commit of a descriptor leaves (R119). -/
def SigState.committed (x : SigState) (unc : Bool) : SigState :=
  { x with last := false, lastKnown := false, quality := if unc then 0xFF10 else x.quality }

/-- A signal state (R92). -/
def State.sig (s : State) (d : Nat) : SigState := Sparse.get SigState.reset s.jnr.sig d
def State.mapSig (s : State) (d : Nat) (f : SigState → SigState) : State :=
  s.mapJnr (fun j => { j with sig := Sparse.set SigState.reset j.sig d (f (s.sig d)) })

/-- Store an entry of a table with fresh codes. -/
def Joiner.store (j : Joiner) (t : JTable) (i : Nat) (w : List Word) : Joiner :=
  let k := t.words * i
  let fresh := Sparse.setAll 0 (j.marks t) k (w.map (fun _ => 0))
  let j := j.setMarks t fresh
  match t with
  | .dsc => { j with dsc := Sparse.setAll 0 j.dsc k w }
  | .img => { j with img := Sparse.setAll 0 j.img k w }
  | .prm => { j with prm := Sparse.setAll 0 j.prm k w }
  | .sig => j

/-- The commit of a held entry at T+0 (R119). -/
def State.commitHeld (s : State) (t : JTable) : State :=
  match s.jnr.held t with
  | none => s
  | some h =>
    let s := s.mapJnr (fun j => (j.store t h.idx h.words).setHeld t none)
    if t == .dsc then
      let unc := Sparse.get 0 s.jnr.sigEcc h.idx == 2
      (s.mapSig h.idx (fun x => x.committed unc)).mapJnr (fun j => { j with sigEcc := Sparse.set 0 j.sigEcc h.idx 0 })
    else s

/-- The force slots in force from the next T+0: enabled ones, while FRC_EN = 1 (R113). -/
def State.enabledForces (s : State) : List (Nat × Force) :=
  if s.rbit (jnrOff 0) 0 then
    ((List.range 64).filter (fun k => s.rbit (jnrOff (0x400 + 16 * k)) 0)).map (fun k =>
      let o := jnrOff (0x400 + 16 * k)
      (k, { dsc := s.pair (o + 2) % 262144
            value := BitVec.ofNat 64 (ofWords [s.reg (o + 6), s.reg (o + 8), s.reg (o + 10), s.reg (o + 12)]) }))
  else []

/-- T+0 in the joiner: staged entries commit, force changes take effect (R113, R119). -/
def State.jnrTick (s : State) : State :=
  let s := ((s.commitHeld .img).commitHeld .prm).commitHeld .dsc
  s.mapJnr (fun j => { j with forces := s.enabledForces, frcPend := false })

/-- The forced value of a descriptor: the lowest slot rules (R113). -/
def State.forceOf (s : State) (d : Nat) : Option (BitVec 64) :=
  (s.jnr.forces.find? (fun f => f.2.dsc == d)).map (fun f => f.2.value)

end Sys2Proof.Machine
end

