-- ==== Sys2Proof/Machine/Can.lean ====
section
/-! DEFINITION. The CAN FD controllers (08_can_fd.md): states, filters and destinations, transmit buffers, cancel and
clash, the schedule matrix, and the CAN_ registers. -/

namespace Sys2Proof.Machine

open Sys2Proof

/-! ## Access -/

/-- Bits of CAN_c_CTRL, events, the pending mask (R239). -/
def State.canCtl (s : State) (c : CanId) (i : Nat) : Bool := s.rbit (canOff c.val) i
def State.canEvent (s : State) (c : CanId) (i : Nat) : State := s.raise (canOff c.val + 4) i
def State.canEvent2 (s : State) (c : CanId) (i : Nat) : State := s.raise (canOff c.val + 8) i

/-- A bit of a 32-bit mask, and the mask with it set or cleared. -/
def mask32 (b : Nat) : BitVec 32 := BitVec.ofNat 32 (2 ^ b)
def State.canPending (s : State) (c : CanId) (b : Fin 32) : Bool := s.can[c].pendingMask.getLsbD b.val
def State.setPending (s : State) (c : CanId) (b : Fin 32) (on : Bool) : State :=
  s.mapCan c (fun x => { x with
    pendingMask := if on then x.pendingMask ||| mask32 b.val else x.pendingMask &&& ~~~mask32 b.val })

/-- Set the bit of a buffer in a pair of registers. -/
def State.canBufBit (s : State) (c : CanId) (o : Nat) (b : Fin 32) : State :=
  s.raise (canOff c.val + o + 2 * (b.val / 16)) (b.val % 16)

/-- Whether a channel takes part in bus traffic: ERROR_ACTIVE or ERROR_PASSIVE (R225). -/
def State.canOnBus (s : State) (c : CanId) : Bool := s.can[c].st == .errorActive || s.can[c].st == .errorPassive

/-- Enter a state; a span with a beat outside the two on-bus states loses the intake images (R225). -/
def State.canEnter (s : State) (c : CanId) (st : CanState) : State :=
  s.mapCan c (fun x => { x with st := st, spanOut := x.spanOut || !(st == .errorActive || st == .errorPassive) })

/-- Fields of a transmit buffer (R239). -/
def State.txIde (s : State) (c b : Nat) : Bool := s.rbit (canTxOff c b + 2) 13
def State.txFdf (s : State) (c b : Nat) : Bool := s.rbit (canTxOff c b + 2) 14
def State.txBrs (s : State) (c b : Nat) : Bool := s.rbit (canTxOff c b + 2) 15
def State.txId (s : State) (c b : Nat) : Nat := s.pair (canTxOff c b) % 2 ^ 29
def State.txTrig (s : State) (c b : Nat) : Nat := s.rfld (canTxOff c b + 4) 4 2
def State.txRate (s : State) (c b : Nat) : Nat := s.rfld (canTxOff c b + 4) 6 3
def State.txPhase (s : State) (c b : Nat) : Nat := s.rfld (canTxOff c b + 4) 9 6
def State.txImg (s : State) (c b : Nat) : Bool := s.rbit (canTxOff c b + 4) 15
def State.txArb (s : State) (c b : Nat) : Bool := s.rbit (canTxOff c b + 6) 1
def State.txLen (s : State) (c b : Nat) : Nat := dlcBytes (s.txFdf c b) (s.rfld (canTxOff c b + 4) 0 4)

/-- The key by which buffers contend: the 29-bit extended form (R228). -/
def State.txKey (s : State) (c b : Nat) : Nat :=
  if s.txIde c b then 2 * s.txId c b + 1 else 2 * (s.txId c b % 2048 * 2 ^ 18)

/-- The filling buffer of a transmit buffer with IMG = 1; the latched one is the other (R24, R226). -/
def State.canFill (s : State) (c b : Nat) : Bool :=
  match s.localImage (2 + c) (32 + b) with
  | some i => (s.image i).fill
  | none => false

/-- Bytes of a transmit buffer as they would be sent now (R226). -/
def State.txData (s : State) (c : CanId) (b : Nat) : List Byte :=
  let k := (if s.txImg c.val b then b2n (!s.canFill c.val b) * 4096 else 0) + 2048 + 64 * b
  Sparse.getAll 0 s.can[c].ram k (s.txLen c.val b)

/-! ## Triggers (R227) -/

/-- A trigger of a buffer: pending, or OVERTAKEN where it still was. -/
def State.canTrigger (s : State) (c : CanId) (b : Fin 32) : State :=
  if s.canPending c b then s.canEvent2 c 1 else s.setPending c b true

/-- TXREQ: the request buffers named become pending. -/
def State.canTxreq (s : State) (c : CanId) (v : BitVec 32) : State :=
  (finList 32).foldl (fun s b => if v.getLsbD b.val && s.txTrig c.val b.val == 0 then s.canTrigger c b else s) s

/-- A buffer is done: it completed or was cancelled. -/
def State.canDone (s : State) (c : CanId) (b : Fin 32) : State :=
  ((s.setPending c b false).canBufBit c 0x28 b).canEvent c 3

/-- Set the clash count of a buffer (R230). -/
def State.setClash (s : State) (c : CanId) (b : Fin 32) (n : Nat) : State :=
  s.mapCan c (fun x => { x with clash := upd x.clash b (fun _ => n) })

/-- A cancel of one buffer (R229). -/
def State.canCancel (s : State) (c : CanId) (b : Fin 32) : State :=
  if !s.canPending c b then s
  else if (s.can[c].tx.bind (fun t => t.buf)) == some b then (s.canBufBit c 0x2C b).canEvent c 6
  else (((s.canDone c b).canEvent c 5)).setClash c b 0

/-- TXCAN (R229). -/
def State.canTxcan (s : State) (c : CanId) (v : BitVec 32) : State :=
  (finList 32).foldl (fun s b => if v.getLsbD b.val then s.canCancel c b else s) s

/-! ## The schedule matrix (R232 to R236) -/

/-- Whether the channel runs the matrix now: TT_EN, with ticks running. -/
def State.canTt (s : State) (c : CanId) : Bool := s.canCtl c 3 && s.tick.running

/-- The kerf, NCYC_EXP and PRIO in force. -/
def State.kerfNow (s : State) (c : CanId) : Nat := s.canKerf c.val s.tick.mode.val
def State.cycleNow (s : State) (c : CanId) : Nat := s.tick.tick % 2 ^ s.canNcyc c.val s.tick.mode.val

/-- Beats from the SOF to its sample point (R213, R232). -/
def State.sampleBeats (s : State) (c : CanId) : Nat :=
  kernelBeats ((s.rfld (canOff c.val + 0x10) 0 8 + 1) * (1 + s.rfld (canOff c.val + 0x12) 0 8 + 1))

/-- A good reference message, the channel's own or another's (R233). -/
def State.canReference (s : State) (c : CanId) (own : Bool) (prio cyc mark : Nat) : State :=
  let s := s.mapCan c (fun x => { x with
    refMark := mark, refPending := false, cycle := BitVec.ofNat 6 cyc, ttSync := true, isTm := own
    tmPrio := BitVec.ofNat 3 prio, silent := false, tx := if own then x.tx else x.tx.filter (fun t => t.buf.isSome) })
  if own || !s.tick.running || cyc == s.cycleNow c then s else s.canEvent2 c 2

/-- REF_MESSAGE: a potential master makes its reference message pending at T + REF_OFS, and may retry it until
T + REF_OFS + Wc + K; after that it is dropped (R233). -/
def State.refMessageCmd (s : State) (c : CanId) : State :=
  if s.canTt c && s.canCtl c 4 && s.canOnBus c && !s.can[c].ttSync then
    let start := s.tick.tBeat + s.canRefOfs c.val s.tick.mode.val
    let s := s.until start
    let wc := s.canRefWc c.val
    let last := start + wc + s.kerfNow c
    if s.time.beat ≤ last then
      let t : CanTx :=
        { buf := none, data := [BitVec.ofNat 8 (s.cycleNow c)], exclusive := false, sof := s.time.beat,
          permitEnd := s.time.beat + wc + s.kerfNow c }
      s.mapCan c (fun x => { x with refPending := true, refUntil := last, tx := if x.tx.isNone then some t else x.tx })
    else (s.mapCan c (fun x => { x with refPending := false })).canEvent c 9
  else s

/-- REF_TIMEOUT: no good reference by T + REF_OFS + REFTMO (R233). -/
def State.refTimeoutCmd (s : State) (c : CanId) : State :=
  if s.canTt c && !s.can[c].ttSync then
    let s := s.until (s.tick.tBeat + s.canRefOfs c.val s.tick.mode.val + 16 * (s.reg (canOff c.val + 0x1E)).toNat)
    (s.mapCan c (fun x => { x with silent := true, refPending := false })).canEvent c 9
  else s

/-- CAN_WINDOW_OPEN: a window in force opens; the buffer of an exclusive one becomes pending (R227, R235). -/
def State.windowOpenCmd (s : State) (c : CanId) (w : Fin 32) : State :=
  let win := s.canWin c s.tick.mode.val w.val
  if s.canTt c && s.can[c].ttSync && win.inForce s.can[c].cycle.toNat then
    let s := s.until (s.can[c].refMark + win.start)
    let s := s.mapCan c (fun x => { x with
      openWin := some { win := w.val, exclusive := win.kind == 1, buf := win.buf, close := x.refMark + win.start + win.len } })
    if win.kind == 1 && !s.can[c].silent && s.txTrig c.val win.buf.val == 2 then s.canTrigger c win.buf else s
  else s

/-- CAN_WINDOW_CLOSE: a matrix buffer that was not sent leaves pending (R227, R235). -/
def State.windowCloseCmd (s : State) (c : CanId) (w : Fin 32) : State :=
  match s.can[c].openWin with
  | some o =>
    if o.win = w.val then
      let s := (s.until o.close).mapCan c (fun x => { x with openWin := none })
      let unsent := o.exclusive && s.canPending c o.buf && (s.can[c].tx.bind (fun t => t.buf)) != some o.buf
      if !unsent then s
      else (if s.txTrig c.val o.buf.val == 2 then s.setPending c o.buf false else s).canEvent c 8
    else s
  | none => s

/-! ## Commit and the end of a transmission (R226 to R230, R235) -/

/-- Whether buffer `b` contends first among the pending buffers that may contend (R228). -/
def State.contendsFirst (s : State) (c : CanId) (b : Fin 32) (may : Fin 32 → Bool) : Bool :=
  s.canPending c b && may b && (finList 32).all (fun x =>
    x == b || !(s.canPending c x && may x) || decide (s.txKey c.val b.val < s.txKey c.val x.val) ||
    (s.txKey c.val b.val == s.txKey c.val x.val && decide (b.val < x.val)))

/-- The beat in which the SOF is driven after a commit: the rest of the bit past its sample point (R213, R229). -/
def State.sofBeat (s : State) (c : CanId) : Nat :=
  s.time.beat + kernelBeats ((s.rfld (canOff c.val + 0x10) 0 8 + 1) * (s.rfld (canOff c.val + 0x12) 8 7 + 1))

/-- A buffer is committed to send. -/
def State.commitBuffer (s : State) (c : CanId) (b : Fin 32) (excl : Bool) : State :=
  let t : CanTx :=
    { buf := some b, data := s.txData c b.val, exclusive := excl, sof := s.sofBeat c,
      permitEnd := s.sofBeat c + s.canBufWc c.val b.val + s.kerfNow c }
  s.mapCan c (fun x => { x with tx := some t })

/-- CAN_COMMIT (R226, R228, R229, R235). -/
def State.canCommitCmd (s : State) (c : CanId) (b : Fin 32) : State :=
  if !s.canOnBus c || s.can[c].tx.isSome || !s.canPending c b then s
  else if !s.canCtl c 3 then
    if s.contendsFirst c b (fun _ => true) then s.commitBuffer c b false else s
  else match s.can[c].openWin with
    | some o =>
      let fits := decide (s.sofBeat c + s.canBufWc c.val b.val + s.kerfNow c ≤ o.close)
      if o.exclusive then
        if o.buf != b || s.can[c].silent then s
        else if fits then s.commitBuffer c b true
        else (if s.txTrig c.val b.val == 2 then s.setPending c b false else s).canEvent c 8
      else if fits && s.contendsFirst c b (fun x => s.txArb c.val x.val) then s.commitBuffer c b false
      else s
    | none => s

/-- The transmitter's delay as an FD frame measures it (R214). -/
def State.measureTdc (s : State) (c : CanId) (b : Fin 32) : State :=
  if s.txFdf c.val b.val then
    let (s, k) := s.takeFree
    let v := Config.loopDelay k
    let s := if v.toNat < s.rfld (canOff c.val + 0x18) 8 7 then s else s.mapCan c (fun x => { x with tdcv := v })
    if s.rbit (canOff c.val + 0x18) 0 && decide (127 < s.can[c].tdcv.toNat + s.rfld (canOff c.val + 0x18) 1 7) then
      s.canEvent2 c 0
    else s
  else s

/-- A transmission that ended in error: in an exclusive window it is not sent again (R235). -/
def State.txFailed (s : State) (c : CanId) (b : Fin 32) (excl : Bool) : State :=
  if excl then (s.setPending c b false).canEvent c 4 else s

/-- A bit error of a transmission that won arbitration (R230). -/
def State.txClash (s : State) (c : CanId) (b : Fin 32) (excl : Bool) : State :=
  let n := s.can[c].clash[b]
  let s := (s.setClash c b (min 3 (n + 1))).txFailed c b excl
  if n = 2 then
    let s := s.canEvent c 7
    if s.rbit (canTxOff c.val b.val + 6) 0 then (s.setPending c b false).canBufBit c 0x30 b else s
  else s

/-- ERROR_ACTIVE, ERROR_PASSIVE or BUS_OFF by the error counters (R215, R238). -/
def State.canCounters (s : State) (c : CanId) : State :=
  let x := s.can[c]
  if !s.canOnBus c then s
  else if 255 < x.tec then ((s.canEnter c .busOff).mapCan c (fun x => { x with tx := none })).canEvent c 11
  else if 127 < x.tec || 127 < x.rec' then (if x.st == .errorPassive then s else (s.canEnter c .errorPassive).canEvent c 12)
  else s.canEnter c .errorActive

/-- CAN_TX_END (R229, R230, R233, R235). -/
def State.canTxEndCmd (s : State) (c : CanId) (r : TxResult) : State :=
  match s.can[c].tx with
  | none => s
  | some t =>
    let s := s.mapCan c (fun x => { x with tx := none, tec := if r == .success then x.tec - 1 else x.tec })
    match t.buf with
    | none =>
      if r = .success then
        (s.canReference c true (s.canPrio c.val s.tick.mode.val) (ofBytes t.data) (t.sof + s.sampleBeats c)).canCounters c
      else s
    | some b =>
      match r with
      | .success => (((s.measureTdc c b).canDone c b).setClash c b 0).canCounters c
      | .lostArbitration => s
      | .bitError => (s.measureTdc c b).txClash c b t.exclusive
      | .otherError => ((s.measureTdc c b).setClash c b 0).txFailed c b t.exclusive

/-! ## States (R213 to R217) -/

/-- CAN_BUS_ERROR: a bus error adds to the counters (R215). -/
def State.canBusErrorCmd (s : State) (c : CanId) (dtec drec : Nat) : State :=
  if s.canOnBus c then
    (s.mapCan c (fun x => { x with tec := x.tec + dtec, rec' := satAdd 255 x.rec' drec })).canCounters c
  else s

/-- BUS_OFF_RECOVERY with AUTO_REC = 1 (R215). -/
def State.busOffRecoveryCmd (s : State) (c : CanId) : State :=
  if s.can[c].st == .busOff && s.canCtl c 5 then
    (s.canEnter c .integrating).mapCan c (fun x => { x with tec := 0, rec' := 0 })
  else s

/-- INTEGRATION_DONE (R215). -/
def State.integrationDoneCmd (s : State) (c : CanId) : State :=
  if s.can[c].st == .integrating then s.canEnter c .errorActive else s

/-- The setting that INIT release checks: bit timing and transmit buffers (R213, R226). -/
def State.canSettingOk (s : State) (c : Nat) : Bool :=
  let o := canOff c
  2 ≤ s.rfld (o + 0x12) 0 8 + 1 && 2 ≤ s.rfld (o + 0x12) 8 7 + 1 &&
  decide (s.rfld (o + 0x10) 8 7 ≤ s.rfld (o + 0x12) 8 7) && decide (s.rfld (o + 0x16) 4 4 ≤ s.rfld (o + 0x16) 0 4) &&
  decide (80 ≤ s.canNbt c) && decide (10 ≤ s.canDbt c) &&
  (List.range 32).all (fun b => !(!s.txFdf c b && s.txBrs c b) && !(!s.rbit o 2 && s.txFdf c b))

/-- INIT is released: INTEGRATING, or INIT is kept and CFG_REJ set (R213, R217). -/
def State.canRelease (s : State) (c : CanId) : State :=
  if s.canSettingOk c.val then s.canEnter c .integrating
  else (s.setReg (canOff c.val) (setBit (s.reg (canOff c.val)) 1 true)).canEvent c 13

/-- INIT is entered: clash counts are reset, and after bus-off the error counters (R215, R230). -/
def State.canInit (s : State) (c : CanId) : State :=
  let off := s.can[c].st == .busOff
  (s.canEnter c .init).mapCan c (fun x => { x with
    tx := none, clash := Vector.replicate 32 0, tec := if off then 0 else x.tec, rec' := if off then 0 else x.rec' })

/-- A write of CAN_c_CTRL (R215, R217, R239). -/
def State.canCtrl (s : State) (c : CanId) (v : Word) : State :=
  let st := s.can[c].st
  let s := s.setReg (canOff c.val) (v &&& 0x3FF)
  if !bit v 0 then (s.canEnter c .off).mapCan c (fun x => { x with tx := none })
  else if bit v 1 then s.canInit c
  else if st == .off then (s.canInit c).canRelease c
  else if st == .init then s.canRelease c
  else s

/-- The kernel clock check ends: SUSPENDED on its loss, INTEGRATING on its return (R215, R216). OFF and INIT stay. -/
def State.canClock (s : State) (c : CanId) (was now : Bool) : State :=
  let st := s.can[c].st
  if was && !now && st != .off && st != .init then
    ((s.canEnter c .suspended).mapCan c (fun x => { x with tx := none })).canEvent c 14
  else if now && st == .suspended then s.canEnter c .integrating
  else s

/-- CAN_CLK_SPAN with what it does to the channels. -/
def State.canClkSpanCmd (s : State) (cycles : Nat) : State :=
  let was := s.time.canOk
  let s := s.canSpan cycles
  (finList 6).foldl (fun (s : State) c => s.canClock c was s.time.canOk) s

/-! ## Receiving (R218 to R225) -/

/-- A filter matches a frame (R219). -/
def State.filterMatches (s : State) (c f : Nat) (x : CanFrame) : Bool :=
  let o := canOff c + 0x100 + 8 * f
  let n := if x.ide then 29 else 11
  let cut := fun (y : Nat) => y % 2 ^ n
  let id := cut x.id.toNat
  let id1 := cut (s.pair o)
  let id2 := cut (s.pair (o + 4))
  s.rbit (o + 6) 13 && s.rbit (o + 6) 15 == x.ide &&
  (if s.rbit (o + 6) 14 then decide (id1 ≤ id) && decide (id ≤ id2) else id &&& id2 == id1 &&& id2)

/-- The lowest filter that matches (R219). -/
def State.filterOf (s : State) (c : Nat) (x : CanFrame) : Option Nat :=
  (List.range 128).find? (fun f => s.filterMatches c f x)

/-- Data length of a received frame. -/
def canLen (x : CanFrame) : Nat := if x.rtr then 0 else dlcBytes x.fdf x.dlc.toNat

/-- The ten stamp bytes: time of day, or nanoseconds and seconds (R222). -/
def stampBytes (ns : Bool) (tod : Nat) : List Byte :=
  if ns then
    let n := nsOf (tod % 2 ^ 32)
    let sec := tod / 2 ^ 32
    if n = 1000000000 then toBytes 0 4 ++ toBytes (sec + 1) 6 else toBytes n 4 ++ toBytes sec 6
  else toBytes tod 10

/-- The beat of kernel cycle `k` after the last coincidence (R47, R52). -/
def TimeUnit.canBeat (t : TimeUnit) (k : Nat) : Nat := t.canSpanBeat + k * 2 ^ 29 / 80000000

/-- The entry of a received frame (R222). -/
def State.canEntry (s : State) (c : CanId) (x : CanFrame) (filter : Option Nat) (hp : Bool) : CanEntry :=
  let ns := s.canCtl c 7
  let k := if s.canCtl c 8 then x.valCycle else x.sofCycle
  let id := (if x.ide then x.id.toNat else x.id.toNat % 2048) + 2 ^ 29 * b2n x.ide + 2 ^ 30 * b2n x.rtr
  let w := x.dlc.toNat + 16 * b2n x.fdf + 32 * b2n x.brs + 64 * b2n x.esi + 256 * filter.getD 0 + 32768 * b2n filter.isNone
  let data := x.data.take (canLen x)
  { bytes := toBytes id 4 ++ toBytes w 2 ++ toBytes (canLen x) 2 ++ stampBytes ns (s.time.canStamp k) ++
      toBytes (s.time.canBeat k) 8 ++ toBytes (b2n s.time.canOk + 2 * b2n ns + 4 * b2n hp) 2 ++ List.replicate 4 0 ++
      data ++ List.replicate (96 - data.length) 0 }

/-- Append an entry to a FIFO (R223). -/
def State.fifoAppend (s : State) (c : CanId) (f : Fin 2) (e : CanEntry) : State :=
  if s.can[c].fifo[f].length < 64 then
    (s.mapCan c (fun x => { x with fifo := upd x.fifo f (fun l => l ++ [e]) })).canEvent c f.val
  else (s.mapCan c (fun x => { x with fifoOvf := upd x.fifoOvf f (fun _ => true) })).canEvent c 2

/-- Write a high-priority buffer (R224). -/
def State.hpWrite (s : State) (c : CanId) (h : Fin 8) (e : CanEntry) : State :=
  let o := canOff c.val + 0x48
  let s := s.mapCan c (fun x => { x with hp := upd x.hp h (fun _ => some e) })
  (s.raiseIf (s.rbit o h.val) o (8 + h.val)).raise o h.val

/-- A frame for an intake image: its data in the filling buffer, fresh with its length (R225). -/
def State.canImage (s : State) (c : CanId) (i : Nat) (x : CanFrame) : State :=
  (s.setStoreBytes (2 + c.val) (b2n s.jnr.side * 4096 + 64 * i) (x.data.take (canLen x))).localFresh (2 + c.val) i (canLen x)

/-- Where a received frame goes (R219, R220). -/
def State.canStore (s : State) (c : CanId) (x : CanFrame) : State :=
  match s.filterOf c.val x with
  | some f =>
    let d := s.rfld (canOff c.val + 0x500 + 2 * f) 0 3
    let t := s.rfld (canOff c.val + 0x500 + 2 * f) 3 5
    if d = 0 ∨ (d = 3 ∧ x.rtr) then s.fifoAppend c 0 (s.canEntry c x (some f) false)
    else if d = 1 then s.fifoAppend c 1 (s.canEntry c x (some f) false)
    else if d = 2 then s.hpWrite c (BitVec.ofNat 3 t).toFin (s.canEntry c x (some f) true)
    else if d = 3 then s.canImage c t x
    else s
  | none =>
    match s.rfld (canOff c.val + 0x1A) 0 2 with
    | 0 => s.fifoAppend c 0 (s.canEntry c x none false)
    | 1 => s.fifoAppend c 1 (s.canEntry c x none false)
    | _ => s

/-- Whether a frame is the reference message of the bus (R232). -/
def State.isReference (s : State) (c : CanId) (x : CanFrame) : Bool :=
  s.canCtl c 3 && !x.ide && !x.rtr && !x.fdf && x.dlc == 1 &&
  x.id.toNat / 8 % 256 == s.rfld (canOff c.val + 0x1C) 0 8

/-- CAN_FRAME_VALID: a frame at its validation point (R215, R219, R220, R233). -/
def State.canFrameCmd (s : State) (c : CanId) (x : CanFrame) : State :=
  if s.canOnBus c then
    let s := if x.own then s else
      (s.mapCan c (fun y => { y with rec' := if 127 < y.rec' then 127 else y.rec' - 1 })).canCounters c
    let s := if s.isReference c x then
        s.canReference c x.own (x.id.toNat % 8) (ofBytes (x.data.take 1) % 64) (s.time.canBeat (x.sofCycle +
          (s.rfld (canOff c.val + 0x10) 0 8 + 1) * (1 + s.rfld (canOff c.val + 0x12) 0 8 + 1)))
      else s
    if x.own && !s.canCtl c 9 then s else s.canStore c x
  else s

/-- A pop of a FIFO (R223). -/
def State.fifoPop (s : State) (c : CanId) (f : Fin 2) : State :=
  s.mapCan c (fun x => { x with fifo := upd x.fifo f (fun l => l.drop 1), fifoOvf := upd x.fifoOvf f (fun _ => false) })

/-- A write of HP_EVENT: NEW and VALID, OVW; what this beat has set stays (R15, R224). -/
def State.hpClear (s : State) (c : CanId) (v : Word) : State :=
  let o := canOff c.val + 0x48
  let v := v &&& ~~~s.freshAt o
  let s := s.setReg o (s.reg o &&& ~~~v)
  (finList 8).foldl (fun (s : State) h =>
    if bit v h.val then
      s.mapCan c (fun x => { x with hp := upd x.hp h (fun e => e.map (fun y =>
        { bytes := y.bytes.set 26 (nthD y.bytes 26 0 &&& 0xFB) })) })
    else s) s

/-! ## The tick, the strike and a switch in a channel -/

/-- The strike: lost intake images, and buffers that a strike triggers (R225, R227). -/
def State.canStrike (s : State) (c : CanId) : State :=
  let out := s.can[c].spanOut || !s.canOnBus c
  let s := if out then (List.range 32).foldl (fun (s : State) i => s.localLost (2 + c.val) i) s else s
  let s := (finList 32).foldl (fun (s : State) b =>
    if s.txTrig c.val b.val == 1 && s.txImg c.val b.val &&
        s.tick.tick % 2 ^ s.txRate c.val b.val == s.txPhase c.val b.val
    then s.canTrigger c b else s) s
  s.mapCan c (fun x => { x with spanOut := !(x.st == .errorActive || x.st == .errorPassive) })

/-- T+0: a reference left over from the cycle before is dropped (R233). -/
def State.canTick (s : State) (c : CanId) : State :=
  let left := s.can[c].refPending && !s.can[c].ttSync
  let s := s.mapCan c (fun x => { x with ttSync := false, refPending := false, openWin := none })
  if left then s.canEvent c 9 else s

/-- The shadow kerf of a channel at a switch into a mode (R84, R236). -/
def State.canShadow (s : State) (m : Nat) (c : CanId) : State :=
  let o := canMode c.val m
  let v := s.reg (o + 8)
  if bit v 15 then
    let s := s.setReg (o + 8) (v &&& 0x7FFF)
    if s.canModeOkK m c (fld v 0 15) then s.setReg (o + 6) (v &&& 0x7FFF) else s.badMode
  else s

/-! ## Registers (R217, R221, R239) -/

def canSpecs : List RegSpec :=
  let o := 0x70000
  [{ base := o + 4, rw := 0, w1c := 0x7FFF, m := 6, outer := 0x800 }, { base := o + 6, rw := 0x7FFF, m := 6, outer := 0x800 },
   { base := o + 8, rw := 0, w1c := 7, m := 6, outer := 0x800 }, { base := o + 0xA, rw := 7, m := 6, outer := 0x800 },
   { base := o + 0x10, rw := 0x7FFF, n := 2, m := 6, outer := 0x800 }, { base := o + 0x14, rw := 0x3FF, m := 6, outer := 0x800 },
   { base := o + 0x16, rw := 0xFF, m := 6, outer := 0x800 }, { base := o + 0x18, rw := 0x7FFF, m := 6, outer := 0x800 },
   { base := o + 0x1A, rw := 3, m := 6, outer := 0x800 }, { base := o + 0x1C, rw := 0xFF, m := 6, outer := 0x800 },
   { base := o + 0x1E, m := 6, outer := 0x800 }, { base := o + 0x20, pair := true, stride := 4, n := 2, m := 6, outer := 0x800 },
   { base := o + 0x28, rw := 0, w1c := 0xFFFF, pair := true, stride := 4, n := 3, m := 6, outer := 0x800 },
   { base := o + 0x4A, rw := 0xFF, m := 6, outer := 0x800 },
   { base := o + 0x60, pair := true, stride := 16, n := 8, m := 6, outer := 0x800 },
   { base := o + 0x64, rw := 0x3F, stride := 16, n := 8, m := 6, outer := 0x800 },
   { base := o + 0x66, rw := 0x7FFF, stride := 16, n := 8, m := 6, outer := 0x800 },
   { base := o + 0x68, stride := 16, n := 8, m := 6, outer := 0x800 },
   { base := o + 0xE0, rw := 0xFF, m := 6, outer := 0x800 }, { base := o + 0xE4, n := 4, m := 6, outer := 0x800 },
   { base := o + 0xEC, rw := 0x1FFF, m := 6, outer := 0x800 }, { base := o + 0xEE, rw := 7, m := 6, outer := 0x800 },
   { base := o + 0x100, pair := true, rwHi := 0x1FFF, stride := 8, n := 128, m := 6, outer := 0x800 },
   { base := o + 0x104, pair := true, stride := 8, n := 128, m := 6, outer := 0x800 },
   { base := o + 0x500, rw := 0xFF, n := 128, m := 6, outer := 0x800 },
   { base := o + 0x600, pair := true, stride := 8, n := 32, m := 6, outer := 0x800 },
   { base := o + 0x604, stride := 8, n := 32, m := 6, outer := 0x800 },
   { base := o + 0x606, rw := 0x7F, stride := 8, n := 32, m := 6, outer := 0x800 }]

/-- Configuration that takes effect only in OFF and INIT (R217). -/
def canConfig (o : Nat) : Bool := (0x10 ≤ o && o < 0x1E) || (0x100 ≤ o && o < 0x700)

/-- Where a byte of the message RAM aperture comes from (R221). -/
def State.canApByte (s : State) (c : CanId) (o : Nat) : Byte :=
  let x := s.can[c]
  if o < 0x800 then
    let i := o / 64
    let live := Sparse.get 0 x.ram (b2n (!s.jnr.side) * 4096 + o)
    match (s.localImage (2 + c.val) i).bind (fun g => if (s.jimage g).snap.fresh then none else (s.jimage g).good) with
    | some l => nthD l (o % 64) live
    | none => live
  else if o < 0x1000 then
    let b := (o - 0x800) / 64
    Sparse.get 0 x.ram ((if s.txImg c.val b then b2n (s.canFill c.val b) * 4096 else 0) + o)
  else if o < 0x1100 then
    let l := if o < 0x1080 then x.fifo[0] else x.fifo[1]
    match l with
    | e :: _ => nthD e.bytes (o % 128) 0
    | [] => ((Config.emptyHead (o / 2)) >>> (8 * (o % 2))).truncate 8
  else if 0x1400 ≤ o ∧ o < 0x1800 then
    match finOf 8 ((o - 0x1400) / 128) with
    | some h => match x.hp[h] with
      | some e => nthD e.bytes (o % 128) 0
      | none => 0
    | none => 0
  else 0

/-- A permitted write of a word to the aperture (R221). -/
def State.canApWrite (s : State) (c : CanId) (o : Nat) (v : Word) : State :=
  if 0x800 ≤ o ∧ o < 0x1000 then
    let b := (o - 0x800) / 64
    let k := (if s.txImg c.val b then b2n (s.canFill c.val b) * 4096 else 0) + o / 2 * 2
    s.setStoreBytes (2 + c.val) k (toBytes v.toNat 2)
  else s

/-- The matrix window that the staging words hold (R239). -/
def State.mxWords (s : State) (c : CanId) : Window :=
  let w := fun k => s.reg (canOff c.val + 0xE4 + 2 * k)
  { start := ofWords [w 0, w 1], len := ofWords [w 2, w 3], kind := (BitVec.ofNat 2 (fld (w 4) 0 2)).toFin
    buf := (BitVec.ofNat 5 (fld (w 4) 2 5)).toFin, base := fld (w 4) 7 6, rep := fld (w 5) 0 3 }

/-- MX_CMD.READ and WRITE (R239). -/
def State.mxRead (s : State) (c : CanId) : State :=
  let sel := s.reg (canOff c.val + 0xE0)
  let w := s.canWin c (fld sel 0 3) (fld sel 3 5)
  s.setRegs (canOff c.val + 0xE4) [wordOf w.start 0, wordOf w.start 1, wordOf w.len 0, wordOf w.len 1,
    BitVec.ofNat 16 (w.kind.val + 4 * w.buf.val + 128 * w.base), BitVec.ofNat 16 w.rep]

def State.mxWrite (s : State) (c : CanId) : State :=
  let sel := s.reg (canOff c.val + 0xE0)
  s.modeTable (fld sel 0 3) (fun s => s.mapCan c (fun x => { x with
    windows := Sparse.set Window.reset x.windows (fld sel 0 3 * 32 + fld sel 3 5) (s.mxWords c) }))

/-- The 32 bits of a TXREQ or TXCAN write: the held low word with the high word (R481). -/
def State.maskOf (s : State) (m : Master) (lo : Nat) (hi : Word) : BitVec 32 := hi ++ s.loFor m lo 0

/-- A write to a register of a channel at offset `o`. -/
def State.canWrite (s : State) (m : Master) (c : CanId) (o : Nat) (v : Word) : State :=
  let off := canOff c.val + o
  if canConfig o && !(s.can[c].st == .off || s.can[c].st == .init) &&
      !(RegSpec.isPair canSpecs off 0) then s.canEvent c 13
  else if o = 0 then s.canCtrl c v
  else if o = 0x22 then (s.canTxreq c (s.maskOf m (off - 2) v)).dropHold m
  else if o = 0x26 then (s.canTxcan c (s.maskOf m (off - 2) v)).dropHold m
  else if o = 0x42 then s.fifoPop c 0
  else if o = 0x46 then s.fifoPop c 1
  else if o = 0x48 then s.hpClear c v
  else if o = 0xE2 then
    let s := if bit v 0 then s.mxRead c else s
    if bit v 1 then s.mxWrite c else s
  else if 0x60 ≤ o ∧ o < 0xE0 then
    let k := o % 16
    if k = 0 ∨ k = 8 then s.tableWrite canSpecs m off v
    else if k = 4 ∧ fld v 0 3 = 7 then s
    else s.modeTable ((o - 0x60) / 16) (fun s => s.tableWrite canSpecs m off v)
  else s.tableWrite canSpecs m off v

/-- A write to an offset of the CAN_ block. -/
def State.canBlockWrite (s : State) (m : Master) (off : Nat) (v : Word) : State :=
  if off < 0x74000 then
    match finOf 6 ((off - 0x70000) / 0x800) with
    | some c => s.canWrite m c ((off - 0x70000) % 0x800) v
    | none => s
  else match finOf 6 ((off - 0x74000) / 0x2000) with
    | some c => s.canApWrite c ((off - 0x74000) % 0x2000) v
    | none => s

/-- The registers of the CAN_ block as they read at present. -/
def State.canLive (s : State) (off : Nat) : Word :=
  if off < 0x74000 then
    match finOf 6 ((off - 0x70000) / 0x800) with
    | some c =>
      let o := (off - 0x70000) % 0x800
      let x := s.can[c]
      if o = 2 then
        let st := match x.st with
          | .off => 0
          | .init => 1
          | .integrating => 2
          | .errorActive => 3
          | .errorPassive => 4
          | .busOff => 5
          | .suspended => 6
        BitVec.ofNat 16 st ||| flag x.ttSync 3 ||| flag x.isTm 4 ||| BitVec.ofNat 16 (x.cycle.toNat * 32) |||
          BitVec.ofNat 16 (x.tmPrio.toNat * 2048)
      else if o = 0xC then BitVec.ofNat 16 (min 255 x.tec + 256 * min 127 x.rec') ||| flag (decide (127 < x.rec')) 15
      else if o = 0xE then BitVec.ofNat 16 x.tdcv.toNat
      else if o = 0x20 ∨ o = 0x22 then wordOf x.pendingMask.toNat ((o - 0x20) / 2)
      else if o = 0x40 then BitVec.ofNat 16 x.fifo[0].length ||| flag x.fifoOvf[0] 7
      else if o = 0x44 then BitVec.ofNat 16 x.fifo[1].length ||| flag x.fifoOvf[1] 7
      else if o = 0x24 ∨ o = 0x26 ∨ o = 0x42 ∨ o = 0x46 ∨ o = 0xE2 then 0
      else s.reg off
    | none => 0
  else match finOf 6 ((off - 0x74000) / 0x2000) with
    | some c =>
      let o := (off - 0x74000) % 0x2000 / 2 * 2
      s.canApByte c (o + 1) ++ s.canApByte c o
    | none => 0

/-- A read of a register of the CAN_ block. -/
def State.canRead (s : State) (m : Master) (off : Nat) : State × Word := s.tableRead canSpecs State.canLive m off

/-! ## Commands -/

def execCanClkSpan (cycles : Nat) (s : State) : Host.Outcome State Fault Refusal :=
  .next (s.alive fun s => s.canClkSpanCmd cycles)

def execCanFrameValid (c : CanId) (f : CanFrame) (s : State) : Host.Outcome State Fault Refusal :=
  .next (s.alive fun s => s.canFrameCmd c f)

def execCanCommit (c : CanId) (b : Fin 32) (s : State) : Host.Outcome State Fault Refusal :=
  .next (s.alive fun s => s.canCommitCmd c b)

def execCanTxEnd (c : CanId) (r : TxResult) (s : State) : Host.Outcome State Fault Refusal :=
  .next (s.alive fun s => s.canTxEndCmd c r)

def execCanBusError (c : CanId) (dtec drec : Nat) (s : State) : Host.Outcome State Fault Refusal :=
  .next (s.alive fun s => s.canBusErrorCmd c dtec drec)

def execBusOffRecovery (c : CanId) (s : State) : Host.Outcome State Fault Refusal :=
  .next (s.alive fun s => s.busOffRecoveryCmd c)

def execIntegrationDone (c : CanId) (s : State) : Host.Outcome State Fault Refusal :=
  .next (s.alive fun s => s.integrationDoneCmd c)

def execCanEnable (m : Master) (c : CanId) (init : Bool) (s : State) : Host.Outcome State Fault Refusal :=
  .next (s.alive fun s => s.writeCmd m (canOff c.val)
    (fun s => s.canCtrl c (setBit (setBit (s.reg (canOff c.val)) 0 true) 1 init)))

def execCanDisable (m : Master) (c : CanId) (s : State) : Host.Outcome State Fault Refusal :=
  .next (s.alive fun s => s.writeCmd m (canOff c.val) (fun s => s.canCtrl c (setBit (s.reg (canOff c.val)) 0 false)))

def execCanInitSet (m : Master) (c : CanId) (s : State) : Host.Outcome State Fault Refusal :=
  .next (s.alive fun s => s.writeCmd m (canOff c.val) (fun s => s.canCtrl c (setBit (s.reg (canOff c.val)) 1 true)))

def execCanInitRelease (m : Master) (c : CanId) (s : State) : Host.Outcome State Fault Refusal :=
  .next (s.alive fun s => s.writeCmd m (canOff c.val) (fun s => s.canCtrl c (setBit (s.reg (canOff c.val)) 1 false)))

def execCanTxreq (m : Master) (c : CanId) (v : BitVec 32) (s : State) : Host.Outcome State Fault Refusal :=
  .next (s.alive fun s => s.writeCmd m (canOff c.val + 0x22) (fun s => s.canTxreq c v))

def execCanTxcan (m : Master) (c : CanId) (v : BitVec 32) (s : State) : Host.Outcome State Fault Refusal :=
  .next (s.alive fun s => s.writeCmd m (canOff c.val + 0x26) (fun s => s.canTxcan c v))

def execCanFifoPop (m : Master) (c : CanId) (f : Fin 2) (s : State) : Host.Outcome State Fault Refusal :=
  .next (s.alive fun s => s.writeCmd m (canOff c.val + 0x42 + 4 * f.val) (fun s => s.fifoPop c f))

def execCanHpClear (m : Master) (c : CanId) (v : Word) (s : State) : Host.Outcome State Fault Refusal :=
  .next (s.alive fun s => s.writeCmd m (canOff c.val + 0x48) (fun s => s.hpClear c v))

def execCanWindowOpen (c : CanId) (w : Fin 32) (s : State) : Host.Outcome State Fault Refusal :=
  .next (s.alive fun s => s.windowOpenCmd c w)

def execCanWindowClose (c : CanId) (w : Fin 32) (s : State) : Host.Outcome State Fault Refusal :=
  .next (s.alive fun s => s.windowCloseCmd c w)

def execRefMessage (c : CanId) (s : State) : Host.Outcome State Fault Refusal :=
  .next (s.alive fun s => s.refMessageCmd c)

def execRefTimeout (c : CanId) (s : State) : Host.Outcome State Fault Refusal :=
  .next (s.alive fun s => s.refTimeoutCmd c)

def execCanMxRead (m : Master) (c : CanId) (s : State) : Host.Outcome State Fault Refusal :=
  .next (s.alive fun s => s.writeCmd m (canOff c.val + 0xE2) (fun s => s.mxRead c))

def execCanMxWrite (m : Master) (c : CanId) (s : State) : Host.Outcome State Fault Refusal :=
  .next (s.alive fun s => s.writeCmd m (canOff c.val + 0xE2) (fun s => s.mxWrite c))

/-- A byte write gets an error response (R477). -/
def execCanApertureWrite (m : Master) (sel : ByteSel) (c : CanId) (off : BitVec 13) (v : Word) (s : State) :
    Host.Outcome State Fault Refusal :=
  let o := off.toNat / 2 * 2
  if sel = .word then .next (s.alive fun s => s.writeCmd m (0x74000 + 0x2000 * c.val + o) (fun s => s.canApWrite c o v))
  else .next (s.alive fun s => s.byteWriteCmd m)

end Sys2Proof.Machine
end

