-- ==== Sys2Proof/Machine/Joiner.lean ====
section
/-! DEFINITION. The joiner's moves (R104, R107 to R117), posts (R99), its strike (R98, R101), its runs and its registers
(R123). -/

namespace Sys2Proof.Machine

open Sys2Proof

/-! ## Bit fields of images (R104) -/

/-- The bit of the image, byte by byte from bit 0 of byte 0, that holds bit `j` of a field (R104). -/
def fieldPos (be : Bool) (b w j : Nat) : Nat :=
  if be then let o := b + (w - 1 - j); 8 * (o / 8) + (7 - o % 8) else b + j

/-- A field's value in bytes that begin at byte `first` of the image. -/
def extractField (l : List Byte) (first : Nat) (be : Bool) (b w : Nat) : Nat :=
  (List.range w).foldl (fun x j =>
    let p := fieldPos be b w j
    if (nthD l (p / 8 - first) 0).getLsbD (p % 8) then x + 2 ^ j else x) 0

/-- First byte and number of bytes that a field overlaps. -/
def fieldFirst (b : Nat) : Nat := b / 8
def fieldBytes (b w : Nat) : Nat := (b + w - 1) / 8 - b / 8 + 1

/-- The 16-bit words of the image that a field overlaps, each with the mask of the field's bits and their values. -/
def fieldWords (be : Bool) (b w y : Nat) : List (Nat × Word × Word) :=
  ((List.range ((b + w - 1) / 16 + 1)).filter (fun k => b / 16 ≤ k)).map (fun k =>
    (List.range w).foldl (fun (x : Nat × Word × Word) j =>
      let p := fieldPos be b w j
      if p / 16 = k then (x.1, x.2.1 ||| bitMask (p % 16), if y.testBit j then x.2.2 ||| bitMask (p % 16) else x.2.2)
      else x) (k, 0, 0))

/-! ## Floats (R107) -/

/-- Exponent and fraction bits of binary16 (format 3) and binary32 (format 4). -/
def fltExp (fmt : Nat) : Nat := if fmt = 3 then 5 else 8
def fltFrac (fmt : Nat) : Nat := if fmt = 3 then 10 else 23
def isFlt (fmt : Nat) : Bool := fmt == 3 || fmt == 4

/-- Whether a float is NaN or infinite. -/
def fltBad (fmt raw : Nat) : Bool := bitsAt raw (fltFrac fmt) (fltExp fmt) == 2 ^ fltExp fmt - 1

/-- A finite float times 2^fbits, rounded to nearest with ties to even; subnormals are exact. -/
def fltToInt (fmt raw fbits : Nat) : Int :=
  let fr := fltFrac fmt
  let e := bitsAt raw fr (fltExp fmt)
  let m := bitsAt raw 0 fr + (if e = 0 then 0 else 2 ^ fr)
  let bias := 2 ^ (fltExp fmt - 1) - 1
  let up := max e 1 + fbits
  let down := bias + fr
  let x : Int := if down ≤ up then (m * 2 ^ (up - down) : Nat) else roundEven (m : Nat) (2 ^ (down - up))
  if bitsAt raw (fr + fltExp fmt) 1 = 1 then -x else x

/-- x × 2^-fbits as a float, rounded to nearest with ties to even; beyond the largest finite value that value, and the
flag is set. A negative x that rounds to zero is −0. -/
def intToFlt (fmt fbits : Nat) (x : Int) : Nat × Bool :=
  let fr := fltFrac fmt
  let bias := 2 ^ (fltExp fmt - 1) - 1
  let sign := if x < 0 then 2 ^ (fr + fltExp fmt) else 0
  let n := x.natAbs
  if n = 0 then (0, false)
  else
    -- the biased exponent of the value, at least 1
    let e := max (n.log2 + bias - fbits) 1
    -- the significand in units of 2^(e - bias - fr)
    let up := bias + fr
    let down := e + fbits
    let q := if down ≤ up then n * 2 ^ (up - down) else (roundEven (n : Nat) (2 ^ (down - up))).toNat
    let (e, q) := if q = 2 ^ (fr + 1) then (e + 1, 2 ^ fr) else (e, q)
    if 2 ^ fltExp fmt - 1 ≤ e then (sign + (2 ^ fltExp fmt - 1) * 2 ^ fr - 1, true)
    else (sign + (if q < 2 ^ fr then q else (e - 1) * 2 ^ fr + q), false)

/-! ## The computation of a move (R107) -/

/-- Limit to 96 bits signed, with the flag of a change. -/
def sat96 (x : Int) : Int × Bool :=
  let y := clip (-(2 ^ 95)) (2 ^ 95 - 1) x
  (y, y != x)

/-- Limit to a span, with the flag of a change. -/
def clipF (lo hi x : Int) : Int × Bool :=
  let y := clip lo hi x
  (y, y != x)

/-- x of R107 from the raw field. -/
def sourceValue (d : Desc) (p : Param) (raw : Nat) : Int × Bool :=
  if d.srcFmt = 1 then (asInt raw d.srcW, false)
  else if d.srcFmt = 2 then (if raw = 0 then 0 else 1, false)
  else if isFlt d.srcFmt then sat96 (fltToInt d.srcFmt raw p.fbits)
  else ((raw : Int), false)

/-- The linear scale (R107). -/
def scaled (d : Desc) (p : Param) (x : Int) : Int × Bool :=
  if d.scale then
    let a := sat96 (x * p.factor / 2 ^ p.shift)
    let b := sat96 (a.1 + p.offset)
    (b.1, a.2 || b.2)
  else (x, false)

/-- The sink bits of x (R107). -/
def sinkValue (d : Desc) (p : Param) (x : Int) : Nat × Bool :=
  if d.dstFmt = 0 then let y := clipF 0 (2 ^ d.dstW - 1) x; (y.1.toNat, y.2)
  else if d.dstFmt = 1 then
    let y := clipF (-(2 ^ (d.dstW - 1))) (2 ^ (d.dstW - 1) - 1) x
    (ofInt y.1 d.dstW, y.2)
  else if d.dstFmt = 2 then (if x = 0 then 0 else 1, false)
  else intToFlt d.dstFmt p.fbits x

/-- Whether the transition that EDGE selects has occurred (R114). -/
def edgeFires (edge : Nat) (last level : Bool) : Bool :=
  (edge.testBit 0 && !last && level) || (edge.testBit 1 && last && !level)

/-- The converted value of a readable source field, whether it was limited, and the hidden state after it (R107, R114). -/
def convertMove (d : Desc) (p : Param) (raw : Nat) (h : SigState) : Nat × Bool × SigState :=
  if d.srcFmt = 5 then (raw % 2 ^ d.dstW, false, h)
  else
    let x := sourceValue d p raw
    if d.edge ≠ 0 then
      let level := x.1 != 0
      (b2n (h.lastKnown && edgeFires d.edge h.last level), false, { h with last := level, lastKnown := true })
    else
      let y := scaled d p x.1
      let z := if d.limit then clipF p.limLo p.limHi y.1 else (y.1, false)
      let r := sinkValue d p z.1
      (r.1 % 2 ^ d.dstW, x.2 || y.2 || z.2 || r.2, h)

/-! ## The source of a move (R95, R96, R101, R109) -/

/-- Where a move reads: the buffer, the last good copy in place of it, the received length, and what the image's state
says of its quality. -/
structure MoveSrc where
  buf : Bool
  copy : Option (List Byte)
  len : Nat
  age : Nat
  stale : Bool
  lost : Bool
  supplyInv : Bool
  deriving DecidableEq, Repr

/-- The source of a move from image `i`. -/
def State.moveSrc (s : State) (out : Bool) (i : Nat) : MoveSrc :=
  let x := s.jimage i
  let t := s.image i
  let full := s.imgLen i
  if s.isIntake i then
    { buf := !s.jnr.side, copy := if x.snap.fresh then none else x.good,
      len := if x.snap.fresh then x.snap.len else if x.good.isSome then x.goodLen else full,
      age := x.age, stale := false, lost := x.snap.lost, supplyInv := x.snap.supplyInv }
  else if s.isHVar i then
    if out then
      { buf := t.sealedSide, copy := none, len := full, age := if t.sealed then 0 else min 255 (x.age + 1),
        stale := !t.sealed, lost := false, supplyInv := false }
    else
      { buf := x.hvSide, copy := none, len := full, age := x.age, stale := x.age != 0, lost := false, supplyInv := false }
  else { buf := s.jnr.side, copy := none, len := full, age := 0, stale := false, lost := false, supplyInv := false }

/-- The quality array slot that a move uses, for a buffer (R111). -/
def State.qSlot (s : State) (d : Desc) (buf : Bool) : Option Nat :=
  if d.qidx = 0xFFF then none else (s.imgQBase d.qImg buf).map (fun a => a + 2 * d.qidx)

/-- The quality word that R108 and R109 give before the value is decided: `aw` is the array word of a join-out move,
`conv` a float that is NaN or infinite, `short` a short source. VALID and SUBST of the move, LIMITED and FORCED are
not in it. -/
def derivedQuality (d : Desc) (x : MoveSrc) (aw : Option Word) (conv short : Bool) : Word :=
  let a := aw.getD 0
  let age := min 255 (x.age + fld a 8 8)
  let stale := x.stale || (decide (d.ageMax < 255) && decide (d.ageMax < age))
  let lost := x.lost || age == 255 || conv || short || x.supplyInv
  (a &&& 0x00FE) ||| flag stale 1 ||| flag lost 4 ||| flag x.supplyInv 6 ||| flag conv 7 ||| BitVec.ofNat 16 (age * 256)

/-- What a move writes: the sink bits, the quality word, the hidden state; `held` is asked for where the sink is held
(R112). -/
inductive MoveOut where
  | value (y : Nat) (q : Word) (h : SigState)
  | hold (q : Word)
  deriving DecidableEq, Repr

/-- VALID of a word that is not forced (R108, R109). -/
def withValid (q : Word) (aw : Option Word) : Word :=
  let vouch := match aw with
    | some a => bit a 0
    | none => true
  if vouch && q &&& 0x0016 == 0 then q ||| 1 else q

/-- The decision of R112 to R114: forced value, preset, converted value, or a held sink. `raw` is the source field where
it can be read. -/
def decideMove (d : Desc) (p : Param) (force : Option (BitVec 64)) (aw : Option Word) (q : Word) (raw : Option Nat)
    (h : SigState) : MoveOut :=
  let stale := bit q 1
  let lost := bit q 4
  match force with
  | some v => .value (v.toNat % 2 ^ d.dstW) ((q &&& 0xFFC9) ||| 0x0009) h
  | none =>
    if (lost && (d.subst == 1 || d.subst == 2)) || (stale && d.subst == 2) then
      .value (p.preset % 2 ^ d.dstW) (q ||| 0x0004) h
    else match raw with
      | some r =>
        let c := convertMove d p r h
        .value c.1 (withValid (q ||| flag c.2.1 5) aw) c.2.2
      | none => if d.edge ≠ 0 then .value 0 q h else .hold q

/-! ## One move -/

/-- The signal state after a move that is not carried out (R110): STALE, no VALID, AGE one more, and LOST for an error. -/
def SigState.missed (x : SigState) (lost : Bool) : SigState :=
  let q := (x.quality &&& 0x00FE) ||| 2 ||| flag lost 4
  { x with quality := q ||| BitVec.ofNat 16 (min 255 (fld x.quality 8 8 + 1) * 256) }

def State.missMove (s : State) (d : Nat) (lost : Bool) : State := s.mapSig d (fun x => x.missed lost)

/-- A move that a bank access has stopped (R110). -/
def State.accError (s : State) (d : Nat) : State := ((s.jnrEvent 10).errIdx d).missMove d true

/-- The buffer of a sink that a move writes (R98, R24). -/
def State.sinkBuf (s : State) (i : Nat) : Bool := s.fillSide i

/-- Write a field's words into an image's buffer; the flag tells that no access got an error (R110, R121). -/
def State.writeSink (s : State) (i : Nat) (buf : Bool) (l : List (Nat × Word × Word)) : State × Bool :=
  if s.imgLocal i then
    (l.foldl (fun (s : State) (w : Nat × Word × Word) =>
      let k := s.localKey i buf (2 * w.1)
      let st := s.imgStore i
      let old : Word := s.storeByte st (k + 1) ++ s.storeByte st k
      let new := merge w.2.1 old w.2.2
      let s := if w.2.1 &&& 0x00FF == 0 then s else s.setStoreByte st k (new.truncate 8)
      if w.2.1 &&& 0xFF00 == 0 then s else s.setStoreByte st (k + 1) ((new >>> 8).truncate 8)) s, true)
  else s.engineWords 12 (l.map (fun w => (s.imgBase i buf + 2 * w.1, w.2.1, w.2.2)))

/-- Read the bytes of a field of an image. -/
def State.readField (s : State) (i : Nat) (buf : Bool) (b w : Nat) : State × Option (List Byte) :=
  s.readBuffer 12 i buf (fieldFirst b) (fieldBytes b w)

/-- The end of a move: the sink, the quality word and the array slot are written (R107, R110, R111). -/
def State.finishMove (s : State) (n : Nat) (d : Desc) (y : Nat) (q : Word) (h : SigState) : State :=
  match s.writeSink d.dstImg (s.sinkBuf d.dstImg) (fieldWords d.dstBe d.dstBit d.dstW y) with
  | (s, false) => s.accError n
  | (s, true) =>
    let slot := if d.out then none else s.qSlot d s.jnr.side
    let r := match slot with
      | some a => s.engineWords 12 [(a, 0xFFFF, q)]
      | none => (s, true)
    if r.2 then
      let s := r.1.mapSig n (fun _ => { h with quality := q, wrote := true })
      s.raiseIf (bit q 7) (jnrOff 4) 5
    else r.1.accError n

/-- The array word that a join-out move reads (R109, R111). -/
def State.readSlot (s : State) (d : Desc) (x : MoveSrc) : State × Option (Option Word) :=
  if d.out then
    match s.qSlot d x.buf with
    | some a => match s.engineAccess 12 a .read true none with
      | (s, .ok w) => (s, some (some w))
      | (s, _) => (s, none)
    | none => (s, some none)
  else (s, some none)

/-- The source field's bytes: from the last good copy, or from the image (R19, R112). -/
def State.readSource (s : State) (d : Desc) (x : MoveSrc) : State × Option (List Byte) :=
  match x.copy with
  | some l => (s, some ((l.drop (fieldFirst d.srcBit)).take (fieldBytes d.srcBit d.srcW)))
  | none => s.readField d.srcImg x.buf d.srcBit d.srcW

/-- A move whose tables hold no double error (R107). -/
def State.carryMove (s : State) (n : Nat) (d : Desc) : State :=
  let x := s.moveSrc d.out d.srcImg
  let p := s.param d.param
  match s.readSlot d x with
  | (s, none) => s.accError n
  | (s, some aw) =>
    let short := decide (8 * x.len < d.srcBit + d.srcW)
    let r := if short then (s, some []) else s.readSource d x
    match r with
    | (s, none) => s.accError n
    | (s, some l) =>
      let raw := extractField l (fieldFirst d.srcBit) d.srcBe d.srcBit d.srcW
      let conv := !short && isFlt d.srcFmt && fltBad d.srcFmt raw
      let s := if short then (s.jnrEvent 4).errIdx n else s
      let q := derivedQuality d x aw conv short
      match decideMove d p (s.forceOf n) aw q (if short || conv then none else some raw) (s.sig n) with
      | .value y q h => s.finishMove n d y q h
      | .hold q =>
        match s.readField d.dstImg (!s.sinkBuf d.dstImg) d.dstBit d.dstW with
        | (s, none) => s.accError n
        | (s, some l) =>
          s.finishMove n d (extractField l (fieldFirst d.dstBit) d.dstBe d.dstBit d.dstW) q (s.sig n)

/-- The tables that a move needs, through their codes (R118). -/
def State.moveTables (s : State) (n : Nat) (d : Desc) : State × Bool :=
  let (s, a) := s.tableCheck .img (16 * d.srcImg) 16
  let (s, b) := s.tableCheck .img (16 * d.dstImg) 16
  let (s, c) := if d.param = 0xFFF then (s, true) else s.tableCheck .prm (16 * d.param) 16
  let (s, e) := s.tableCheck .sig n 1
  (s, a && b && c && e)

/-- One move of an enabled descriptor. -/
def State.oneMove (s : State) (n : Nat) (d : Desc) : State :=
  match s.moveTables n d with
  | (s, true) => s.carryMove n d
  | (s, false) => (s.errIdx n).missMove n true

/-! ## Runs (R115 to R117) -/

/-- Whether descriptor `n` takes part in a run: enabled, of the run's phase (R115); one with a double error is a move
that fails (R118). -/
def State.takesPart (s : State) (out : Bool) (n : Nat) : Bool :=
  eccAny s.jnr.dscEcc (8 * n) 8 2 || ((s.desc n).en && (s.desc n).out == out)

/-- The next descriptor of a run that takes part, within `fuel` descriptors of `n`. -/
def State.nextPart (s : State) (out : Bool) : Nat → Nat → Option Nat
  | 0, _ => none
  | f + 1, n => if s.takesPart out n then some n else s.nextPart out f (n + 1)

/-- The sink of descriptor `n`, where it can be read. -/
def State.sinkOf (s : State) (n : Nat) : Option Nat :=
  if eccAny s.jnr.dscEcc (8 * n) 8 2 then none else some (s.desc n).dstImg

/-- The sink of the next move of a run from `n` on. -/
def State.nextSink (s : State) (out : Bool) (n stop : Nat) : Option Nat :=
  (s.nextPart out (stop - n) n).bind s.sinkOf

/-- The joiner seals an image that it produces, before T+P−Q (R67, R69, R117). -/
def State.joinerSeal (s : State) (i : Nat) : State :=
  if s.imgUnc i then s.jnrEvent 9
  else if s.sealsCount && !(s.image i).sealed then s.sealImage i
  else s

/-- The end of join-out: its high-water mark (R77). -/
def State.endJoinOut (s : State) (r : JRun) : State :=
  (s.highWater 13 (s.time.beat - r.start)).mapJnr (fun j => { j with run := none })

/-- After a move into `sink`: the run goes on at `n`; where the next move has another sink this one is complete, and
join-out seals it (R117); join-out ends with its last move. -/
def State.afterMove (s : State) (r : JRun) (n : Nat) (sink : Option Nat) : State :=
  let more := s.nextPart r.out (r.stop - n) n
  let (s, done) := match sink with
    | some i =>
      if s.nextSink r.out n r.stop == some i then (s, r.done)
      else (if r.out then s.joinerSeal i else s, i :: r.done)
    | none => (s, r.done)
  let r := { r with next := more.getD r.stop, sink := sink, done := done }
  if r.out && more.isNone then s.endJoinOut r else s.mapJnr (fun j => { j with run := some r })

/-- JOIN_MOVE: the next move of the run in progress. A move of join-out at or after T+P−Q is not begun (R66). -/
def State.joinMove (s : State) : State :=
  match s.jnr.run with
  | none => s
  | some r =>
    if r.out && decide (s.deadline ≤ s.time.beat) then s
    else match s.nextPart r.out (r.stop - r.next) r.next with
      | none => s
      | some n =>
        let (s, ok) := s.tableCheck .dsc (8 * n) 8
        if ok then
          let d := s.desc n
          if r.done.contains d.dstImg then
            (((s.jnrEvent 6).errIdx n).missMove n false).afterMove r (n + 1) none
          else (s.oneMove n d).afterMove r (n + 1) (some d.dstImg)
        else ((s.errIdx n).missMove n true).afterMove r (n + 1) none

/-- Start a run of the mode in force: its first descriptor that takes part, or its end. -/
def State.startRun (s : State) (out : Bool) : State :=
  let m := s.tick.mode.val
  let first := s.runFirst m out
  let stop := first + s.runCount m out
  let r : JRun :=
    { out := out, next := (s.nextPart out (stop - first) first).getD stop, stop := stop, sink := none, done := [],
      start := s.time.beat, expired := false }
  s.mapJnr (fun j => { j with run := some r })

/-- The sinks of a run. -/
def State.runSinks (s : State) (r : JRun) : List Nat :=
  ((List.range (r.stop - r.next)).filter (fun k => s.takesPart r.out (r.next + k))).filterMap
    (fun k => s.sinkOf (r.next + k))

/-- Join-out starts: a transmit image of the joiner with no move in the run is sealed at once, unchanged (R117); a run
with no moves ends in its beat (R122). -/
def State.startJoinOut (s : State) : State :=
  let s := s.startRun true
  match s.jnr.run with
  | none => s
  | some r =>
    let sinks := s.runSinks r
    let s := s.imgIds.foldl (fun s i =>
      if s.isTransmit i && s.imgProducer i == 12 && !sinks.contains i then s.joinerSeal i else s) s
    let s := s.mapJnr (fun j => { j with outStarted := true })
    if r.next = r.stop then s.endJoinOut r else s

/-- The moves left of an abandoned join-out are not carried out (R66, R110). -/
def State.missRest (s : State) (r : JRun) : State :=
  ((List.range (r.stop - r.next)).filter (fun k => s.takesPart r.out (r.next + k))).foldl
    (fun s k => s.missMove (r.next + k) false) s

/-- Join-out stops at T+P−Q (R66, R77). -/
def State.abandonJoinOut (s : State) : State :=
  match s.jnr.run with
  | some r => if r.out then ((s.missRest r).jnrEvent 7).endJoinOut r else s
  | none => s

/-! ## Posts (R99) -/

/-- The POST_LEN of a master (R99): 0 means 32,768. -/
def State.postLen (s : State) (m : Master) : Nat :=
  if s.jnr.postLen[m] = 0 then 32768 else s.jnr.postLen[m].toNat

/-- A write of JNR_POST_LEN. -/
def State.jnrPostLen (s : State) (m : Master) (v : Word) : State :=
  s.mapJnr (fun j => { j with postLen := upd j.postLen m (fun _ => v) })

/-- A post of an image (R99). -/
def State.postImage (s : State) (m : Master) (i len : Nat) (buf lost supplyInv : Bool) : State :=
  if s.imgUnc i || !s.isIntake i || s.imgLocal i || s.imgProducer i != m.val || decide (s.imgLen i < len) then
    s.jnrEvent 3
  else if buf != s.jnr.side then s.jnrEvent 2
  else s.mapJImage i (fun x =>
    { x with filling := { fresh := !lost, lost := lost, supplyInv := supplyInv, len := len } })

/-- A write of JNR_POST (R123). -/
def State.jnrPost (s : State) (m : Master) (v : Word) : State :=
  s.postImage m (fld v 0 10) (s.postLen m) (bit v 10) (bit v 11) (bit v 12)

/-! ## The strike (R98, R101, R24, R96) -/

/-- The span of an intake image closes: its snapshot, its age, and its last good data (R19, R101). -/
def State.strikeIntake (s : State) (i : Nat) : State :=
  let x := s.jimage i
  let side := s.jnr.side
  let fresh := x.filling.fresh
  let good := if fresh then some (s.bufferBytes i side (s.imgLen i)) else
    some (x.good.getD (s.bufferBytes i side (s.imgLen i)))
  s.mapJImage i (fun x => { x with
    snap := x.filling, filling := Span.reset, age := if fresh then 0 else min 255 (x.age + 1), good := good,
    goodLen := if fresh then x.filling.len else if x.good.isSome then x.goodLen else s.imgLen i })

/-- A hearth variable image at a strike: its age, and the buffer that join-in reads (R96, R101). -/
def State.strikeHVar (s : State) (i : Nat) : State :=
  let t := s.image i
  s.mapJImage i (fun x => { x with
    hvSide := t.sealedSide, age := if t.sealedPrev then 0 else min 255 (x.age + 1) })

/-- A transmit image at a strike: it latches if it was sealed in the tick before, but not at the first strike after a
start (R24, R89); a local one that latches turns over its buffers. -/
def State.strikeTransmit (s : State) (i : Nat) : State :=
  let fresh := (s.image i).sealedPrev && !s.tick.first
  s.mapImage i (fun x => { x with latched := fresh, fill := if fresh && s.imgLocal i then !x.fill else x.fill })

/-- The joiner's strike: every image by its role, then SIDE toggles (R98, R101). -/
def State.jnrStrike (s : State) : State :=
  let s := s.imgIds.foldl (fun s i =>
    if s.isIntake i then s.strikeIntake i
    else if s.isHVar i then s.strikeHVar i
    else if s.isTransmit i then s.strikeTransmit i
    else s) s
  let s := s.mapTick (fun t => { t with staleOn := !t.first })
  s.mapJnr (fun j => { j with
    side := !j.side, sig := Sparse.mapAll SigState.reset (fun x => { x with wrote := false }) j.sig })

/-! ## Registers (R123) -/

/-- The quality word of a descriptor as it reads: STALE and no VALID while the last strike did not latch its sink and no
move has written it since (R110). -/
def State.qualityWord (s : State) (n : Nat) : Word :=
  let x := s.sig n
  let i := (s.desc n).dstImg
  if s.tick.staleOn && (s.desc n).en && s.isTransmit i && !(s.image i).latched && !x.wrote then
    (x.quality ||| 2) &&& 0xFFFE
  else x.quality

def jnrSpecs : List RegSpec :=
  [{ base := 0x30000, rw := 1 }, { base := 0x30004, rw := 0, w1c := 0x7FF }, { base := 0x30006, rw := 0x7FF },
   { base := 0x30010, pair := true, rwHi := 3 }, { base := 0x30020, n := 8 }, { base := 0x30030, pair := true, rwHi := 3 },
   { base := 0x30040, rw := 0x3FF }, { base := 0x30060, n := 16 }, { base := 0x30080, rw := 0xFFF },
   { base := 0x300A0, n := 16 }, { base := 0x300C0, rw := 0, pair := true },
   { base := 0x30100, pair := true, rwHi := 3, n := 1, m := 8, outer := 16 },
   { base := 0x30104, pair := true, rwHi := 7, m := 8, outer := 16 },
   { base := 0x30108, pair := true, rwHi := 3, m := 8, outer := 16 },
   { base := 0x3010C, pair := true, rwHi := 7, m := 8, outer := 16 },
   { base := 0x30400, rw := 1, m := 64, outer := 16 }, { base := 0x30402, pair := true, rwHi := 3, m := 64, outer := 16 },
   { base := 0x30406, n := 4, m := 64, outer := 16 }]

/-- A write to a register of the joiner. A change of a force register awaits T+0, which the held word of a pair does not
yet (R113, R481). -/
def State.jnrWrite (s : State) (m : Master) (off : Nat) (v : Word) : State :=
  if off = 0x30008 then s.jnrPostLen m v
  else if off = 0x3000A then s.jnrPost m v
  else if off = 0x30014 then s.stageCmd .dsc v
  else if off = 0x30042 then s.stageCmd .img v
  else if off = 0x30082 then s.stageCmd .prm v
  else if 0x30100 ≤ off ∧ off < 0x30180 ∧ off % 4 = 2 then
    s.modeTable ((off - 0x30100) / 16) (fun s => s.tableWrite jnrSpecs m off v)
  else if off = 0x30000 ∨ (0x30400 ≤ off ∧ off < 0x30800 ∧ off % 16 ≠ 2 ∧ off % 16 ≠ 14) then
    (s.tableWrite jnrSpecs m off v).mapJnr (fun j => { j with frcPend := true })
  else s.tableWrite jnrSpecs m off v

/-- The registers of the joiner as they read at present. -/
def State.jnrLive (s : State) (off : Nat) : Word :=
  let j := s.jnr
  if off = 0x30002 then
    flag j.side 0 ||| (match j.run with
      | some r => if r.out then 4 else 2
      | none => 0) ||| flag j.heldDsc.isSome 3 ||| flag j.heldImg.isSome 4 ||| flag j.heldPrm.isSome 5 |||
      flag j.frcPend 6
  else if off = 0x30034 then s.qualityWord (s.pair (jnrOff 0x30) % 262144)
  else if off = 0x300C0 ∨ off = 0x300C2 then wordOf j.errIdx.toNat ((off - 0x300C0) / 2)
  else if off = 0x30008 ∨ off = 0x3000A ∨ off = 0x30014 ∨ off = 0x30042 ∨ off = 0x30082 then 0
  else s.reg off

/-- A read of a register of the joiner. -/
def State.jnrRead (s : State) (m : Master) (off : Nat) : State × Word := s.tableRead jnrSpecs State.jnrLive m off

/-! ## Commands -/

def execJoinMove (s : State) : Host.Outcome State Fault Refusal := .next (s.alive fun s => s.joinMove)

def execTckSeal (m : Master) (v : Word) (s : State) : Host.Outcome State Fault Refusal :=
  .next (s.alive fun s => s.writeCmd m 0x20020 (fun s => s.tckSeal m v))

def execBudgetExpiry (h : HearthId) (s : State) : Host.Outcome State Fault Refusal :=
  .next (s.alive fun s => s.budgetExpiry h)

def execJnrPost (m : Master) (v : Word) (s : State) : Host.Outcome State Fault Refusal :=
  .next (s.alive fun s => s.writeCmd m (jnrOff 0xA) (fun s => s.jnrPost m v))

def execJnrPostLen (m : Master) (v : Word) (s : State) : Host.Outcome State Fault Refusal :=
  .next (s.alive fun s => s.writeCmd m (jnrOff 8) (fun s => s.jnrPostLen m v))

def execJnrDscRead (m : Master) (s : State) : Host.Outcome State Fault Refusal :=
  .next (s.alive fun s => s.writeCmd m (jnrOff 0x14) (fun s => s.stageRead .dsc))

def execJnrDscWrite (m : Master) (s : State) : Host.Outcome State Fault Refusal :=
  .next (s.alive fun s => s.writeCmd m (jnrOff 0x14) (fun s => s.stageWrite .dsc))

def execJnrImgRead (m : Master) (s : State) : Host.Outcome State Fault Refusal :=
  .next (s.alive fun s => s.writeCmd m (jnrOff 0x42) (fun s => s.stageRead .img))

def execJnrImgWrite (m : Master) (s : State) : Host.Outcome State Fault Refusal :=
  .next (s.alive fun s => s.writeCmd m (jnrOff 0x42) (fun s => s.stageWrite .img))

def execJnrPrmRead (m : Master) (s : State) : Host.Outcome State Fault Refusal :=
  .next (s.alive fun s => s.writeCmd m (jnrOff 0x82) (fun s => s.stageRead .prm))

def execJnrPrmWrite (m : Master) (s : State) : Host.Outcome State Fault Refusal :=
  .next (s.alive fun s => s.writeCmd m (jnrOff 0x82) (fun s => s.stageWrite .prm))

end Sys2Proof.Machine
end

