-- ==== Sys2Proof/Machine/Motion.lean ====
section
/-! DEFINITION. The motion unit (13_motion_unit.md): set points, profiles, interpolation, current control, encoders,
dovetail groups, faults, and the MOT_ registers. Positions are exact: `posx` counts 2^-15 of 1/65536 step. -/

namespace Sys2Proof.Machine

open Sys2Proof

/-! ## Registers and parameters in force (R371) -/

def motOff (x : Nat) : Nat := 0xA0000 + 0x100 * x
def motGrp (g : Nat) : Nat := 0xA0C00 + 0x20 * g

/-- MOT_CTRL.EN. -/
def State.motEn (s : State) : Bool := s.rbit 0xA0F00 0

/-- A parameter in force: what the register held at the last update (R371). -/
def State.mpar (s : State) (off : Nat) : Word := Sparse.get 0 s.mot.par off
def State.mfld (s : State) (off lo n : Nat) : Nat := fld (s.mpar off) lo n

/-- Change the motion unit, an axis, a group. -/
def State.mapMot (s : State) (f : Motion → Motion) : State := { s with mot := f s.mot }
def State.mapAxis (s : State) (x : AxisId) (f : Axis → Axis) : State :=
  s.mapMot (fun m => { m with axes := upd m.axes x f })
def State.mapGrp (s : State) (g : Fin 6) (f : Dovetail → Dovetail) : State :=
  s.mapMot (fun m => { m with groups := upd m.groups g f })

/-- Parameter writes take effect at an update (R371). -/
def State.latchPar (s : State) : State :=
  s.mapMot (fun m => { m with par := s.regs.filter (fun e => decide (0xA0000 ≤ e.1) && decide (e.1 < 0xA2000)) })

/-- Events of an axis and of a group (R371). -/
def State.axisEvent (s : State) (x : AxisId) (i : Nat) : State := s.raise (motOff x.val + 4) i
def State.gearEvent (s : State) (g : Fin 6) (i : Nat) : State := s.raise (motGrp g.val + 0xC) i

/-- COARSE, and a coarse step in position units and in microsteps (R356). -/
def State.coarse (s : State) (x : AxisId) : Nat := min 10 (s.mfld (motOff x.val) 2 4)
def State.coarseUnits (s : State) (x : AxisId) : Nat := 2 ^ (16 - s.coarse x)
def State.coarseMicro (s : State) (x : AxisId) : Nat := 1024 / 2 ^ s.coarse x

/-- The commanded position in 1/65536 step, and the coarse boundary at or below a position (R355, R356). -/
def Axis.pos (a : Axis) : Int := a.posx / 32768
def coarseOf (units : Nat) (posx : Int) : Int := posx / (units * 32768 : Nat)

/-- An interpolation is in progress; the axis moves; standstill (R354, R358). -/
def Axis.interp (a : Axis) : Bool := decide (a.mDone < a.mCount) || !a.steps.isEmpty
def Axis.moving (a : Axis) : Bool := decide (0 < a.v) || a.interp

/-- An axis is de-energised in mode 0, with OC, when it is free, and while the unit is off (R347, R367). -/
def State.energised (s : State) (x : AxisId) : Bool :=
  let a := s.mot.axes[x]
  s.motEn && a.mode != 0 && !a.oc && a.stopped != .free

/-! ## The interpolator (R358) -/

/-- m moves to a new place: the full-step boundaries crossed are counted for R366, the place is kept for R361. -/
def State.moveM (s : State) (x : AxisId) (m : Int) : State :=
  s.mapAxis x (fun a => { a with
    m := m, still := 0, mLog := (s.time.beat, m) :: a.mLog
    stallCount := a.stallCount + (m / 1024 - a.m / 1024).natAbs })

/-- `q` coarse steps arrive in the present beat (R358). -/
def State.emitSteps (s : State) (x : AxisId) (q : Int) : State :=
  if q = 0 then s
  else
    let a := s.mot.axes[x]
    let s := if a.m = a.mTarget then s else s.moveM x a.mTarget
    let limit := 16 * max 1 (s.mpar (motOff x.val + 0x24)).toNat
    s.mapAxis x (fun a => { a with
      mTarget := a.mTarget + q * s.coarseMicro x
      mFrom := s.time.beat
      mDelta := min limit (s.time.beat - a.stepBeat)
      mCount := q.natAbs * s.coarseMicro x
      mDone := 0
      mUp := decide (0 < q)
      stepBeat := s.time.beat })

/-- MICROSTEP: the next microstep at its beat b0 + ⌊j × Δ / N⌋ (R358). -/
def State.microstepCmd (s : State) (x : AxisId) : State :=
  let a := s.mot.axes[x]
  if a.mDone < a.mCount then
    let s := s.until (a.mFrom + (a.mDone + 1) * a.mDelta / a.mCount)
    (s.moveM x (if a.mUp then a.m + 1 else a.m - 1)).mapAxis x (fun a => { a with mDone := a.mDone + 1 })
  else s

/-- COARSE_STEP: the coarse boundaries that the profile reaches in the next beat at which it reaches one (R356). -/
def State.coarseStepCmd (s : State) (x : AxisId) : State :=
  match s.mot.axes[x].steps with
  | [] => s
  | (due, up) :: r =>
    let q := 1 + (r.takeWhile (fun e => e.1 == due)).length
    let s := s.until due
    (s.mapAxis x (fun a => { a with steps := a.steps.drop q })).emitSteps x (if up then (q : Int) else -(q : Int))

/-- A slave or an external axis moves to a commanded position: the coarse steps on the way are emitted (R357, R364). -/
def State.commandPos (s : State) (x : AxisId) (posx : Int) : State :=
  let u := s.coarseUnits x
  let q := coarseOf u posx - coarseOf u s.mot.axes[x].posx
  (s.mapAxis x (fun a => { a with posx := posx })).emitSteps x q

/-- EXTERNAL_STEP: a mode 2 axis moves one coarse step (R357); a stopped axis does not follow (R367). -/
def State.externalStepCmd (s : State) (x : AxisId) (dir : Bool) : State :=
  let a := s.mot.axes[x]
  if a.mode = 2 ∧ a.stopped = .none then
    let d : Int := s.coarseUnits x * 32768
    s.commandPos x (if dir then a.posx + d else a.posx - d)
  else s

/-- The rate of the interpolator in 16.16 full steps per second, 0 with none in progress (R352, R361). -/
def Axis.rate (a : Axis) : Nat := if a.mDone < a.mCount then a.mCount * 2 ^ 35 / max 1 a.mDelta else 0

/-! ## Angles and currents (R359 to R361) -/

/-- The electrical angle of a microstep position (R359). -/
def State.angleOf (s : State) (x : AxisId) (m : Int) : Nat :=
  ((if s.rbit (motOff x.val) 1 then -m else m) % 4096).toNat

/-- An entry of the sine table (R359). -/
def State.sine (s : State) (i : Nat) : Int := (s.mpar (0xA1000 + 2 * i)).toNat

/-- The factors a and b of an angle (R359). -/
def State.phaseFactors (s : State) (θ : Nat) : Int × Int :=
  let r := θ % 1024
  let sn := s.sine r
  let cs := s.sine (1024 - r)
  match θ / 1024 with
  | 0 => (cs, sn)
  | 1 => (-sn, cs)
  | 2 => (-cs, -sn)
  | _ => (sn, -cs)

/-- A phase command, truncated toward zero (R359). -/
def phaseCmd (iSet : Nat) (f : Int) : Int := Int.tdiv (iSet * f) 65536

/-- One phase of the current loop: the new integral and duty (R360). -/
def State.currentLoop (s : State) (x : AxisId) (cmd meas integ : Int) : Int × Int :=
  let o := motOff x.val
  let dmax : Int := min 16384 (s.mpar (o + 0x16)).toNat
  let e := cmd - meas
  let integ := clip (-dmax) dmax (integ + (s.mpar (o + 0x14)).toNat * e / 4096)
  (integ, clip (-dmax) dmax ((s.mpar (o + 0x12)).toNat * e / 256 + integ))

/-- The sum of the samples of a slot over the rounds kept (R349). -/
def Conv.sum (c : Conv) (slot : Nat) : Int := (c.rounds.map (fun r => nthD r slot 0)).foldl (· + ·) 0

/-- The last sample of a slot. -/
def Conv.latest (c : Conv) (slot : Nat) : Int :=
  match c.round[slot]? with
  | some v => v
  | none => match c.rounds with
    | r :: _ => nthD r slot 0
    | [] => 0

/-- The converter of an axis and the slot of its phase A (R346, R349). -/
def convOf (x : AxisId) : Fin 4 := ⟨x.val / 3, by omega⟩
def slotA (x : AxisId) : Nat := 2 * (x.val % 3)

/-- The mean current of a phase (R349); before 16 rounds it is a free value. -/
def State.phaseMean (s : State) (x : AxisId) (b : Nat) : Int :=
  let c := s.mot.convs[convOf x]
  if c.rounds.length < 16 then Config.earlyCurrent (24 * s.free + 2 * x.val + b)
  else (c.sum (slotA x + b) - c.sum 6) / 16

/-- The zero and reference readings of a converter are out of their spans (R368). -/
def Conv.bad (c : Conv) : Bool :=
  c.rounds.length == 16 &&
  (decide (512 < (c.sum 6).natAbs) || decide (c.sum 7 < 1856 * 16) || decide (1984 * 16 < c.sum 7))

/-- I_CEIL, not below I_BASE (R371). -/
def State.iCeil (s : State) (x : AxisId) : Nat := max (s.mfld (motOff x.val + 0xC) 0 11) (s.mfld (motOff x.val + 0xA) 0 11)

/-- The position of m at a beat of the span that ends now (R361). -/
def Axis.mAt (a : Axis) (b : Nat) : Int :=
  match a.mLog.find? (fun e => decide (e.1 ≤ b)) with
  | some e => e.2
  | none => a.m

/-- The lag of an axis at an update, 0 to 1,023 (R361). -/
def State.lagOf (s : State) (x : AxisId) (prev : Nat) (ia ib : Int) : Nat :=
  let a := s.mot.axes[x]
  let θm : Int := Config.currentAngle ia ib % 4096
  let θc : Int := s.angleOf x (a.mAt ((prev + s.time.beat) / 2))
  let d := if a.mUp then θc - θm else θm - θc
  (clip 0 1023 (asInt (d % 4096).toNat 12)).toNat

/-- Whether the lag is held at 0 (R361). -/
def State.lagHeld (s : State) (x : AxisId) (ia ib : Int) : Bool :=
  let a := s.mot.axes[x]
  decide (a.rate < (s.mpar (motOff x.val + 0x1C)).toNat * 65536) || decide (4 * max ia.natAbs ib.natAbs < a.iSet)

/-- The measurements of an axis at an update: currents, lag and current set point; `still` counts the spans between
updates in which no microstep moved (R349, R361). -/
def State.measureAxis (s : State) (prev : Nat) (x : AxisId) : State :=
  let o := motOff x.val
  let ia := s.phaseMean x 0
  let ib := s.phaseMean x 1
  let sh := s.mfld (o + 0x18) 12 3
  let lagF := if s.lagHeld x ia ib then 0
    else let f : Int := s.mot.axes[x].lagF; (f + (s.lagOf x prev ia ib - f) / 2 ^ sh).toNat
  let still := if 1 < s.mot.axes[x].mLog.length then 0 else s.mot.axes[x].still + 1
  let iSet := if decide (64 ≤ still) || s.mot.axes[x].frozen then s.mfld (o + 8) 0 11
    else min (s.mfld (o + 0xA) 0 11 + (s.mpar (o + 0xE)).toNat * lagF / 256) (s.iCeil x)
  s.mapAxis x (fun a => { a with ia := ia, ib := ib, lagF := lagF, still := still, iSet := iSet })

/-! ## Stops (R367) -/

/-- The lead axis of a group, and whether an axis is its lead or one of its slaves (R363). -/
def State.grpLead (s : State) (g : Fin 6) : Option AxisId := finOf 12 (s.mfld (motGrp g.val) 4 4)
def State.grpSlave (s : State) (g : Fin 6) (x : AxisId) : Bool :=
  s.mot.axes[x].mode == 3 && s.mfld (motOff x.val) 6 3 == g.val
def State.grpMember (s : State) (g : Fin 6) (x : AxisId) : Bool := s.grpLead g == some x || s.grpSlave g x

def StopPol.rank : StopPol → Nat
  | .none => 0
  | .decel => 1
  | .hold => 2
  | .free => 3

/-- The policy of a code: 3 is taken as FREE (R367). -/
def stopPolOf (c : Nat) : StopPol := if c = 0 then .decel else if c = 1 then .hold else .free

/-- The commanded position of an axis is frozen where it stands; the interpolator still trails to it (R358, R367). -/
def Axis.freeze (a : Axis) : Axis := { a with v := 0, frozen := true }

/-- A policy is applied to an axis: a stronger one replaces a weaker one; FREE takes effect at once (R367). -/
def State.stopAxis (s : State) (pol : StopPol) (x : AxisId) : State :=
  if pol.rank ≤ s.mot.axes[x].stopped.rank then s
  else s.mapAxis x (fun a => let a := { a with stopped := pol }; if pol = .free then a.freeze else a)

/-- An independent axis applies its own policy; without a profile DECEL acts as HOLD (R367). -/
def State.stopAlone (s : State) (x : AxisId) : State :=
  let pol := stopPolOf (s.mfld (motOff x.val) 9 2)
  s.stopAxis (if pol = .decel ∧ s.mot.axes[x].mode ≠ 1 then .hold else pol) x

/-- The policy of a group is applied to its lead and slaves (R367). -/
def State.stopGroup (s : State) (who : Option AxisId) (g : Fin 6) : State :=
  let pol := stopPolOf (s.mfld (motGrp g.val) 8 2)
  let pol := if pol = .decel ∧ s.grpLead g = none then .hold else pol
  let s := (finList 12).foldl (fun s x => if s.grpMember g x then s.stopAxis pol x else s) s
  (s.mapGrp g (fun d => { d with stopped := true, faulty := match who with
    | some x => x.val
    | none => d.faulty })).gearEvent g 2

/-- The engaged groups that an axis belongs to. -/
def State.engagedOf (s : State) (x : AxisId) : List (Fin 6) :=
  (finList 6).filter (fun g => s.mot.groups[g].engaged && s.grpMember g x)

/-- A fault on an axis: its groups follow their policies, an independent axis its own (R367). -/
def State.axisFault (s : State) (x : AxisId) : State :=
  match s.engagedOf x with
  | [] => s.stopAlone x
  | gs => gs.foldl (State.stopGroup · (some x) ·) s

/-! ## Converters (R349, R368) -/

/-- An overcurrent sample: OC, the axis is de-energised, and R367 (R368, R370). -/
def State.overcurrent (s : State) (x : AxisId) : State :=
  let s := (s.mapAxis x (fun a => { a.freeze with oc := true, ocBeat := some s.time.beat })).axisEvent x 1
  s.axisFault x

/-- Whether a sample is beyond I_TRIP. -/
def State.overTrip (s : State) (x : AxisId) (v : Int) : Bool := decide (s.mfld (motOff x.val + 0x10) 0 11 < v.natAbs)

/-- The next end of a slot of a converter: the present grid point if it has not been taken, else the next (R349). -/
def State.slotEnd (s : State) (c : Fin 4) : Nat :=
  let e := s.time.beat / 128 * 128
  if s.mot.convs[c].last < e then e else e + 128

/-- A sample enters the round in progress; the eighth completes it. -/
def Conv.take (c : Conv) (beat : Nat) (v : Int) : Conv :=
  let k := (beat / 128 + 7) % 8
  let r := if k = 0 then [v] else if c.round.length = k then c.round ++ [v] else []
  if r.length = 8 then { c with last := beat, round := [], rounds := r :: c.rounds.take 15 }
  else { c with last := beat, round := r }

/-- CONVERTER_SLOT: a slot ends with a sample (R349). -/
def State.converterSlotCmd (s : State) (c : Fin 4) (sample : BitVec 12) : State :=
  if s.motEn then
    let e := s.slotEnd c
    let k := (e / 128 + 7) % 8
    let v := asInt sample.toNat 12
    let s := (s.until e).mapMot (fun m => { m with convs := upd m.convs c (fun y => y.take e v) })
    match finOf 12 (3 * c.val + k / 2) with
    | some x => if k < 6 ∧ s.overTrip x v then s.overcurrent x else s
    | none => s
  else s

/-! ## Encoders and gears (R362, R364, R365) -/

/-- P of a slave whose origin is `p0`, at a master count (R364). -/
def Dovetail.gearPos (d : Dovetail) (p0 : Int) (e : BitVec 32) : Int := p0 + (e - d.e0).toInt * d.num * 256 / d.den

/-- The slaves of a group follow the master count (R364). -/
def State.gearFollow (s : State) (e : BitVec 32) (g : Fin 6) : State :=
  let d := s.mot.groups[g]
  d.p0.foldl (fun s q => match finOf 12 q.1, q.2 with
    | some x, some p0 =>
      if s.grpSlave g x && !s.mot.axes[x].frozen then s.commandPos x (d.gearPos p0 e * 32768) else s
    | _, _ => s) s

/-- A schedule entry fires (R365). -/
def State.fireEntry (s : State) (g : Fin 6) (x : Sched) (isB : Bool) : State :=
  let s := s.mapGrp g (fun d => { d with
    p0 := d.p0.map (fun q => (q.1, q.2.map (fun p => d.gearPos p x.sw)))
    e0 := x.sw, num := x.num, den := max 1 x.den
    armedA := none, armedB := if isB then none else d.armedB
    doneA := d.doneA || !isB, doneB := d.doneB || isB })
  s.gearEvent g (if isB then 1 else 0)

/-- Armed entries whose switch count is reached fire, A before B (R365). -/
def State.fireEntries (s : State) (e : BitVec 32) (g : Fin 6) : State :=
  let s := match s.mot.groups[g].armedA with
    | some a => if a.sw = e then s.fireEntry g a false else s
    | none => s
  match s.mot.groups[g].armedA, s.mot.groups[g].armedB with
  | none, some b => if b.sw = e then s.fireEntry g b true else s
  | _, _ => s

/-- The master encoder of a group (R363). -/
def State.grpMaster (s : State) (g : Fin 6) : Nat := s.mfld (motGrp g.val) 0 4

/-- The engaged groups of a master encoder. -/
def State.mastered (s : State) (x : AxisId) : List (Fin 6) :=
  (finList 6).filter (fun g => s.mot.groups[g].engaged && s.grpMaster g == x.val)

/-- The master count of a group has changed: its entries fire, then its slaves follow the new line (R364, R365). -/
def State.masterMoved (s : State) (x : AxisId) : State :=
  (s.mastered x).foldl (fun s g => (s.fireEntries s.mot.axes[x].enc g).gearFollow s.mot.axes[x].enc g) s

/-- Filtered edges on both encoder inputs in one beat (R362, R368). -/
def State.encoderError (s : State) (x : AxisId) : State :=
  let s := (s.mapAxis x (fun a => { a with encErr := true })).axisEvent x 3
  (s.mastered x).foldl (State.stopGroup · (some x) ·) s

/-- ENCODER_EDGE: new filtered levels (R362). -/
def State.encoderEdgeCmd (s : State) (x : AxisId) (a b idx : Bool) : State :=
  let old := s.mot.axes[x]
  let da := a != old.filtA
  let db := b != old.filtB
  let s := s.mapAxis x (fun y => { y with filtA := a, filtB := b, filtI := idx })
  let up := if da then a != old.filtB else b == old.filtA
  let s := if da && db then s.encoderError x
    else if da || db then
      (s.mapAxis x (fun y => { y with enc := if up then y.enc + 1 else y.enc - 1 })).masterMoved x
    else s
  if idx && !old.filtI then (s.mapAxis x (fun y => { y with encIdx := y.enc })).axisEvent x 4 else s

/-! ## Diagnostics at an update (R366, R368) -/

/-- A phase has carried less than a quarter of OPEN_THR for one more update (R368). -/
def openRun (thr : Nat) (cmd meas : Int) (n : Nat) : Nat :=
  if thr ≤ cmd.natAbs ∧ 4 * meas.natAbs < thr then min 64 (n + 1) else 0

/-- The diagnostics of an axis at an update (R366, R368). -/
def State.diagnoseAxis (s : State) (x : AxisId) : State :=
  let o := motOff x.val
  let a := s.mot.axes[x]
  let steps := s.mfld (o + 0x1A) 0 8
  let c := a.iSet == s.iCeil x && decide (s.mfld (o + 0x18) 0 10 < a.lagF)
  let stall := c && decide (0 < steps) && decide (steps ≤ a.stallCount)
  let f := s.phaseFactors (s.angleOf x a.m)
  let on := s.energised x
  let thr := s.mfld (o + 0x1E) 0 11
  let nA := if on then openRun thr (phaseCmd a.iSet f.1) a.ia a.openA else 0
  let nB := if on then openRun thr (phaseCmd a.iSet f.2) a.ib a.openB else 0
  let opn := decide (64 ≤ nA) || decide (64 ≤ nB)
  let k := s.mot.convs[convOf x]
  let conv := k.bad
  let trip := s.overTrip x (k.latest (slotA x)) || s.overTrip x (k.latest (slotA x + 1))
  let s := s.mapAxis x (fun a => { a with
    stallCount := if c then a.stallCount else 0, openA := nA, openB := nB
    cause := stall || opn || conv || trip
    stall := a.stall || stall, open' := a.open' || opn, convErr := a.convErr || conv })
  let s := s.raiseIf (stall && !a.stall) (o + 4) 0
  let s := s.raiseIf (opn && !a.open') (o + 4) 2
  let s := if (stall && !a.stall) || (opn && !a.open') then s.axisFault x else s
  if conv && !a.convErr then ((s.engagedOf x).foldl (State.stopGroup · (some x) ·) s).stopAxis .free x else s

/-- The converter errors as MOT_CONV shows them (R368, R371). -/
def State.convErrors (s : State) : State :=
  s.mapMot (fun m => { m with convs := m.convs.map (fun c => { c with err := c.bad }) })

/-! ## Set points (R350, R351, R354, R363) -/

def wordAt (l : List Byte) (k : Nat) : Nat := ofBytes ((l.drop k).take 2)
def longAt (l : List Byte) (k : Nat) : Nat := ofBytes ((l.drop k).take 4)

/-- The set point of an axis from its record (R350). -/
def axisRecord (l : List Byte) (x : Nat) : AxisSp :=
  let o := 16 * x
  { mode := (BitVec.ofNat 2 (wordAt l o)).toFin, clr := wordAt l o / 4 % 2 == 1, target := asInt (longAt l (o + 2)) 32,
    vmax := longAt l (o + 6), acc := max 1 (wordAt l (o + 10)), dec := max 1 (wordAt l (o + 12)) }

/-- A schedule entry of a group's record (R350). -/
def schedAt (l : List Byte) (o : Nat) : Sched :=
  { sw := BitVec.ofNat 32 (longAt l o), num := asInt (wordAt l (o + 4)) 16, den := max 1 (wordAt l (o + 6)) }

/-- The set point of a group from its record (R350). -/
def groupRecord (l : List Byte) (g : Nat) : GroupSp :=
  let o := 192 + 32 * g
  let w := wordAt l o
  { en := w % 2 == 1, arm := w / 2 % 2 == 1, clr := w / 4 % 2 == 1, bEn := w / 8 % 2 == 1,
    num := asInt (wordAt l (o + 2)) 16, den := max 1 (wordAt l (o + 4)), a := schedAt l (o + 6), b := schedAt l (o + 16) }

/-- A rising CLR with no cause left clears the latched faults and leaves STOPPED (R367). -/
def Axis.clear (a : Axis) : Axis :=
  let a := { a with stall := false, oc := false, open' := false, encErr := false, convErr := false, ocBeat := none }
  if a.stopped = .none then a else { a with stopped := .none, frozen := false, v := 0 }

/-- The mode of an axis changes (R354). -/
def Axis.enter (a : Axis) (mode : Fin 4) : Axis :=
  let a := { a with mode := mode, v := 0, atTarget := false }
  if mode = 0 then { a with integA := 0, integB := 0 } else a

/-- The record of an axis takes effect (R351, R354, R367). -/
def State.axisTakes (s : State) (x : AxisId) : State :=
  match s.mot.axes[x].spNext with
  | none => s
  | some new =>
    let a := s.mot.axes[x]
    let a := if new.clr && !a.sp.clr && !a.cause && !s.mot.stale then a.clear else a
    let a := { a with spNext := none }
    if a.stopped ≠ .none then s.mapAxis x (fun _ => { a with sp := { a.sp with clr := new.clr } })
    else
      let a := { a with sp := new }
      if new.mode = a.mode then s.mapAxis x (fun _ => a)
      else if new.mode = 0 ∨ !a.moving then s.mapAxis x (fun _ => a.enter new.mode)
      else (s.mapAxis x (fun _ => { a with modeRej := true })).axisEvent x 5

/-- A group engages, or ENG_REJ is set where a member moves (R363). -/
def State.engage (s : State) (g : Fin 6) (new : GroupSp) : State :=
  if (finList 12).any (fun x => s.grpMember g x && s.mot.axes[x].moving) then
    (s.mapGrp g (fun d => { d with engRej := true })).gearEvent g 3
  else
    let e := match finOf 12 (s.grpMaster g) with
      | some x => s.mot.axes[x].enc
      | none => 0
    let p0 := (finList 12).filterMap (fun x => if s.grpSlave g x then some (x.val, some s.mot.axes[x].pos) else none)
    s.mapGrp g (fun d => { d with
      engaged := true, e0 := e, p0 := p0, num := new.num, den := new.den, armedA := none, armedB := none,
      doneA := false, doneB := false })

/-- The group disengages: its slaves hold their positions (R363). -/
def Dovetail.disengage (d : Dovetail) : Dovetail := { d with engaged := false, armedA := none, armedB := none }

/-- The record of a group takes effect: CLR, then EN, then ARM (R351, R363, R365, R367, R370). -/
def State.groupTakes (s : State) (g : Fin 6) : State :=
  match s.mot.groups[g].spNext with
  | none => s
  | some new =>
    let d := s.mot.groups[g]
    let old := d.sp
    let cause := s.mot.stale || (finList 12).any (fun x => s.grpMember g x && s.mot.axes[x].cause)
    let s := s.mapGrp g (fun d => { d with sp := new, spNext := none })
    let s := if new.clr && !old.clr && d.stopped && !cause then s.mapGrp g (fun d => { d.disengage with stopped := false })
      else s
    if s.mot.groups[g].stopped then s
    else
      let s := if new.en && !old.en then s.engage g new
        else if !new.en && old.en then s.mapGrp g Dovetail.disengage else s
      if new.arm && !old.arm && s.mot.groups[g].engaged then
        let s := s.mapGrp g (fun d => { d with
          armedA := some new.a, armedB := if new.bEn then some new.b else none, doneA := false, doneB := false })
        match finOf 12 (s.grpMaster g) with
        | some x => (s.fireEntries s.mot.axes[x].enc g).gearFollow s.mot.axes[x].enc g
        | none => s
      else s

/-- The records whose read has completed take effect at an update: axes first, then groups (R351). -/
def State.takeRecords (s : State) : State :=
  (finList 6).foldl State.groupTakes ((finList 12).foldl State.axisTakes s)

/-- A read that has not completed by update 0 leaves the values in force: SP_LATE (R351). -/
def State.spLate (s : State) : State :=
  (finList 12).foldl (fun s x => (s.mapAxis x (fun a => { a with spLate := true })).axisEvent x 6) s

/-- The set-point image is read at a strike: the buffer that latched, record by record (R351). -/
def State.readSetPoints (s : State) : State :=
  let i := s.rfld 0xA0F02 0 10
  let buf := if (s.image i).everSealed then (s.image i).sealedSide else !s.jnr.side
  match s.readBuffer 20 i buf 0 384 with
  | (s, some l) =>
    let s := (finList 12).foldl (fun s x => s.mapAxis x (fun a => { a with spNext := some (axisRecord l x.val) })) s
    let s := (finList 6).foldl (fun s g => s.mapGrp g (fun d => { d with spNext := some (groupRecord l g.val) })) s
    s.mapMot (fun m => { m with spBeat := some s.time.beat })
  | (s, none) => s.mapMot (fun m => { m with spBeat := none })

/-- The set points have not latched for MOT_SP_TMO strikes: everything stops (R353). -/
def State.spTimeout (s : State) : State :=
  let s := s.mapMot (fun m => { m with stale := true })
  let s := (finList 12).foldl (fun s x => (s.mapAxis x (fun a => { a with spStale := true })).axisEvent x 7) s
  let s := (finList 6).foldl (fun s g =>
    if s.mot.groups[g].engaged then s.stopGroup none g
    else (s.mapGrp g (fun d => { d with stopped := true })).gearEvent g 2) s
  (finList 12).foldl (fun s x => if (s.engagedOf x).isEmpty then s.stopAlone x else s) s

/-- The motion unit at a strike whose beat is `beat` (R348, R351, R353). -/
def State.motStrike (s : State) (beat : Nat) : State :=
  if s.motEn then
    let fresh := (s.image (s.rfld 0xA0F02 0 10)).latched
    let s := s.mapMot (fun m => { m with strike := some beat, update := 0, count := s.modeP s.tick.mode.val / 16384 })
    let first := !s.mot.firstRead
    let s := s.mapMot (fun m => { m with firstRead := true, noLatch := if fresh then 0 else m.noLatch + 1,
                                         stale := m.stale && !fresh })
    let tmo := s.rfld 0xA0F06 0 8
    let s := if tmo ≠ 0 ∧ tmo ≤ s.mot.noLatch ∧ !s.mot.stale then s.spTimeout else s
    if fresh || first then s.readSetPoints else s.mapMot (fun m => { m with spBeat := some beat })
  else s

/-- What shows only the tick in which it arose goes at the next tick start (R352). -/
def State.motTick (s : State) : State :=
  let s := (finList 12).foldl (fun s x => s.mapAxis x (fun a =>
    { a with modeRej := false, spLate := false, spStale := false })) s
  (finList 6).foldl (fun s g => s.mapGrp g (fun d => { d with engRej := false })) s

/-! ## Profiles (R355, R356) -/

/-- The velocity of a profile after an update, and its direction (R355). `rem` is in units of 2^-15 position unit. -/
def profileV (rem : Int) (v vmax acc dec vstart : Nat) (dir : Bool) : Nat × Bool :=
  let ahead := if dir then decide (0 < rem) else decide (rem < 0)
  if 0 < v ∧ !ahead then (v - 2 * dec, dir)
  else
    let dir := if v = 0 then decide (0 < rem) else dir
    let v := if rem.natAbs ≤ (v * v / (131072 * dec) + v / 32768) * 32768 then max (v - 2 * dec) vstart
      else if v < vmax then min (v + 2 * acc) vmax
      else max (v - 2 * dec) vmax
    (v, dir)

/-- The coarse boundaries that a move crosses, each with its beat (R356): from `p` by `adv`, both in 2^-15 unit. -/
def crossings (units beat : Nat) (p q : Int) (adv : Nat) (dir : Bool) : List (Nat × Bool) :=
  let w : Int := units * 32768
  let n := (q / w - p / w).natAbs
  (List.range n).map (fun (k : Nat) =>
    let b : Int := if dir then (p / w + 1 + (k : Nat)) * w else (p / w - (k : Nat)) * w
    (beat + (b - p).natAbs * 16384 / max 1 adv, dir))

/-- The axis moves by `adv` toward `dir`, or to `stop` where it lies in reach (R355, R356). -/
def State.advance (s : State) (x : AxisId) (v : Nat) (dir : Bool) (stop : Option Int) : State :=
  let a := s.mot.axes[x]
  let q := match stop with
    | some t => t
    | none => if dir then a.posx + v else a.posx - v
  let late := a.steps
  s.mapAxis x (fun a => { a with
    posx := q, v := if stop.isSome then 0 else v, dir := dir
    steps := late ++ crossings (s.coarseUnits x) s.time.beat a.posx q v dir })

/-- One profile update of an axis in mode 1 (R355). -/
def State.profileStep (s : State) (x : AxisId) : State :=
  let a := s.mot.axes[x]
  let rem := a.sp.target * 32768 - a.posx
  if rem = 0 ∧ a.v = 0 then
    if a.atTarget then s else (s.mapAxis x (fun a => { a with atTarget := true })).axisEvent x 8
  else
    let s := s.mapAxis x (fun a => { a with atTarget := false })
    let vstart := min (ofWords [s.mpar (motOff x.val + 0x20), s.mpar (motOff x.val + 0x22)]) a.sp.vmax
    let (v, dir) := profileV rem a.v a.sp.vmax a.sp.acc a.sp.dec vstart a.dir
    let reach := (if dir then decide (0 < rem) else decide (rem < 0)) && decide (rem.natAbs ≤ v)
    s.advance x v dir (if reach then some (a.sp.target * 32768) else none)

/-- The motion of an axis at an update: frozen, braking under DECEL, or its profile (R355, R367). -/
def State.moveAxis (s : State) (x : AxisId) : State :=
  let a := s.mot.axes[x]
  if a.frozen || !s.energised x then s
  else match a.stopped with
    | .hold => s.mapAxis x Axis.freeze
    | .decel => if a.mode = 1 ∧ 0 < a.v then s.advance x (a.v - 2 * a.sp.dec) a.dir none else s
    | .free => s
    | .none => if a.mode = 1 then s.profileStep x else s

/-- The current loops of an axis: the duties computed now apply from the next update (R359, R360). -/
def State.driveAxis (s : State) (x : AxisId) : State :=
  let a := s.mot.axes[x]
  if s.energised x then
    let f := s.phaseFactors (s.angleOf x a.m)
    let (iA, dA) := s.currentLoop x (phaseCmd a.iSet f.1) a.ia a.integA
    let (iB, dB) := s.currentLoop x (phaseCmd a.iSet f.2) a.ib a.integB
    s.mapAxis x (fun a => { a with nowA := a.dutyA, nowB := a.dutyB, integA := iA, integB := iB, dutyA := dA, dutyB := dB })
  else s.mapAxis x (fun a => { a with nowA := 0, nowB := 0, integA := 0, integB := 0, dutyA := 0, dutyB := 0 })

/-- The span that begins at an update starts its record of m (R361). -/
def State.logAxis (s : State) (x : AxisId) : State := s.mapAxis x (fun a => { a with mLog := [(s.time.beat, a.m)] })

/-! ## The update (R348) -/

/-- The beat of the next update, and whether it is update 0 of a tick (R348). -/
def State.nextUpdate (s : State) : Option (Nat × Bool) :=
  let m := s.mot
  match m.strike with
  | some b =>
    if m.update < m.count then some (b + 512 + 16384 * m.update, m.update == 0)
    else if s.tick.running then none
    else some (m.updBeat + 16384, false)
  | none => some (m.updBeat + 16384, false)

/-- Whether the last read of the set points has completed (R351). -/
def State.spReady (s : State) : Bool :=
  match s.mot.spBeat with
  | some b => decide (b ≤ s.time.beat)
  | none => false

/-- What an update does at its beat: measurement, diagnostics, set points, profiles, current loops (R348). -/
def State.updateBody (s : State) (zero : Bool) : State :=
  let prev := s.mot.updBeat
  let s := (s.latchPar.mapMot (fun m => { m with updBeat := s.time.beat, update := m.update + 1 })).convErrors
  let s := (finList 12).foldl (State.measureAxis · prev ·) s
  let s := { s with free := s.free + 1 }
  let s := (finList 12).foldl State.diagnoseAxis s
  let s := if s.spReady then s.takeRecords else if zero then s.spLate else s
  let s := (finList 12).foldl State.moveAxis s
  let s := (finList 12).foldl State.driveAxis s
  (finList 12).foldl State.logAxis s

/-- MOTION_UPDATE: the next update at its beat (R348). -/
def State.motionUpdateCmd (s : State) : State :=
  if s.motEn then
    match s.nextUpdate with
    | some (due, zero) => (s.until due).updateBody zero
    | none => s
  else s

/-! ## Status (R352) -/

def Axis.velocity (a : Axis) : Int :=
  if a.mode = 1 then (if a.dir then (a.v : Int) else -a.v)
  else if a.mode = 0 then 0
  else if a.mUp then (a.rate : Int) else -a.rate

/-- Word 0 of the status record of an axis (R352). -/
def State.axisStat (s : State) (x : AxisId) : Word :=
  let a := s.mot.axes[x]
  flag a.moving 0 ||| flag a.atTarget 1 ||| flag a.stall 2 ||| flag a.oc 3 ||| flag a.open' 4 ||| flag a.encErr 5 |||
  flag (a.stopped != .none) 6 ||| flag (a.iSet == s.iCeil x) 7 ||| BitVec.ofNat 16 (a.mode.val * 256) |||
  flag a.modeRej 10 ||| flag a.spLate 11 ||| flag a.spStale 12 ||| flag a.convErr 13

/-- Word 0 of the status record of a group (R352). -/
def State.grpStat (s : State) (g : Fin 6) : Word :=
  let d := s.mot.groups[g]
  flag d.engaged 0 ||| flag d.armedA.isSome 1 ||| flag d.armedB.isSome 2 ||| flag d.doneA 3 ||| flag d.doneB 4 |||
  flag d.stopped 5 ||| flag d.engRej 6 ||| BitVec.ofNat 16 (d.faulty % 16 * 256)

/-- The status records (R352). -/
def State.axisStatus (s : State) (x : AxisId) : List Word :=
  let a := s.mot.axes[x]
  [s.axisStat x, wordOfInt a.pos 0, wordOfInt a.pos 1, wordOfInt a.velocity 0, wordOfInt a.velocity 1,
   wordOf a.enc.toNat 0, wordOf a.enc.toNat 1, BitVec.ofNat 16 a.lagF]
def State.grpStatus (s : State) (g : Fin 6) : List Word :=
  let d := s.mot.groups[g]
  [s.grpStat g, wordOfInt d.num 0, wordOf d.den 0, 0]

/-- The 240 bytes of the status image (R352). -/
def State.motStatus (s : State) : List Byte :=
  wordsBytes ((finList 12).flatMap s.axisStatus ++ (finList 6).flatMap s.grpStatus)

/-- The status is written and posted at T+P_k−Q (R352). -/
def State.postStatus (s : State) : State :=
  if s.motEn then
    let i := s.rfld 0xA0F04 0 10
    let side := s.jnr.side
    match s.engineStore 20 (s.imgBase i side) s.motStatus with
    | (s, true) => s.postImage 20 i 240 side false false
    | (s, false) => s
  else s

/-! ## The bridge balls (R347, R360, R368) -/

/-- The level of a duty at a place in the PWM period: the pulse is centred (R360). -/
def pulseAt (d place : Nat) : Bool := decide ((16384 - d) / 2 ≤ place) && decide (place < (16384 - d) / 2 + d)

/-- What ball MPWM(4x + k) drives in the present beat (R347, R360, R368). -/
def State.mpwm (s : State) (x : AxisId) (k : Nat) : Drive :=
  let a := s.mot.axes[x]
  if !s.motEn then .hiZ
  else if (match a.ocBeat with
    | some b => a.oc && decide (b + 2 ≤ s.time.beat)
    | none => false) then .low
  else if !s.energised x && !(a.oc && a.mode != 0) then (if s.rbit (motOff x.val) 0 then .low else .hiZ)
  else
    let d := if k < 2 then a.nowA else a.nowB
    let forward := k % 2 == 0
    if (if forward then decide (0 < d) else decide (d < 0)) && pulseAt d.natAbs (s.time.beat - s.mot.updBeat) then .high
    else .low

/-! ## Registers (R371) -/

def motSpecs : List RegSpec :=
  [{ base := 0xA0004, rw := 0, w1c := 0x3FF, m := 12, outer := 256 }, { base := 0xA0006, rw := 0x3FF, m := 12, outer := 256 },
   { base := 0xA0008, rw := 0x7FF, n := 3, m := 12, outer := 256 }, { base := 0xA000E, m := 12, outer := 256 },
   { base := 0xA0010, rw := 0x7FF, m := 12, outer := 256 }, { base := 0xA0012, n := 3, m := 12, outer := 256 },
   { base := 0xA0018, rw := 0x73FF, m := 12, outer := 256 }, { base := 0xA001A, rw := 0xFF, m := 12, outer := 256 },
   { base := 0xA001C, m := 12, outer := 256 }, { base := 0xA001E, rw := 0x7FF, m := 12, outer := 256 },
   { base := 0xA0020, pair := true, m := 12, outer := 256 }, { base := 0xA0024, n := 2, m := 12, outer := 256 },
   { base := 0xA0028, rw := 0, pair := true, n := 4, stride := 4, m := 12, outer := 256 },
   { base := 0xA0C08, rw := 0, pair := true, m := 6, outer := 32 },
   { base := 0xA0C0C, rw := 0, w1c := 0x1F, m := 6, outer := 32 }, { base := 0xA0C0E, rw := 0x1F, m := 6, outer := 32 },
   { base := 0xA0F02, rw := 0x3FF, n := 2 }, { base := 0xA0F06, rw := 0xFF }, { base := 0xA1000, n := 1025 }]

/-- A write of MOT_CTRL: EN = 1 starts the updates and the converters (R371). -/
def State.motCtrl (s : State) (v : Word) : State :=
  let was := s.motEn
  let s := s.setReg 0xA0F00 (v &&& 1)
  if s.motEn && !was then
    s.latchPar.mapMot (fun m => { m with
      updBeat := s.time.beat, strike := none, convs := m.convs.map (fun c => { c with last := s.time.beat, round := [] }) })
  else s

/-- A write to a register of the motion unit (R371). -/
def State.motWrite (s : State) (m : Master) (off : Nat) (v : Word) : State :=
  if off < 0xA0C00 ∧ off % 256 = 0 then
    match finOf 12 ((off - 0xA0000) / 256) with
    | some x => if s.mot.axes[x].mode = 0 then s.setReg off (v &&& 0x7FF) else s.axisEvent x 9
    | none => s
  else if 0xA0C00 ≤ off ∧ off < 0xA0CC0 ∧ off % 32 = 0 then
    match finOf 6 ((off - 0xA0C00) / 32) with
    | some g => if s.mot.groups[g].engaged then s.gearEvent g 4 else s.setReg off (v &&& 0x3FF)
    | none => s
  else if off = 0xA0F00 then s.motCtrl v
  else if 0xA1000 ≤ off ∧ s.mot.axes.toList.any (fun a => a.mode != 0) then s
  else s.tableWrite motSpecs m off v

/-- The registers of an axis as they read at present, by offset in the axis. -/
def State.axisLive (s : State) (x : AxisId) (o : Nat) : Word :=
  let a := s.mot.axes[x]
  match o with
  | 0x02 => s.axisStat x
  | 0x28 => wordOf a.enc.toNat 0
  | 0x2A => wordOf a.enc.toNat 1
  | 0x2C => wordOf a.encIdx.toNat 0
  | 0x2E => wordOf a.encIdx.toNat 1
  | 0x30 => wordOfInt a.pos 0
  | 0x32 => wordOfInt a.pos 1
  | 0x34 => wordOfInt a.velocity 0
  | 0x36 => wordOfInt a.velocity 1
  | 0x38 => BitVec.ofNat 16 (s.angleOf x a.m)
  | 0x3A => BitVec.ofNat 16 a.iSet
  | 0x3C => BitVec.ofInt 16 a.ia
  | 0x3E => BitVec.ofInt 16 a.ib
  | 0x40 => BitVec.ofNat 16 a.lagF
  | _ => s.reg (motOff x.val + o)

/-- The registers of a group as they read at present. -/
def State.grpLive (s : State) (g : Fin 6) (o : Nat) : Word :=
  let d := s.mot.groups[g]
  match o with
  | 0x02 => s.grpStat g
  | 0x04 => wordOfInt d.num 0
  | 0x06 => wordOf d.den 0
  | 0x08 => wordOf d.e0.toNat 0
  | 0x0A => wordOf d.e0.toNat 1
  | _ => s.reg (motGrp g.val + o)

/-- The registers of the motion unit as they read at present. -/
def State.motLive (s : State) (off : Nat) : Word :=
  if off < 0xA0C00 then
    match finOf 12 ((off - 0xA0000) / 256) with
    | some x => s.axisLive x (off % 256)
    | none => 0
  else if off < 0xA0CC0 then
    match finOf 6 ((off - 0xA0C00) / 32) with
    | some g => s.grpLive g (off % 32)
    | none => 0
  else if off = 0xA0F08 then
    (finList 4).foldl (fun w c => w ||| flag s.mot.convs[c].err c.val) 0
  else s.reg off

/-- A read of a register of the motion unit. -/
def State.motRead (s : State) (m : Master) (off : Nat) : State × Word := s.tableRead motSpecs State.motLive m off

/-! ## Commands -/

def execMotionUpdate (s : State) : Host.Outcome State Fault Refusal := .next (s.alive fun s => s.motionUpdateCmd)

def execConverterSlot (c : Fin 4) (sample : BitVec 12) (s : State) : Host.Outcome State Fault Refusal :=
  .next (s.alive fun s => s.converterSlotCmd c sample)

def execEncoderEdge (x : AxisId) (a b idx : Bool) (s : State) : Host.Outcome State Fault Refusal :=
  .next (s.alive fun s => s.encoderEdgeCmd x a b idx)

def execExternalStep (x : AxisId) (dir : Bool) (s : State) : Host.Outcome State Fault Refusal :=
  .next (s.alive fun s => s.externalStepCmd x dir)

def execCoarseStep (x : AxisId) (s : State) : Host.Outcome State Fault Refusal :=
  .next (s.alive fun s => s.coarseStepCmd x)

def execMicrostep (x : AxisId) (s : State) : Host.Outcome State Fault Refusal :=
  .next (s.alive fun s => s.microstepCmd x)

end Sys2Proof.Machine
end

