-- ==== Sys2Proof/Machine/Field.lean ====
section
/-! DEFINITION. Field inputs and outputs (14_field_io.md): levels, counters, periods, the edge FIFO, the input image,
outputs and their diagnostics, the field supply, and the FIO_ registers. -/

namespace Sys2Proof.Machine

open Sys2Proof

/-- Change the field unit, an input, an output. -/
def State.mapFio (s : State) (f : FieldIO → FieldIO) : State := { s with fio := f s.fio }
def State.mapIn (s : State) (i : Fin 32) (f : FInput → FInput) : State :=
  s.mapFio (fun x => { x with inputs := upd x.inputs i f })
def State.mapOut (s : State) (j : Fin 16) (f : FOutput → FOutput) : State :=
  s.mapFio (fun x => { x with outputs := upd x.outputs j f })

def fioOff (o : Nat) : Nat := 0xB0000 + o
def State.fioEvent (s : State) (i : Nat) : State := s.raise (fioOff 4) i
def State.fioPosts (s : State) : Bool := s.rbit (fioOff 0) 0

/-! ## Configuration in force (R395) -/

def State.fcfg (s : State) (o lo n : Nat) : Nat := fld (Sparse.get 0 s.fio.cfg (fioOff o)) lo n

/-- The filter time F of an input in beats (R375). -/
def State.inFilter (s : State) (i : Fin 32) : Nat :=
  let f := min 11 (s.fcfg (0x100 + 2 * i.val) 1 4)
  if f = 0 then 0 else 2 ^ (f + 5)

/-- The rank of an output in the cut-off order: that of O15 is 15 (R388, R391). -/
def State.outRank (s : State) (j : Fin 16) : Nat :=
  if j.val = 15 then 15 else s.fcfg (0x26 + 2 * (j.val / 4)) (4 * (j.val % 4)) 4

/-- SHED and AUTO of an output; SHED of O15 is 0 (R388). -/
def State.outShed (s : State) (j : Fin 16) : Bool := j.val != 15 && s.fcfg (0x140 + 2 * j.val) 0 1 == 1
def State.outAuto (s : State) (j : Fin 16) : Bool := s.fcfg (0x140 + 2 * j.val) 1 1 == 1

/-- The configuration registers of the die: the rest is on the logic side. -/
def fioConfig (off : Nat) : Bool := (fioOff 0x26 ≤ off && off < fioOff 0x2E) || (fioOff 0x100 ≤ off && off < fioOff 0x160)

/-- Configuration writes take effect at a strike (R395). -/
def State.latchFio (s : State) : State := s.mapFio (fun x => { x with cfg := s.regs.filter (fun e => fioConfig e.1) })

/-! ## The input image (R380, R381) -/

def State.fioImage (s : State) : Nat := s.rfld (fioOff 8) 0 10

/-- The recognised levels of I0 to I15 (`hi` false) or I16 to I31. -/
def State.levelWord (s : State) (hi : Bool) : Word :=
  (finList 32).foldl (fun w i => if (decide (16 ≤ i.val)) == hi && s.fio.inputs[i].level then w ||| bitMask (i.val % 16) else w) 0

/-- One bit per output or input. -/
def outBits (f : Fin 16 → Bool) : Word := (finList 16).foldl (fun w j => if f j then w ||| bitMask j.val else w) 0
def State.inBits (s : State) (f : FInput → Bool) : Nat :=
  (finList 32).foldl (fun n i => if f s.fio.inputs[i] then n + 2 ^ i.val else n) 0

/-- The proxy writes bytes of the filling buffer of the input image. -/
def State.fioStore (s : State) (k : Nat) (l : List Byte) : State :=
  (s.engineStore 21 (s.imgBase s.fioImage s.jnr.side + k) l).1

/-- A level word is written into the filling buffer (R375, R381). -/
def State.writeLevel (s : State) (hi : Bool) : State :=
  if s.fioPosts && s.fio.inSpan && !s.fio.lost then s.fioStore (if hi then 2 else 0) (toBytes (s.levelWord hi).toNat 2)
  else s

/-- The proxy posts the input image; SUPPLY_INV stays in force for the span in which it was set (R372, R381, R393). -/
def State.fioPost (s : State) : State :=
  if s.fioPosts then
    s.postImage 21 s.fioImage 280 s.jnr.side s.fio.lost (s.fio.supplyInv || (s.jimage s.fioImage).filling.supplyInv)
  else s

/-- SUPPLY_INV is set: the proxy posts again (R381, R393). -/
def State.supplyBad (s : State) : State :=
  let s := s.mapFio (fun x => { x with good := none })
  if s.fio.supplyInv then s
  else
    let s := s.mapFio (fun x => { x with supplyInv := true })
    if s.fio.inSpan then s.fioPost else s

/-! ## Inputs (R374 to R379) -/

/-- The time of day `n` beats ago (R375). -/
def TimeUnit.stampBack (t : TimeUnit) (n : Nat) : BitVec 80 := BitVec.ofNat 80 ((t.todx - n * t.rate) / sliverX)

/-- An entry is pushed into the edge FIFO, or TS_OVF is set (R378). -/
def State.edgePush (s : State) (e : FEdge) : State :=
  if s.fio.fifo.length < 64 then s.mapFio (fun x => { x with fifo := x.fifo ++ [e] })
  else (s.mapFio (fun x => { x with spill := some (s.time.beat, e, s.rbit (fioOff 4) 11) })).fioEvent 11

/-- The head of the edge FIFO is popped; an entry that found it full in the same beat is stored after all (R378, R394). -/
def State.edgePop (s : State) : State :=
  match s.fio.fifo, s.fio.spill with
  | [], _ => s
  | _ :: r, some (b, e, was) =>
    if b = s.time.beat then
      let s := s.mapFio (fun x => { x with fifo := r ++ [e], spill := none })
      s.withdraw (fioOff 4) 11 was
    else s.mapFio (fun x => { x with fifo := r })
  | _ :: r, none => s.mapFio (fun x => { x with fifo := r })

/-- Whether an input counts an edge (R376). -/
def State.countsEdge (s : State) (i : Fin 32) (rising : Bool) : Bool :=
  match s.fcfg (0x100 + 2 * i.val) 5 2 with
  | 0 => rising
  | 1 => !rising
  | 2 => true
  | _ => false

/-- Changes of I16 to I31 written in the present beat are stamped one beat later, as the other word changes too (R375). -/
def State.restampHi (s : State) : State :=
  let b := s.time.beat
  s.mapFio (fun x => { x with
    fifo := x.fifo.map (fun e => if 16 ≤ e.input.val ∧ e.beat = b then
      { e with tod := BitVec.ofNat 80 (e.tod.toNat + s.time.rate / sliverX), beat := b + 1 } else e)
    inputs := (Vector.finRange 32).map (fun i =>
      let y := x.inputs[i]
      if 16 ≤ i.val then { y with rises := y.rises.map (fun r => if r = b - s.inFilter i then r + 1 else r) } else y)
    hiBeat := some (b + 1) })

/-- The effects of a recognised level beside the level word: count, period stamps, FIFO, open wire (R376 to R379). -/
def State.inputEdge (s : State) (i : Fin 32) (rising : Bool) : State :=
  let f := s.inFilter i
  let cfg := 0x100 + 2 * i.val
  let freq := s.fcfg cfg 7 1 == 1
  let cnt := s.countsEdge i rising
  let s := s.mapIn i (fun x => { x with
    level := rising
    cnt := if cnt then x.cnt + 1 else x.cnt
    rises := if rising && freq then x.rises ++ [s.time.beat - f] else x.rises
    open' := x.open' && !rising })
  if s.fcfg cfg (if rising then 8 else 9) 1 = 1 then
    s.edgePush { input := i, rising := rising, tod := s.time.stampBack f, beat := s.time.beat }
  else s

/-- INPUT_RECOGNISED (R375). -/
def State.inputCmd (s : State) (i : Fin 32) (level : Bool) : State :=
  if s.fio.lost || s.fio.inputs[i].level == level then s
  else if 16 ≤ i.val then
    let s := if s.fio.loBeat = some s.time.beat then s.elapse 1 else s
    ((s.inputEdge i level).mapFio (fun x => { x with hiBeat := some s.time.beat })).writeLevel true
  else
    let s := if s.fio.hiBeat = some s.time.beat then s.restampHi else s
    ((s.inputEdge i level).mapFio (fun x => { x with loBeat := some s.time.beat })).writeLevel false

/-- INPUT_OPEN_WIRE (R379). -/
def State.openWireCmd (s : State) (i : Fin 32) : State :=
  if !s.fio.lost ∧ s.fcfg (0x100 + 2 * i.val) 10 1 = 1 then
    let o := fioOff 0x1E + 2 * (i.val / 16)
    ((s.mapIn i (fun x => { x with open' := true })).raise o (i.val % 16)).fioEvent 10
  else s

/-- The period of an input at a latch beat (R377). -/
def FInput.measure (x : FInput) (freq : Bool) : FInput :=
  if !freq then { x with noEdge := false, t0 := none, rises := [] }
  else
    let tn := x.rises.getLast?.getD 0
    let n := x.rises.length
    let made := match x.t0 with
      | some t0 => if 1 ≤ n then some (roundEven ((tn : Int) - t0) n) else none
      | none => if 2 ≤ n then some (roundEven ((tn : Int) - nthD x.rises 0 0) (n - 1)) else none
    match made with
    | some p => { x with period := BitVec.ofNat 32 (min 0xFFFFFFFF p.toNat), noEdge := false, t0 := some tn, rises := [] }
    | none => { x with noEdge := true }

/-! ## Outputs (R383 to R392) -/

/-- The switch of an output as it stands in a beat. -/
def FOutput.onAt (x : FOutput) (beat : Nat) : Bool := if beat < x.changed then !x.on else x.on

/-- A diagnostic is evaluated: not in the 2,048 beats after a change, but still in the beat of the change (R386, R394). -/
def FOutput.settled (x : FOutput) (beat : Nat) : Bool :=
  x.changed == 0 || x.changed == beat || decide (x.changed + 2048 ≤ beat)

/-- The switch changes at a beat. -/
def FOutput.switch (x : FOutput) (on : Bool) (beat : Nat) : FOutput :=
  if x.on = on then x else { x with on := on, changed := beat, openNow := false, stuckNow := false }

/-- What holds an output off (R386 to R392). -/
def State.outHeld (s : State) (j : Fin 16) : Bool :=
  let x := s.fio.outputs[j]
  x.ovl || x.otc || s.fio.dieOt || s.fio.cut || (s.fio.sag && s.outShed j)

/-- Whether an output may be on at a strike. -/
def State.outMay (s : State) (j : Fin 16) : Bool :=
  let x := s.fio.outputs[j]
  s.fio.en && !s.fio.lost && !s.outHeld j && !x.rearm && x.wait.isNone

/-- Every output at a strike whose beat is `beat`: releases take effect, commanded changes start at S + 96 (R383). An
output that waits for its slot of a cut-off order is left to it (R394). -/
def State.driveOutputs (s : State) (beat : Nat) : State :=
  (finList 16).foldl (fun s j =>
    let s := s.mapOut j (fun x => { x with wait := x.wait.filter (fun w => decide (beat ≤ w)) })
    let x := s.fio.outputs[j]
    if s.fio.order.isSome && x.on then s else s.mapOut j (fun x => x.switch (x.cmd && s.outMay j) (beat + 96))) s

/-- An output switches off now. -/
def State.outOff (s : State) (j : Fin 16) : State := s.mapOut j (fun x => x.switch false s.time.beat)

/-- A cut-off order begins, unless one is in progress (R391, R394). -/
def State.startOrder (s : State) : State :=
  match s.fio.order with
  | some _ => s
  | none => s.mapFio (fun x => { x with order := some (s.time.beat, (finList 16).map s.outRank) })

/-- CUTOFF_RANK: the outputs of a rank switch off at c + 512 × r (R391). -/
def State.cutoffRankCmd (s : State) (rank : Fin 16) : State :=
  match s.fio.order with
  | some (c, ranks) =>
    let s := s.until (c + 512 * rank.val)
    let s := (finList 16).foldl (fun s j => if nthD ranks j.val 15 = rank.val then s.outOff j else s) s
    if rank.val = 15 then s.mapFio (fun x => { x with order := none }) else s
  | none => s

/-- OVERLOAD (R386). -/
def State.overloadCmd (s : State) (j : Fin 16) : State :=
  let x := s.fio.outputs[j]
  let b := s.time.beat
  if !s.fio.lost ∧ x.settled b ∧ (x.onAt b ∨ x.changed = b) then
    ((s.outOff j).mapOut j (fun x => { x with ovl := true })).fioEvent 5
  else s

/-- CHANNEL_OVERTEMP (R386). -/
def State.overtempCmd (s : State) (j : Fin 16) : State :=
  if !s.fio.lost ∧ s.fio.outputs[j].settled s.time.beat then
    ((s.outOff j).mapOut j (fun x => { x with otc := true })).fioEvent 6
  else s

/-- DIE_OVERTEMP (R386). -/
def State.dieOvertempCmd (s : State) : State :=
  if s.fio.lost || s.fio.dieOt then s
  else ((s.mapFio (fun x => { x with dieOt := true })).fioEvent 4).startOrder

/-- Outputs are released as at a re-arm (R387, R392). -/
def State.rearmOutputs (s : State) : State :=
  (finList 16).foldl (fun s j => s.mapOut j (fun x =>
    if s.outAuto j then { x with wait := some s.time.beat } else { x with rearm := true })) s

/-- DIE_OT_CLEAR (R387). -/
def State.dieOtClearCmd (s : State) : State :=
  if !s.fio.lost && s.fio.dieOt then (s.mapFio (fun x => { x with dieOt := false })).rearmOutputs else s

/-- The reports on an output (R386): an open load while on or off, and a pin that is high while the output is off. -/
def State.openOnCmd (s : State) (j : Fin 16) : State :=
  let x := s.fio.outputs[j]
  if !s.fio.lost ∧ x.settled s.time.beat ∧ x.onAt s.time.beat ∧ s.fcfg (0x140 + 2 * j.val) 3 2 ≠ 0 then
    ((s.mapOut j (fun x => { x with openNow := true })).raise (fioOff 0x18) j.val).fioEvent 7
  else s

def State.openOffCmd (s : State) (j : Fin 16) : State :=
  let x := s.fio.outputs[j]
  if !s.fio.lost ∧ x.settled s.time.beat ∧ !x.onAt s.time.beat ∧ s.fcfg (0x140 + 2 * j.val) 2 1 = 1 then
    ((s.mapOut j (fun x => { x with openNow := true })).raise (fioOff 0x1A) j.val).fioEvent 8
  else s

def State.stuckCmd (s : State) (j : Fin 16) : State :=
  let x := s.fio.outputs[j]
  if !s.fio.lost ∧ x.settled s.time.beat ∧ !x.onAt s.time.beat then
    ((s.mapOut j (fun x => { x with stuckNow := true })).raise (fioOff 0x1C) j.val).fioEvent 9
  else s

/-- A write of FIO_OUT_RETRY: the latches whose causes have gone clear (R387). -/
def State.retry (s : State) (v gone : Word) : State :=
  (finList 16).foldl (fun s j =>
    let x := s.fio.outputs[j]
    if bit v j.val && bit gone j.val && (x.ovl || x.otc) then
      s.mapOut j (fun x => { x with ovl := false, otc := false, wait := some s.time.beat })
    else s) s

/-- A write of FIO_OUT_REARM (R392). -/
def State.rearm (s : State) (v : Word) : State :=
  if s.fio.cut then s.fioEvent 12
  else (finList 16).foldl (fun s j =>
    if bit v j.val && s.fio.outputs[j].rearm then
      s.mapOut j (fun x => { x with rearm := false, wait := some s.time.beat })
    else s) s

/-! ## The field supply (R389 to R393) -/

/-- SAG is detected: it sheds (R390). -/
def State.setSag (s : State) : State :=
  if s.fio.sag then s
  else
    let s := (s.mapFio (fun x => { x with sag := true })).fioEvent 0
    (finList 16).foldl (fun s j => if s.outShed j then s.outOff j else s) s

/-- SAG clears: each shed output waits for the next strike (R390). -/
def State.clearSag (s : State) : State :=
  if s.fio.sag then
    let s := s.mapFio (fun x => { x with sag := false })
    (finList 16).foldl (fun s j => if s.outShed j then s.mapOut j (fun x => { x with wait := some s.time.beat }) else s) s
  else s

/-- The supply-good condition is met: SUPPLY_INV clears, and CUT where it is set (R392, R393). -/
def State.supplyGood (s : State) : State :=
  let cut := s.fio.cut
  let s := s.mapFio (fun x => { x with supplyInv := false, cut := false })
  if cut then (s.fioEvent 2).rearmOutputs else s

/-- The beats of 2^-7 s (R379). -/
def fioLong : Nat := 4194304

/-- A run of good samples has lasted 2^-7 s. -/
def lasted (from_ : Option Nat) (beat : Nat) : Bool :=
  match from_ with
  | some b => decide (b + fioLong ≤ beat)
  | none => false

/-- What one sample of VF in millivolts does (R389, R393). -/
def State.vfSampled (s : State) (mv : Nat) : State :=
  let b := s.time.beat
  let s := s.mapFio (fun x => { x with
    vf := min 255 (mv / 125), vfBeat := b
    sagRun := if mv < 18000 then x.sagRun + 1 else 0
    highRun := if 30000 < mv then x.highRun + 1 else 0
    sagOk := if mv < 18500 then none else some (x.sagOk.getD b)
    good := if mv < 16800 then none else some (x.good.getD b)
    vfHigh := x.vfHigh && decide (30000 < mv) })
  let s := if mv < 16800 then s.supplyBad else s
  let s := if 4 ≤ s.fio.sagRun then s.setSag else s
  let s := if 4 ≤ s.fio.highRun ∧ !s.fio.vfHigh then (s.mapFio (fun x => { x with vfHigh := true })).fioEvent 13 else s
  let s := if lasted s.fio.sagOk b then s.clearSag else s
  if lasted s.fio.good b then s.supplyGood else s

/-- VF_SAMPLE: VF is sampled every 256 beats (R389). -/
def State.vfSampleCmd (s : State) (mv : Nat) : State :=
  let e := s.time.beat / 256 * 256
  let s := s.until (if s.fio.vfBeat < e then e else e + 256)
  if s.fio.lost then s else s.vfSampled mv

/-- CUT_OFF: the comparator detects the cut-off (R391, R393). -/
def State.cutOffCmd (s : State) : State :=
  if s.fio.lost then s
  else
    let was := s.fio.cut
    let s := s.supplyBad.mapFio (fun x => { x with cut := true, sagOk := none })
    if was then s else (s.fioEvent 1).startOrder

/-! ## The link (R372) -/

/-- FIELD_LINK_LOSS (R372, R395). -/
def State.linkLossCmd (s : State) : State :=
  if s.fio.lost then s
  else
    let s := s.startOrder
    let s := { s with regs := s.regs.filter (fun e => !fioConfig e.1) }
    let s := (s.mapFio (fun x => { x with linkOk := false, lost := true, en := false, cfg := [] })).fioEvent 3
    if s.fio.inSpan then s.fioPost else s

/-- FIELD_LINK_RESTORED (R372). -/
def State.linkRestoredCmd (s : State) : State := s.mapFio (fun x => { x with linkOk := true, lost := false })

/-! ## The latch and the strike (R381, R383) -/

/-- The bytes 4 to 279 of the input image (R380). -/
def State.latchedFields (s : State) : List Byte :=
  let x := s.fio
  let supply := flag x.sag 0 ||| flag x.cut 1 ||| flag x.supplyInv 2 ||| flag x.dieOt 3 ||| flag x.vfHigh 4 |||
    BitVec.ofNat 16 (x.vf * 256)
  wordsBytes [x.rb, supply] ++ toBytes (s.inBits (fun i => i.open')) 4 ++
  wordsBytes [outBits s.outHeld, outBits (fun j => x.outputs[j].openNow), outBits (fun j => x.outputs[j].stuckNow), 0] ++
  toBytes (s.inBits (fun i => i.noEdge)) 4 ++
  x.inputs.toList.flatMap (fun i => toBytes i.cnt.toNat 4) ++ x.inputs.toList.flatMap (fun i => toBytes i.period.toNat 4)

/-- The beat of the next strike as the tick in progress foretells it. -/
def State.nextStrike (s : State) : Option Nat :=
  if s.tick.running then
    some (s.tick.tBeat + s.tick.lPrime + (if s.tick.struck then s.tick.pk else 0))
  else none

/-- FIELD_LATCH: periods are formed and every latched field is written, 512 beats before a strike (R377, R381). -/
def State.fieldLatchCmd (s : State) (rb : Word) : State :=
  let s := s.untilSome (s.nextStrike.map (fun b => b - 512))
  if s.fio.lost then s
  else
    let s := s.mapFio (fun x => { x with
      rb := rb
      inputs := (Vector.finRange 32).map (fun i => x.inputs[i].measure (s.fcfg (0x100 + 2 * i.val) 7 1 == 1))
      outputs := (Vector.finRange 16).map (fun j =>
        let y := x.outputs[j]; { y with stuckNow := y.stuckNow && bit rb j.val }) })
    if s.fioPosts && s.fio.inSpan then s.fioStore 4 s.latchedFields else s

/-- The output image is read: bit j of word 0 commands Oj (R383). -/
def State.readOutputs (s : State) : State :=
  let i := s.rfld (fioOff 0xA) 0 10
  let buf := if (s.image i).everSealed then (s.image i).sealedSide else !s.jnr.side
  match s.readBuffer 21 i buf 0 2 with
  | (s, some l) =>
    let w := BitVec.ofNat 16 (ofBytes l)
    (finList 16).foldl (fun s j => s.mapOut j (fun x => { x with cmd := bit w j.val })) s
  | (s, none) => s

/-- The proxy at a strike whose beat is `beat` (R381, R383, R395). -/
def State.fioStrike (s : State) (beat : Nat) : State :=
  let s := s.latchFio.mapFio (fun x => { x with inSpan := true })
  let s := if s.fio.lost then s else (s.writeLevel false).writeLevel true
  let s := s.fioPost
  if s.fioPosts then
    let read := (s.image (s.rfld (fioOff 0xA) 0 10)).latched || !s.fio.firstRead
    let s := s.mapFio (fun x => { x with firstRead := true })
    (if read then s.readOutputs else s).driveOutputs beat
  else s

/-! ## Registers (R395) -/

def fioSpecs : List RegSpec :=
  [{ base := 0xB0004, rw := 0, w1c := 0x3FFF }, { base := 0xB0006, rw := 0x3FFF }, { base := 0xB0008, rw := 0x3FF, n := 2 },
   { base := 0xB000C, rw := 0, pair := true }, { base := 0xB0018, rw := 0, w1c := 0xFFFF, n := 3 },
   { base := 0xB001E, rw := 0, w1c := 0xFFFF, pair := true }, { base := 0xB0026, n := 3 }, { base := 0xB002C, rw := 0xFFF },
   { base := 0xB0100, rw := 0x7FF, n := 32 }, { base := 0xB0140, rw := 0xFF, n := 15 }, { base := 0xB015E, rw := 0xFE },
   { base := 0xB0180, rw := 0, pair := true, n := 32, stride := 4 }]

/-- A write of FIO_CTRL: EN = 1 enables the outputs from the next strike, EN = 0 switches them off (R373). -/
def State.fioCtrl (s : State) (v : Word) : State :=
  let s := (s.setReg (fioOff 0) (v &&& 1)).mapFio (fun x => { x with en := bit v 0 })
  if bit v 0 then s else (finList 16).foldl State.outOff s

/-- A write to a register of the field unit. -/
def State.fioWrite (s : State) (m : Master) (off : Nat) (v : Word) : State :=
  if off = fioOff 0 then s.fioCtrl v
  else if off = fioOff 0x22 then s.takeFree.1.retry v (Config.causeGone s.free)
  else if off = fioOff 0x24 then s.rearm v
  else s.tableWrite fioSpecs m off v

/-- The registers of the field unit as they read at present. -/
def State.fioLive (s : State) (off : Nat) : Word :=
  let x := s.fio
  let b := s.time.beat
  if off = fioOff 2 then
    flag x.linkOk 0 ||| flag x.sag 1 ||| flag x.cut 2 ||| flag x.supplyInv 3 ||| flag x.dieOt 4 ||| flag x.vfHigh 5 |||
    BitVec.ofNat 16 (x.vf * 256)
  else if off = fioOff 0xC then s.levelWord false
  else if off = fioOff 0xE then s.levelWord true
  else if off = fioOff 0x10 then x.rb
  else if off = fioOff 0x12 then outBits (fun j => x.outputs[j].onAt b)
  else if off = fioOff 0x14 then outBits (fun j => x.outputs[j].ovl)
  else if off = fioOff 0x16 then outBits (fun j => x.outputs[j].otc)
  else if off = fioOff 0x22 ∨ off = fioOff 0x24 then 0
  else if off = fioOff 0x2C then s.reg off ||| 0xF000
  else if off = fioOff 0x30 then
    match x.fifo with
    | e :: _ => BitVec.ofNat 16 e.input.val ||| flag e.rising 5
    | [] => 0
  else if off = fioOff 0x3C then BitVec.ofNat 16 x.fifo.length
  else if fioOff 0x180 ≤ off ∧ off < fioOff 0x200 then
    match finOf 32 ((off - fioOff 0x180) / 4) with
    | some i => wordOf x.inputs[i].cnt.toNat (off % 4 / 2)
    | none => 0
  else s.reg off

/-- The stamp at the head of the edge FIFO, 0 with the FIFO empty. -/
def FieldIO.headTod (x : FieldIO) : Nat :=
  match x.fifo with
  | e :: _ => e.tod.toNat
  | [] => 0

/-- A read of FIO_TS0 (R378). -/
def State.fioTs (s : State) (m : Master) : State × Word :=
  let r := s.groupRead m (fioOff 0x32) 0 5 s.fio.headTod
  ((r.1.latchWord m (fioOff 0x30) (s.fioLive (fioOff 0x30))).edgePop, r.2)

/-- A read of a register of the field unit (R378, R395). -/
def State.fioRead (s : State) (m : Master) (off : Nat) : State × Word :=
  if off = fioOff 0x32 then s.fioTs m
  else if fioOff 0x32 < off ∧ off < fioOff 0x3C then s.groupRead m (fioOff 0x32) ((off - fioOff 0x32) / 2) 5 s.fio.headTod
  else if off = fioOff 0x30 then (s, s.latched m off (s.fioLive off))
  else s.tableRead fioSpecs State.fioLive m off

/-! ## Commands -/

def execInputRecognised (i : Fin 32) (level : Bool) (s : State) : Host.Outcome State Fault Refusal :=
  .next (s.alive fun s => s.inputCmd i level)

def execFioTsRead (m : Master) (s : State) : Host.Outcome State Fault Refusal :=
  .next (s.alive fun s => s.readCmd m (fioOff 0x32) (fun s => s.fioTs m))

def execFieldLatch (rb : Word) (s : State) : Host.Outcome State Fault Refusal :=
  .next (s.alive fun s => s.fieldLatchCmd rb)

def execFieldLinkLoss (s : State) : Host.Outcome State Fault Refusal := .next (s.alive fun s => s.linkLossCmd)

def execFieldLinkRestored (s : State) : Host.Outcome State Fault Refusal := .next (s.alive fun s => s.linkRestoredCmd)

def execVfSample (mv : Nat) (s : State) : Host.Outcome State Fault Refusal := .next (s.alive fun s => s.vfSampleCmd mv)

def execCutOff (s : State) : Host.Outcome State Fault Refusal := .next (s.alive fun s => s.cutOffCmd)

def execCutoffRank (rank : Fin 16) (s : State) : Host.Outcome State Fault Refusal :=
  .next (s.alive fun s => s.cutoffRankCmd rank)

def execOverload (j : Fin 16) (s : State) : Host.Outcome State Fault Refusal := .next (s.alive fun s => s.overloadCmd j)

def execChannelOvertemp (j : Fin 16) (s : State) : Host.Outcome State Fault Refusal :=
  .next (s.alive fun s => s.overtempCmd j)

def execDieOvertemp (s : State) : Host.Outcome State Fault Refusal := .next (s.alive fun s => s.dieOvertempCmd)

def execDieOtClear (s : State) : Host.Outcome State Fault Refusal := .next (s.alive fun s => s.dieOtClearCmd)

def execOpenLoadOn (j : Fin 16) (s : State) : Host.Outcome State Fault Refusal := .next (s.alive fun s => s.openOnCmd j)

def execOpenLoadOff (j : Fin 16) (s : State) : Host.Outcome State Fault Refusal :=
  .next (s.alive fun s => s.openOffCmd j)

def execStuckHigh (j : Fin 16) (s : State) : Host.Outcome State Fault Refusal := .next (s.alive fun s => s.stuckCmd j)

def execInputOpenWire (i : Fin 32) (s : State) : Host.Outcome State Fault Refusal :=
  .next (s.alive fun s => s.openWireCmd i)

def execFioOutRetry (m : Master) (v gone : Word) (s : State) : Host.Outcome State Fault Refusal :=
  .next (s.alive fun s => s.writeCmd m (fioOff 0x22) (fun s => s.retry v gone))

def execFioOutRearm (m : Master) (v : Word) (s : State) : Host.Outcome State Fault Refusal :=
  .next (s.alive fun s => s.writeCmd m (fioOff 0x24) (fun s => s.rearm v))

def execFioCtrlEn (m : Master) (en : Bool) (s : State) : Host.Outcome State Fault Refusal :=
  .next (s.alive fun s => s.writeCmd m (fioOff 0) (fun s => s.fioCtrl (flag en 0)))

end Sys2Proof.Machine
end

