-- ==== Sys2Proof/Machine/HearthCtl.lean ====
section
/-! DEFINITION. The control side of a hearth (11_hearth_architecture.md): states, special registers, trap entry and
return, watchdog, interrupt, and the HRT_ registers with the decode table. -/

namespace Sys2Proof.Machine

open Sys2Proof

/-! ## States (R289, R296, R297) -/

def State.hrtEvent (s : State) (h : HearthId) (i : Nat) : State := s.raise (hrtOff h.val + 4) i

/-- A hearth enters STOPPED: its stalled instruction is abandoned, its epoch advances, what it holds is dropped (R296,
R423, R426, R480, R481). -/
def State.enterStopped (s : State) (h : HearthId) : State :=
  let m := hearthMaster h
  (((s.mapHearth h (fun x => { x with st := .stopped, stall := none, resume := false, wdgEnd := none })).advanceEpoch
    m).dropHold m).dropP0 m

/-- A hearth enters HALTED (R309, R311). -/
def State.haltHearth (s : State) (h : HearthId) : State :=
  s.mapHearth h (fun x => { x with st := .halted, stall := none, resume := false, wdgEnd := none })

/-- A write of HRT_h_CTRL (R289, R297). -/
def State.hrtCtrl (s : State) (h : HearthId) (v : Word) : State :=
  let st := s.hearth[h].st
  if st = .clamped then s.setReg (hrtOff h.val) (merge 2 (s.reg (hrtOff h.val)) v)
  else
    let s := s.setReg (hrtOff h.val) (v &&& 3)
    if bit v 0 then
      if st ≠ .stopped then s
      else if s.taskKind s.tick.mode.val h.val = 2 then s.enterHearth h
      else s.mapHearth h (fun x => { x with st := .idle })
    else if st = .stopped then s else (s.taskStop h).enterStopped h

/-! ## Flags and special registers (R306, R307) -/

def Hearth.flagC (x : Hearth) : Bool := bit x.fl 0
def Hearth.flagZ (x : Hearth) : Bool := bit x.fl 1
def Hearth.flagN (x : Hearth) : Bool := bit x.fl 2
def Hearth.flagV (x : Hearth) : Bool := bit x.fl 3
def Hearth.dzt (x : Hearth) : Bool := bit x.fl 6
def Hearth.ie (x : Hearth) : Bool := bit x.fl 7
def Hearth.flatMode (x : Hearth) : Bool := bit x.fl 8
def Hearth.tact (x : Hearth) : Bool := bit x.fl 9

/-- HVER of the KF6412-A0 (R344). -/
def hver : Word := 0x1F10

/-- A read of a special register by or for a hearth; the time ports share the hearth's latches (R306). -/
def State.specialRead (s : State) (h : HearthId) (n : Nat) : State × Word :=
  let x := s.hearth[h]
  let m := hearthMaster h
  if 17 ≤ n ∧ n < 21 then s.groupRead m 0x20010 (n - 17) 4 s.tick.tick
  else if 21 ≤ n ∧ n < 26 then s.groupRead m 0x10010 (n - 21) 5 s.time.tod
  else if 26 ≤ n ∧ n < 30 then s.groupRead m 0x10030 (n - 26) 4 s.time.beat
  else
    (s, match n with
      | 0 => x.pc
      | 1 => x.pcode.zeroExtend 16
      | 2 => x.pdata.zeroExtend 16
      | 3 => x.pstk.zeroExtend 16
      | 4 => x.pxtra.zeroExtend 16
      | 5 => x.cnt
      | 6 => x.fl
      | 7 => BitVec.ofNat 16 (x.base + 32 * x.res)
      | 8 => x.wsp
      | 9 => x.wslim
      | 10 => hver
      | 11 => x.tpc
      | 12 => x.tpcode.zeroExtend 16
      | 13 => x.tfl
      | 14 => x.tcause
      | 15 => x.tinfoLo
      | 16 => x.tinfoHi.zeroExtend 16
      | _ => 0)

/-- A write of a special register (R306, R307). -/
def State.specialWrite (s : State) (h : HearthId) (n : Nat) (v : Word) : State :=
  s.mapHearth h (fun x => match n with
    | 1 => { x with pcode := v.truncate 10 }
    | 2 => { x with pdata := v.truncate 10 }
    | 3 => { x with pstk := v.truncate 10 }
    | 4 => { x with pxtra := v.truncate 10 }
    | 5 => { x with cnt := v }
    | 6 => { x with fl := merge 0x00FF x.fl v }
    | 7 =>
      let r := fld v 5 5
      { x with base := min 30 (fld v 0 5), res := if r = 0 ∨ r = 31 then 30 else r }
    | 8 => { x with wsp := v &&& 0xFFFE }
    | 9 => { x with wslim := v }
    | 11 => { x with tpc := v }
    | 12 => { x with tpcode := v.truncate 10 }
    | 13 => { x with tfl := v }
    | 14 => { x with tcause := v &&& 0xF }
    | 15 => { x with tinfoLo := v }
    | 16 => { x with tinfoHi := v.truncate 10 }
    | _ => x)

/-! ## Traps (R308, R309) -/

/-- Trap entry at vector `v`: `pc` is the offset that TPC saves, `info` the fault's address or word. A trap other than
WDOG in a handler is a double fault. -/
def State.takeTrap (s : State) (h : HearthId) (v : Nat) (info : Nat) (pc : Word) : State :=
  if s.hearth[h].tact ∧ v ≠ 7 then (s.haltHearth h).hrtEvent h 0
  else s.mapHearth h (fun x => { x with
    tpc := pc, tpcode := x.pcode, tfl := x.fl, tcause := BitVec.ofNat 16 v, tinfoLo := wordOf info 0
    tinfoHi := BitVec.ofNat 10 (info / 65536), fl := (x.fl ||| 0x0300) &&& 0xFF7F, pcode := 0x3FF
    pc := BitVec.ofNat 16 (8 * v), stall := none, resume := false, rep := [] })

/-- RETT: PC, PCODE and FL come back from the trap registers; bits [15:10] of FL read 0 (R307, R309). -/
def State.returnTrap (s : State) (h : HearthId) : State :=
  s.mapHearth h (fun x => { x with pc := x.tpc, pcode := x.tpcode, fl := x.tfl &&& 0x03FF })

/-- INTERRUPT: a pending unmasked line is taken at an instruction boundary (R310). -/
def State.interruptCmd (s : State) (h : HearthId) : State :=
  let x := s.hearth[h]
  if x.st == .running && x.stall.isNone && x.ie && !x.tact &&
      (s.irqPend (hearthMaster h) &&& s.reg (hrtOff h.val + 0x16)) != 0 then s.takeTrap h 10 0 x.pc
  else s

/-! ## Watchdog (R311) -/

/-- WATCHDOG_EXPIRY. -/
def State.watchdogCmd (s : State) (h : HearthId) : State :=
  match s.hearth[h].wdgEnd with
  | none => s
  | some e =>
    if s.hearth[h].st ≠ .running then s
    else
      let s := s.until e
      let x := s.hearth[h]
      if x.tact || x.wdgTrapped then (s.haltHearth h).hrtEvent h 2
      else
        let s := (s.takeTrap h 7 0 x.pc).wdgReload h
        (s.mapHearth h (fun x => { x with wdgTrapped := true })).hrtEvent h 1

/-- A write of WDG_KICK: by the hearth itself it reloads the count. -/
def State.wdgKick (s : State) (m : Master) (h : HearthId) : State :=
  if m = hearthMaster h ∧ s.hearth[h].st = .running then s.wdgReload h else s

/-! ## Access to a stopped hearth (R314, R345) -/

/-- Whether the hearth is STOPPED, HALTED or CLAMPED. -/
def Hearth.open' (x : Hearth) : Bool := x.st == .stopped || x.st == .halted || x.st == .clamped

/-- A read of HRT_h_REG_DATA. -/
def State.regDataRead (s : State) (h : HearthId) : State × Word :=
  let x := s.hearth[h]
  let i := s.rfld (hrtOff h.val + 0x20) 0 9
  if !x.open' then (s.hrtEvent h 6, 0)
  else if i < 256 then (s, Sparse.get 0 x.phys i)
  else if i < 272 then (s, Sparse.get 0 x.flat (i - 256))
  else if i < 302 then s.specialRead h (i - 272)
  else (s, 0)

/-- A write of HRT_h_REG_DATA. -/
def State.regDataWrite (s : State) (h : HearthId) (v : Word) : State :=
  let i := s.rfld (hrtOff h.val + 0x20) 0 9
  if !s.hearth[h].open' then s.hrtEvent h 6
  else if i < 256 then s.mapHearth h (fun x => { x with phys := Sparse.set 0 x.phys i v })
  else if i < 272 then s.mapHearth h (fun x => { x with flat := Sparse.set 0 x.flat (i - 256) v })
  else if i < 302 then s.specialWrite h (i - 272) v
  else s

/-- BENCH_IDX advances. -/
def State.benchNext (s : State) (h : HearthId) : State :=
  let o := hrtOff h.val + 0x30
  s.setReg o (BitVec.ofNat 16 (((s.reg o).toNat + 1) % 8192))

/-- A read of HRT_h_BENCH_DATA. -/
def State.benchRead (s : State) (h : HearthId) : State × Word :=
  if s.hearth[h].open' then (s.benchNext h, Sparse.get 0 s.hearth[h].bench (s.rfld (hrtOff h.val + 0x30) 0 13))
  else (s.hrtEvent h 6, 0)

/-- A write of HRT_h_BENCH_DATA: the word with a fresh code. -/
def State.benchWrite (s : State) (h : HearthId) (v : Word) : State :=
  let i := s.rfld (hrtOff h.val + 0x30) 0 13
  if s.hearth[h].open' then
    (s.mapHearth h (fun x => { x with
      bench := Sparse.set 0 x.bench i v, benchEcc := Sparse.set 0 x.benchEcc i 0 })).benchNext h
  else s.hrtEvent h 6

/-- UC_IDX advances. -/
def State.ucNext (s : State) (h : HearthId) : State :=
  let o := hrtOff h.val + 0x120
  s.setReg o (BitVec.ofNat 16 (((s.reg o).toNat + 1) % 512))

/-- Whether the decode table may be accessed: not RUNNING or IDLE (R345). -/
def State.ucOpen (s : State) (h : HearthId) : Bool := s.hearth[h].open'

/-- UC_CMD.READ: the micro-operation at UC_IDX to UC_W0 to UC_W2. -/
def State.ucLoad (s : State) (h : HearthId) : State :=
  let i := s.rfld (hrtOff h.val + 0x120) 0 9
  let w := fun k => Sparse.get 0 s.hearth[h].uops (3 * i + k)
  let o := hrtOff h.val + 0x124
  ((s.setReg o (w 0)).setReg (o + 2) (w 1)).setReg (o + 4) (w 2)

/-- A micro-operation that R343 does not refuse. -/
def uopOk (w0 w2 : Word) : Bool :=
  let u := fld w0 0 5
  decide (u < 29) && fld w0 5 3 != 7 && (u != 17 || bit w0 15) && (u != 19 || !bit w0 15) && fld w2 14 2 == 0

/-- Store a micro-operation with fresh codes. -/
def State.putUop (s : State) (h : HearthId) (i : Nat) (w : List Word) : State :=
  s.mapHearth h (fun x => { x with
    uops := Sparse.setAll 0 x.uops (3 * i) w, uopEcc := Sparse.setAll 0 x.uopEcc (3 * i) (w.map (fun _ => 0)) })

/-- UC_CMD.WRITE: UC_W0 to UC_W2 to the micro-operation at UC_IDX, unless R343 refuses them. -/
def State.ucStore (s : State) (h : HearthId) : State :=
  let o := hrtOff h.val + 0x124
  let i := s.rfld (hrtOff h.val + 0x120) 0 9
  if uopOk (s.reg o) (s.reg (o + 4)) then s.putUop h i [s.reg o, s.reg (o + 2), s.reg (o + 4)] else s.hrtEvent h 6

/-- A write of HRT_h_UC_CMD with READ or WRITE set; UC_IDX advances after it (R345). -/
def State.ucCmd (s : State) (h : HearthId) (rd wr : Bool) : State :=
  if !rd && !wr then s
  else if s.ucOpen h then
    let s := if rd then s.ucLoad h else s
    (if wr then s.ucStore h else s).ucNext h
  else s.hrtEvent h 6

/-- A write of a customer entry (R338, R345). -/
def State.ciWrite (s : State) (h : HearthId) (k : Nat) (v : Word) : State :=
  if s.ucOpen h then s.setReg (hrtOff h.val + 0x100 + 2 * k) v else s.hrtEvent h 6

/-! ## Registers (R314, R345) -/

def hrtSpecs : List RegSpec :=
  [{ base := 0x90004, rw := 0, w1c := 0x7F, n := 12, stride := 0x200 }, { base := 0x90006, rw := 0x7F, n := 12, stride := 0x200 },
   { base := 0x90010, n := 12, stride := 0x200 }, { base := 0x90014, n := 12, stride := 0x200 },
   { base := 0x90016, n := 12, stride := 0x200 }, { base := 0x90020, rw := 0x1FF, n := 12, stride := 0x200 },
   { base := 0x90030, rw := 0x1FFF, n := 12, stride := 0x200 }, { base := 0x90120, rw := 0x1FF, n := 12, stride := 0x200 },
   { base := 0x90124, n := 3, m := 12, outer := 0x200 }]

/-- A write to a register of the HRT_ block. -/
def State.hrtWrite (s : State) (m : Master) (off : Nat) (v : Word) : State :=
  match finOf 12 ((off - 0x90000) / 0x200) with
  | some h =>
    let o := (off - 0x90000) % 0x200
    if o = 0 then s.hrtCtrl h v
    else if o = 0x12 then s.wdgKick m h
    else if o = 0x22 then s.regDataWrite h v
    else if o = 0x32 then s.benchWrite h v
    else if 0x100 ≤ o ∧ o < 0x120 then s.ciWrite h ((o - 0x100) / 2) v
    else if o = 0x122 then s.ucCmd h (bit v 0) (bit v 1)
    else s.tableWrite hrtSpecs m off v
  | none => s

/-- STATE (R289). -/
def HState.code : HState → Nat
  | .stopped => 0
  | .idle => 1
  | .running => 2
  | .halted => 3
  | .clamped => 4

/-- A read of a register of the HRT_ block. -/
def State.hrtRead (s : State) (_m : Master) (off : Nat) : State × Word :=
  match finOf 12 ((off - 0x90000) / 0x200) with
  | some h =>
    let o := (off - 0x90000) % 0x200
    let x := s.hearth[h]
    if o = 0x22 then s.regDataRead h
    else if o = 0x32 then s.benchRead h
    else
      (s, if o = 2 then
          BitVec.ofNat 16 x.st.code ||| flag x.flatMode 3 ||| flag x.tact 4 ||| BitVec.ofNat 16 (32 * x.res) |||
            flag x.stall.isSome 10
        else if o = 8 then x.pc
        else if o = 0xA then x.pcode.zeroExtend 16
        else if o = 0x18 then s.irqPend (hearthMaster h)
        else if o = 0x12 ∨ o = 0x122 then 0
        else s.reg off)
  | none => (s, 0)

/-! ## Commands -/

def execHearthRun (m : Master) (h : HearthId) (s : State) : Host.Outcome State Fault Refusal :=
  .next (s.alive fun s => s.writeCmd m (hrtOff h.val) (fun s => s.hrtCtrl h (setBit (s.reg (hrtOff h.val)) 0 true)))

def execHearthStop (m : Master) (h : HearthId) (s : State) : Host.Outcome State Fault Refusal :=
  .next (s.alive fun s => s.writeCmd m (hrtOff h.val) (fun s => s.hrtCtrl h (setBit (s.reg (hrtOff h.val)) 0 false)))

def execWatchdogExpiry (h : HearthId) (s : State) : Host.Outcome State Fault Refusal :=
  .next (s.alive fun s => s.watchdogCmd h)

def execHrtWdgKick (m : Master) (h : HearthId) (_v : Word) (s : State) : Host.Outcome State Fault Refusal :=
  .next (s.alive fun s => s.writeCmd m (hrtOff h.val + 0x12) (fun s => s.wdgKick m h))

def execInterrupt (h : HearthId) (s : State) : Host.Outcome State Fault Refusal :=
  .next (s.alive fun s => s.interruptCmd h)

def execHrtRegData (m : Master) (h : HearthId) (wr : Option Word) (s : State) : Host.Outcome State Fault Refusal :=
  match wr with
  | some v => .next (s.alive fun s => s.writeCmd m (hrtOff h.val + 0x22) (fun s => s.regDataWrite h v))
  | none => .next (s.alive fun s => s.readCmd m (hrtOff h.val + 0x22) (fun s => s.regDataRead h))

def execHrtBenchData (m : Master) (h : HearthId) (wr : Option Word) (s : State) : Host.Outcome State Fault Refusal :=
  match wr with
  | some v => .next (s.alive fun s => s.writeCmd m (hrtOff h.val + 0x32) (fun s => s.benchWrite h v))
  | none => .next (s.alive fun s => s.readCmd m (hrtOff h.val + 0x32) (fun s => s.benchRead h))

def execUcRead (m : Master) (h : HearthId) (s : State) : Host.Outcome State Fault Refusal :=
  .next (s.alive fun s => s.writeCmd m (hrtOff h.val + 0x122) (fun s => s.ucCmd h true false))

def execUcWrite (m : Master) (h : HearthId) (s : State) : Host.Outcome State Fault Refusal :=
  .next (s.alive fun s => s.writeCmd m (hrtOff h.val + 0x122) (fun s => s.ucCmd h false true))

def execCiEntryWrite (m : Master) (h : HearthId) (k : Fin 16) (v : Word) (s : State) :
    Host.Outcome State Fault Refusal :=
  .next (s.alive fun s => s.writeCmd m (hrtOff h.val + 0x100 + 2 * k.val) (fun s => s.ciWrite h k.val v))

end Sys2Proof.Machine
end

