-- ==== Sys2Proof/Machine/Crc.lean ====
section
/-! DEFINITION. The CRC-32 of IEEE 802.3, as the Ethernet FCS uses it (R131, R139), and the ones' complement sum of IPv4. -/

namespace Sys2Proof.Machine

open Sys2Proof

/-- One bit of the reflected CRC-32. -/
def crcBit (c : BitVec 32) : BitVec 32 := if c.getLsbD 0 then (c >>> 1) ^^^ 0xEDB88320 else c >>> 1

/-- One byte of the CRC-32. -/
def crcByte (c : BitVec 32) (b : Byte) : BitVec 32 :=
  let c := c ^^^ b.zeroExtend 32
  crcBit (crcBit (crcBit (crcBit (crcBit (crcBit (crcBit (crcBit c)))))))

/-- The CRC-32 of bytes in transmission order. -/
def crc32 (l : List Byte) : BitVec 32 := ~~~(l.foldl crcByte 0xFFFFFFFF)

/-- The FCS bytes of a frame in transmission order, and the stomp code, their inverse (R139). -/
def fcsBytes (l : List Byte) : List Byte := toBytes (crc32 l).toNat 4
def stompBytes (l : List Byte) : List Byte := toBytes (~~~(crc32 l)).toNat 4

/-- The sum of 16-bit big-endian words; an odd byte at the end is the high byte of a word. -/
def beSum : List Byte → Nat
  | [] => 0
  | [a] => a.toNat * 256
  | a :: b :: r => a.toNat * 256 + b.toNat + beSum r

/-- The Internet checksum of a sum. -/
def inetSum (n : Nat) : Nat :=
  let a := n % 65536 + n / 65536
  let b := a % 65536 + a / 65536
  65535 - (b % 65536 + b / 65536)

end Sys2Proof.Machine
end

