-- ==== Sys2Proof/Machine/Switch.lean ====
section
/-! DEFINITION. The switch fabric (05_switch_fabric.md): cells, lookup, the forwarding decision, verdicts, queues, gates,
PAUSE and mirror sessions. -/

namespace Sys2Proof.Machine

open Sys2Proof

/-! ## Access -/

def State.mapSwf (s : State) (f : Switch → Switch) : State := { s with swf := f s.swf }
def State.mapEgress (s : State) (p : PortId) (f : Egress → Egress) : State :=
  s.mapSwf (fun x => { x with ports := upd x.ports p f })
def State.frame? (s : State) (id : Nat) : Option Frame := s.swf.frames.find? (fun f => f.id == id)
def State.mapFrame (s : State) (id : Nat) (g : Frame → Frame) : State :=
  s.mapSwf (fun x => { x with frames := x.frames.map (fun f => if f.id == id then g f else f) })

/-- Offset of a port's and of a mirror session's registers (R156), and of a port's MAC registers (R174). -/
def swfPort (p : Nat) : Nat := 0x40600 + 0x20 * p
def mirOff (n : Nat) : Nat := 0x40400 + 0x20 * n
def macOff (p : Nat) : Nat := 0x50000 + 0x400 * p

/-- An event of SWF_EVENT, and a bit of MAC_Pp_STAT (R170). -/
def State.swfEvent (s : State) (i : Nat) : State := s.raise 0x40004 i
def State.macStat (s : State) (p i : Nat) : State := s.raise (macOff p + 2) i

/-- A modulated rate in Mbit/s of a MODE code (R157). -/
def modeRate (mode : Nat) : Nat :=
  match mode with
  | 1 => 10000
  | 2 => 10000
  | 3 => 5000
  | 4 => 2500
  | 5 => 1000
  | 6 => 1000
  | 7 => 100
  | 8 => 10
  | 9 => 2500
  | _ => 0

/-- The MODE of a port as it stands: a MODE that the port does not allow is 0 (R157). -/
def State.macMode (s : State) (p : Nat) : Nat :=
  let m := s.rfld (macOff p) 0 4
  if p < 2 then (if 1 ≤ m ∧ m ≤ 5 then m else 0) else if p < 10 then (if 6 ≤ m ∧ m ≤ 9 then m else 0) else 0

/-- Whether a port's link is up; P10 has no lane (R130, R157). -/
def State.portUp (s : State) (p : PortId) : Bool := p.val == 10 || s.mac.ports[p].up

/-- The rate of a port in Mbit/s (R124, R157). -/
def State.portRate (s : State) (p : PortId) : Nat :=
  if p.val = 10 then 20000 else modeRate s.mac.ports[p].rate.toNat

/-- Beats that `n` bytes take at a rate in Mbit/s: 4.294967296 beats a byte at 1 Gbit/s (R136). -/
def byteBeats (n rate : Nat) : Nat := ceilDiv (n * 2 ^ 32) (rate * 1000000)

/-- MAXLEN of a port (R156): 64 to 9,216. -/
def State.maxLen (s : State) (p : Nat) : Nat := max 64 (min 9216 (s.reg (swfPort p + 8)).toNat)

/-- Whether preemption is active on a port (R146): enabled, and verified by the partner. -/
def State.preempts (s : State) (p : PortId) : Bool :=
  p.val != 10 && s.rbit (swfPort p.val) 4 && s.mac.ports[p].up && Config.partnerVerifies p.val

/-- Whether a queue of a port is express; with no active preemption all queues are of one class. -/
def State.expressQ (s : State) (p : PortId) (q : Nat) : Bool := s.preempts p && s.rbit (swfPort p.val + 0xE) q

/-! ## Headers (R129, R130) -/

/-- What the lookup takes from the first 22 bytes of a frame. -/
structure Hdr where
  da : Nat
  sa : Nat
  tagged : Bool
  tci : Nat
  etype : Nat
  l3 : Nat
  deriving DecidableEq, Repr

/-- Read the header of a frame; addresses have their first transmitted byte lowest. -/
def hdrOf (l : List Byte) : Hdr :=
  let be := fun k => ofBytesBE ((l.drop k).take 2)
  let tagged := be 12 == 0x8100
  { da := ofBytes (l.take 6), sa := ofBytes ((l.drop 6).take 6), tagged := tagged, tci := if tagged then be 14 else 0,
    etype := if tagged then be 16 else be 12, l3 := if tagged then 18 else 14 }

/-- The link-local addresses 01-80-C2-00-00-00 to 01-80-C2-00-00-0F (R130). -/
def linkLocal (da : Nat) : Bool := da % 2 ^ 40 == 0xC28001 && decide (da / 2 ^ 40 < 16)

/-! ## Tables -/

/-- Words of a table entry; one with a double error reads as empty (R156). -/
def State.swfWords (s : State) (tab : Sparse Word) (ecc k n : Nat) : List Word :=
  if eccAny s.swf.tableEcc (ecc + k) n 2 then List.replicate n 0 else Sparse.getAll 0 tab k n
def State.mtEntry (s : State) (e : Nat) : List Word := s.swfWords s.swf.mt 0 (5 * e) 5
def State.vlEntry (s : State) (v : Nat) : List Word := s.swfWords s.swf.vl 100000 (2 * v) 2
def State.rlEntry (s : State) (r : Nat) : List Word := s.swfWords s.swf.rl 120000 (16 * r) 16

/-- The bucket of an address in a VLAN (R131). -/
def mtBucket (vid addr : Nat) : Nat := (crc32 (toBytesBE vid 2 ++ toBytes addr 6)).toNat % 4096

/-- TYPE of an entry, and whether it is that of an address in a VLAN. -/
def mtType (w : List Word) : Nat := fld (nthD w 3 0) 12 2
def mtMatches (w : List Word) (vid addr : Nat) : Bool :=
  mtType w != 0 && ofWords (w.take 3) == addr && fld (nthD w 3 0) 0 12 == vid

/-- The entry of an address in a VLAN, and the first empty way of its bucket. -/
def State.mtFind (s : State) (vid addr : Nat) : Option Nat :=
  ((List.range 4).map (fun k => 4 * mtBucket vid addr + k)).find? (fun e => mtMatches (s.mtEntry e) vid addr)
def State.mtEmpty (s : State) (vid addr : Nat) : Option Nat :=
  ((List.range 4).map (fun k => 4 * mtBucket vid addr + k)).find? (fun e => mtType (s.mtEntry e) == 0)

/-- Store words of a switch table with fresh codes. -/
def State.storeMt (s : State) (e : Nat) (w : List Word) : State :=
  s.mapSwf (fun x => { x with
    mt := Sparse.setAll 0 x.mt (5 * e) w, tableEcc := Sparse.setAll 0 x.tableEcc (5 * e) (w.map (fun _ => 0)) })
def State.storeVl (s : State) (v : Nat) (w : List Word) : State :=
  s.mapSwf (fun x => { x with
    vl := Sparse.setAll 0 x.vl (2 * v) w, tableEcc := Sparse.setAll 0 x.tableEcc (100000 + 2 * v) (w.map (fun _ => 0)) })
def State.storeRl (s : State) (r : Nat) (w : List Word) : State :=
  s.mapSwf (fun x => { x with
    rl := Sparse.setAll 0 x.rl (16 * r) w, tableEcc := Sparse.setAll 0 x.tableEcc (120000 + 16 * r) (w.map (fun _ => 0)) })

/-- The ports of a mask. -/
def portsOf (mask : Nat) : List Nat := (List.range 11).filter (fun p => mask.testBit p)

/-! ## Cells (R126, R127) -/

/-- Σ RES over the ports. -/
def State.resSum (s : State) : Nat := ((List.range 11).map (fun p => (s.reg (swfPort p + 0xA)).toNat)).foldl (· + ·) 0

/-- Free cells of the shared pool. -/
def State.poolFree (s : State) : Nat :=
  let inRes := s.swf.resUsed.toList.foldl (· + ·) 0
  (32768 - s.resSum) - (32768 - s.swf.free - inRes)

/-- Admit one cell of a frame of port `p` whose reserve is `res`: from the reserve first, then from the pool (R127). -/
def State.admitCell (s : State) (p : PortId) (res : Nat) : Option (State × Bool) :=
  if s.swf.resUsed[p] < res then
    some (s.mapSwf (fun x => { x with resUsed := upd x.resUsed p (· + 1), free := x.free - 1 }), true)
  else if 0 < s.poolFree then some (s.mapSwf (fun x => { x with free := x.free - 1 }), false)
  else none

/-- Admit `n` cells; none if one is refused. -/
def State.admitCells (s : State) (p : PortId) (res : Nat) : Nat → Option (State × Nat × Nat)
  | 0 => some (s, 0, 0)
  | n + 1 =>
    match s.admitCell p res with
    | some (s, own) =>
      match s.admitCells p res n with
      | some (s, a, b) => some (s, if own then (a + 1, b) else (a, b + 1))
      | none => none
    | none => none

/-- A frame leaves the buffer: its cells return (R126). -/
def State.freeFrame (s : State) (f : Frame) : State :=
  s.mapSwf (fun x => { x with
    frames := x.frames.filter (fun g => g.id != f.id), free := x.free + f.cellsRes + f.cellsPool
    resUsed := upd x.resUsed f.ingress (fun n => n - f.cellsRes) })

/-- The cells of a frame return once its verdict is known and no egress port needs it (R126). -/
def State.releaseFrame (s : State) (id : Nat) : State :=
  match s.frame? id with
  | some f => if f.verdict.isSome && f.needs.isEmpty then s.freeFrame f else s
  | none => s

/-- Egress port `e` is done with a frame. -/
def State.doneWith (s : State) (id e : Nat) : State :=
  (s.mapFrame id (fun f => { f with needs := f.needs.filter (fun x => x != e) })).releaseFrame id

/-- Cells that a queue of a port holds (R128). -/
def State.queueCells (s : State) (e : PortId) (q : Fin 8) : Nat :=
  (s.swf.ports[e].queues[q].map (fun id => match s.frame? id with
    | some f => f.cellsRes + f.cellsPool
    | none => 0)).foldl (· + ·) 0

/-! ## Gates (R144, R145) -/

/-- Entry `i` of the gate list of a port in a mode. -/
def State.gate (s : State) (p m i : Nat) : Gate := Sparse.get Gate.reset s.swf.gcl ((p * 8 + m) * 64 + i)

/-- The mode of the next tick, as far as it is committed. -/
def State.nextMode (s : State) : Nat :=
  match s.tick.req with
  | some r => if r.commit == some (s.tick.tick + 1) then r.mode.val else s.tick.mode.val
  | none => s.tick.mode.val

/-- The gate states of a port now: P10 has all gates open (R124); the list's entry while ticks run. -/
def State.gatesNow (s : State) (p : PortId) : BitVec 8 :=
  if p.val = 10 then 0xFF
  else if s.tick.running then (s.gate p.val s.tick.mode.val s.swf.ports[p].gateIdx).gates
  else Config.idleGates p.val

/-- The end of an open interval of queue q's gate that stands open in entry `i` from beat `t` on (R144, R145). -/
def State.gateClose (s : State) (p q i : Nat) : Nat → Nat → Nat
  | 0, t => t
  | f + 1, t =>
    let m := s.tick.mode.val
    let g := s.gate p m i
    let tickEnd := s.tick.tBeat + s.tick.pk
    let e := if g.last || i == 63 then tickEnd else min tickEnd (t + g.dur)
    if e = tickEnd then
      let n := s.gate p s.nextMode 0
      let p' := s.modeP s.nextMode
      if n.gates.getLsbD q then tickEnd + (if n.last then p' else min p' n.dur) else tickEnd
    else if (s.gate p m (i + 1)).gates.getLsbD q then s.gateClose p q (i + 1) f e
    else e

/-- K of the mode in force (R145). -/
def State.swfKerf (s : State) : Nat := s.rfld (0x40300 + 4 * s.tick.mode.val) 0 15

/-- Whether a frame of `n` bytes may start on queue q of a port now (R145). -/
def State.gatePasses (s : State) (p : PortId) (q n : Nat) : Bool :=
  (s.gatesNow p).getLsbD q &&
  (p.val == 10 || !s.tick.running ||
   (let b := if s.preempts p && !s.expressQ p q then 64 * (1 + s.rfld (swfPort p.val + 0xE) 8 2) else n
    let x := s.swf.ports[p]
    decide (s.time.beat + byteBeats (b + 20) (s.portRate p) + s.swfKerf ≤ s.gateClose p.val q x.gateIdx 64 x.gateFrom)))

/-- Whether a port is paused (R148). -/
def State.paused (s : State) (p : PortId) : Bool :=
  match s.swf.ports[p].pauseEnd with
  | some e => decide (s.time.beat < e)
  | none => false

/-! ## The forwarding decision (R130, R134, R135) -/

/-- Whether a flow rule matches (R134). -/
def ruleMatches (w : List Word) (p : Nat) (l : List Byte) (h : Hdr) (vid : Nat) : Bool :=
  let x := fun k => (nthD w k 0).toNat
  let n := fun k => nthD w k 0
  let da := ofWords (w.take 3)
  let mask := ofWords ((w.drop 3).take 3)
  let vm := fld (n 7) 0 12
  let pm := fld (n 7) 12 3
  let dm := fld (n 10) 6 6
  let b0 := nthD l h.l3 0
  let dscp := (nthD l (h.l3 + 1) 0).toNat / 4
  bit (n 12) 11 && bit (n 11) p && (da ^^^ h.da) &&& mask == 0 &&
  (fld (n 6) 0 12 ^^^ vid) &&& vm == 0 && (fld (n 6) 12 3 ^^^ h.tci / 8192) &&& pm == 0 &&
  (!bit (n 7) 15 || bit (n 6) 15 == h.tagged) &&
  (x 8 ^^^ h.etype) &&& x 9 == 0 &&
  (!bit (n 10) 12 || (h.etype == 0x0800 && b0.toNat / 16 == 4 && (fld (n 10) 0 6 ^^^ dscp) &&& dm == 0))

/-- The class of a queue of a port is busy: a frame of it is in transmission or about to be (R135). -/
def State.classBusy (s : State) (e : PortId) (q : Nat) : Bool :=
  let x := s.swf.ports[e]
  let ids := x.handed ++ x.sending.toList ++ x.preempted.toList
  ids.any (fun id => match s.frame? id with
    | some f => match f.dec with
      | some d => s.expressQ e d.queue.val == s.expressQ e q
      | none => true
    | none => false)

/-- The tests of R135 for cut-through to port `e`. -/
def State.cutTest (s : State) (f : Frame) (noCut : Bool) (q : Fin 8) (e : PortId) : Bool :=
  s.rbit (swfPort f.ingress.val) 0 && s.rbit (swfPort e.val) 0 && !noCut &&
  (e.val == 10 || decide (s.portRate e ≤ s.portRate f.ingress)) &&
  s.swf.ports[e].queues[q].isEmpty && !s.classBusy e q.val && !s.paused e &&
  s.gatePasses e q.val (s.maxLen e.val) && (!s.preempts f.ingress || f.express)

/-- The queue limits of R128 on an egress set. -/
def State.underLimit (s : State) (q : Fin 8) (l : List Nat) : List Nat :=
  l.filter (fun e => match finOf 11 e with
    | some e => decide (s.queueCells e q < (s.reg (swfPort e.val + 0xC)).toNat)
    | none => false)

/-- The ports of a list whose links are up. -/
def State.upPorts (s : State) (l : List Nat) : List Nat :=
  l.filter (fun e => match finOf 11 e with
    | some e => s.portUp e
    | none => false)

/-- The flow rule that applies to a frame: the lowest-numbered enabled one that matches (R134). -/
def State.ruleOf (s : State) (p : Nat) (l : List Byte) (h : Hdr) (vid : Nat) : Option Nat :=
  (List.range 256).find? (fun r => ruleMatches (s.rlEntry r) p l h vid)

/-- What a rule's ACTION makes of an egress set, or "rule drop" (R134). -/
def ruleEgress (w : List Word) (eg : List Nat) : Option (List Nat) :=
  let mask := fld (nthD w 13 0) 0 11
  match fld (nthD w 12 0) 0 2 with
  | 0 => some eg
  | 1 => some (portsOf mask)
  | 2 => none
  | _ => some (portsOf (mask ||| eg.foldl (fun x e => x ||| 2 ^ e) 0))

/-- The decision of R130 on a frame whose first 22 bytes are in; cut-through is decided after it. -/
def State.decision (s : State) (f : Frame) : Decision × Bool :=
  let h := hdrOf f.bytes
  let c := swfPort f.ingress.val
  let vid := if h.tagged && h.tci % 4096 != 0 then h.tci % 4096 else s.rfld (c + 2) 0 12
  let map := s.rfld (c + 4) 0 12 + 4096 * s.rfld (c + 6) 0 12
  let pri : Fin 8 := Fin.ofNat 8 (if h.tagged then bitsAt map (3 * (h.tci / 8192)) 3 else s.rfld c 5 3)
  let forced := match f.opts with
    | some o => o.qset
    | none => none
  let base : Decision :=
    { vid := BitVec.ofNat 12 vid, pri := pri, queue := forced.getD pri, tagged := h.tagged, trapped := false,
      consumed := false, egress := [], cut := [], rule := none, mirror := 0, drop := none }
  let vl := nthD (s.vlEntry vid) 0 0
  if h.etype = 0x8808 then ({ base with consumed := true, drop := some 0x1C }, false)
  else if linkLocal h.da then
    let eg := s.underLimit base.queue [10]
    ({ base with trapped := true, egress := eg, drop := if eg.isEmpty then some 0x18 else none }, false)
  else if vid = 4095 ∨ bit vl 11 = false ∨ (s.rbit c 1 ∧ bit vl f.ingress.val = false) then
    ({ base with drop := some 0x15 }, false)
  else
    let eg := match s.mtFind vid h.da with
      | some e => portsOf (fld (nthD (s.mtEntry e) 4 0) 0 11)
      | none => portsOf (fld vl 0 11)
    let rule := s.ruleOf f.ingress.val f.bytes h vid
    let w := match rule with
      | some r => s.rlEntry r
      | none => []
    let q : Fin 8 := if bit (nthD w 12 0) 2 then Fin.ofNat 8 (fld (nthD w 12 0) 3 3) else base.pri
    let base := { base with rule := rule, mirror := fld (nthD w 12 0) 6 4, queue := forced.getD q }
    match ruleEgress w eg with
    | none => ({ base with drop := some 0x16 }, false)
    | some eg =>
      let eg := s.upPorts (eg.filter (fun e => bit vl e && e != f.ingress.val))
      let lim := s.underLimit base.queue eg
      ({ base with
          egress := lim
          drop := if eg.isEmpty then some 0x17 else if lim.isEmpty then some 0x18 else none },
        bit (nthD w 12 0) 10)

/-- Push a stamp of a group's FIFO, or set TS_OVF (R172). -/
def State.tsPush (s : State) (g : Fin 16) (e : TsEntry) : State :=
  if s.mac.groups[g].ts.length < 4 then
    { s with mac := { s.mac with groups := upd s.mac.groups g (fun x => { x with ts := x.ts ++ [e] }) } }
  else s.raise (0x53014 + 0x80 * g.val) 4

/-- Hand a frame to its cut-through ports (R136, R142). -/
def State.handOver (s : State) (id : Nat) (cut : List Nat) : State :=
  cut.foldl (fun s e => match finOf 11 e with
    | some e => s.mapEgress e (fun x => { x with handed := x.handed ++ [id] })
    | none => s) s

/-- Decide a frame (R130, R135); a descriptor that asks for a stamp of a port that the frame does not leave by gets a
MISSED entry (R172). -/
def State.decideFrame (s : State) (f : Frame) : State :=
  let r := s.decision f
  let cut := r.1.egress.filter (fun e => match finOf 11 e with
    | some e => s.cutTest f r.2 r.1.queue e
    | none => false)
  let d := { r.1 with cut := cut }
  let s := s.mapFrame f.id (fun f => { f with dec := some d, needs := d.egress })
  let s := match f.opts with
    | some o => if o.tsreq && !d.egress.contains o.tsPort then
        s.tsPush o.group { tod := 0, desc := o.desc, missed := true } else s
    | none => s
  s.handOver f.id cut

/-! ## Sent frames -/

/-- Read and write big-endian fields in a frame. -/
def beAt (l : List Byte) (k n : Nat) : Nat := ofBytesBE ((l.drop k).take n)
def setBeAt (l : List Byte) (k n x : Nat) : List Byte := splice l k (toBytesBE x n)

/-- Whether a frame is UDP over IPv4, and where its UDP header begins. -/
def udpAt (l : List Byte) : Option Nat :=
  let h := hdrOf l
  let b0 := (nthD l h.l3 0).toNat
  if h.etype = 0x0800 ∧ b0 / 16 = 4 ∧ (nthD l (h.l3 + 9) 0).toNat = 17 then some (h.l3 + 4 * (b0 % 16)) else none

/-- The one-step rewrite at egress time `t` of a PTP message at offset `o` (R173, R54, R55). -/
def oneStep (l : List Byte) (o : Nat) (t : BitVec 80) : List Byte :=
  let f := t.toNat % 2 ^ 32
  let ns := nsOf f
  let sec := t.toNat / 2 ^ 32 + (if ns = 1000000000 then 1 else 0)
  let l := setBeAt l (o + 34) 6 (sec % 2 ^ 48)
  let l := setBeAt l (o + 40) 4 (ns % 1000000000)
  let l := setBeAt l (o + 8) 8 (ofInt (asInt (beAt l (o + 8) 8) 64 + nsResidual f) 64)
  match udpAt l with
  | some u => setBeAt l (u + 6) 2 0
  | none => l

/-- The tag of a frame as port `e` sends it: none where the VLAN's UNTAG names the port, else VID and priority of the
decision (R143, R156). P10 keeps a tag as received (R163). The flag tells how far the bytes after the addresses move. -/
def State.retag (s : State) (f : Frame) (e : Nat) (l : List Byte) : List Byte × Int :=
  match f.dec with
  | some d =>
    if e = 10 ∨ f.asIs ∨ d.trapped then (l, 0)
    else
      let plain := l.take 12 ++ l.drop (if d.tagged then 16 else 12)
      if bit (nthD (s.vlEntry d.vid.toNat) 1 0) e then (plain, if d.tagged then -4 else 0)
      else (plain.take 12 ++ toBytesBE (0x81000000 + d.pri.val * 8192 + d.vid.toNat) 4 ++ plain.drop 12,
        if d.tagged then 0 else 4)
  | none => (l, 0)

/-- Whether a verdict is bad (R140): a stomped or dropped form. -/
def badVerdict (v : Nat) : Bool := 0x20 ≤ v || (0x10 ≤ v && v != 0x15 && v != 0x16 && v != 0x17 && v != 0x18 && v != 0x1C)

/-- The bytes of a frame before its FCS, as far as they are sent under its verdict (R140). -/
def State.sentBytes (s : State) (f : Frame) : List Byte :=
  match f.verdict.getD 0 % 16, badVerdict (f.verdict.getD 0) with
  | 4, true => f.bytes
  | 0xA, true => f.bytes
  | 3, true => f.bytes.take (s.maxLen f.ingress.val - 4)
  | 2, true =>
    let l := f.bytes.take (f.bytes.length - 4)
    l ++ List.replicate (60 - l.length) 0
  | _, _ => f.bytes.take (f.bytes.length - 4)

/-- The frame without its FCS as port `e` sends it from time `t` on. -/
def State.egressBody (s : State) (f : Frame) (e : Nat) (t : BitVec 80) : List Byte :=
  let r := s.retag f e (s.sentBytes f)
  match f.opts with
  | some o => if o.onestep && decide (e < 10) then oneStep r.1 ((o.ptpOfs : Int) + r.2).toNat t else r.1
  | none => r.1

/-! ## Verdicts (R140, R141, R154) -/

/-- The bit of SWF_STOMP_CAUSEp of a cause, by the low digit of its verdict code (R156). -/
def causeBit (k : Nat) : Nat :=
  match k with
  | 0x9 => 5
  | 0xA => 6
  | 0xB => 7
  | k => k

/-- Learn a source address from a good tail (R132). -/
def State.learn (s : State) (f : Frame) (d : Decision) : State :=
  let h := hdrOf f.bytes
  let vid := d.vid.toNat
  if d.trapped || d.consumed || !s.rbit (swfPort f.ingress.val) 3 || !bit (nthD (s.vlEntry vid) 0 0) 12 then s
  else
    let entry := fun (typ : Nat) =>
      (List.range 3).map (wordOf h.sa) ++ [BitVec.ofNat 16 (vid + 4096 * typ + 16384), bitMask f.ingress.val]
    let put := fun (e : Nat) => if s.swf.committed = some (s.time.beat, e) then s else s.storeMt e (entry 1)
    match s.mtFind vid h.sa with
    | some e => if mtType (s.mtEntry e) = 1 then put e else s
    | none => match s.mtEmpty vid h.sa with
      | some e => put e
      | none => s.swfEvent 2

/-- A MAC control frame with a good tail: a PAUSE takes effect (R148, R149). -/
def State.pauseFrame (s : State) (f : Frame) (good : Bool) : State :=
  let h := hdrOf f.bytes
  let p := f.ingress
  let s := s.macStat p.val 5
  if good && s.rbit (swfPort p.val) 2 && h.da == 0x010000C28001 && beAt f.bytes h.l3 2 == 1 then
    let n := ceilDiv (beAt f.bytes (h.l3 + 2) 2 * 64 * 2 ^ 32) (s.portRate p * 1000000)
    s.mapEgress p (fun x => { x with pauseEnd := if n = 0 then none else some (s.time.beat + n) })
  else s

/-- The capture record of a frame for session n (R153). -/
def State.captureBytes (s : State) (f : Frame) (n : Fin 4) (v : Nat) : List Byte :=
  let d := f.dec.getD
    { vid := 0, pri := 0, queue := 0, tagged := false, trapped := false, consumed := false, egress := [], cut := [],
      rule := none, mirror := 0, drop := none }
  let eg := (if badVerdict v then d.cut else if v < 2 then d.egress else []).foldl (fun x e => x ||| 2 ^ e) 0
  let head := f.bytes.take 64
  head ++ List.replicate (64 - head.length) 0 ++ toBytes f.stamp.toNat 10 ++
    toBytes (f.ingress.val + 16 * eg + 32768 * b2n (!d.cut.isEmpty)) 2 ++ toBytes f.bytes.length 2 ++ toBytes v 1 ++
    toBytes (d.queue.val + 8 * b2n d.tagged + 16 * n.val) 1 ++ toBytes (d.vid.toNat + 4096 * d.pri.val) 2 ++
    toBytes (d.rule.getD 0 + 256 * b2n d.rule.isSome) 2 ++ toBytes s.swf.mirrors[n].matched.toNat 4 ++
    List.replicate 40 0

/-- A mirror copy: stored and forwarded, admitted and limited as any frame, dropped without a record if refused (R151). -/
def State.mirrorCopy (s : State) (f : Frame) (d : Decision) (a : PortId) (body : List Byte) : State :=
  let l := body ++ fcsBytes body
  if s.queueCells a d.queue < (s.reg (swfPort a.val + 0xC)).toNat then
    match s.admitCells f.ingress f.res (ceilDiv l.length 64) with
    | some (s, own, pool) =>
      let id := s.swf.nextId
      let g := { f with
        id := id, bytes := l, cellsRes := own, cellsPool := pool, verdict := some 0, needs := [a.val], opts := none,
        asIs := true, dec := some { d with egress := [a.val], cut := [] } }
      (s.mapSwf (fun x => { x with frames := x.frames ++ [g], nextId := id + 1 })).mapEgress a
        (fun x => { x with queues := upd x.queues d.queue (fun q => q ++ [id]) })
    | none => s
  else s

/-- Change a mirror session. -/
def State.mapMirror (s : State) (n : Fin 4) (f : Mirror → Mirror) : State :=
  s.mapSwf (fun x => { x with mirrors := upd x.mirrors n f })

/-- A capture record is lost (R152). -/
def State.captureLost (s : State) (n : Fin 4) : State :=
  let o := 0x4040E + 32 * n.val
  ((s.mapMirror n (fun m => { m with lost := satWord m.lost 1 })).markFresh o (satWord (s.freshAt o) 1)).swfEvent 3

/-- Whether a frame is a source of session n (R150). -/
def State.mirrorSource (s : State) (f : Frame) (n : Fin 4) (v : Nat) : Bool :=
  let c := mirOff n.val
  let ports := s.rfld (c + 2) 0 11
  let d := f.dec
  s.rbit c 0 && (match s.rfld c 2 2 with
    | 0 => ports.testBit f.ingress.val
    | 1 => match d with
      | some d => (if badVerdict v then d.cut else if v < 2 then d.egress else []).any (fun e => ports.testBit e)
      | none => false
    | 2 => match d with
      | some d => d.mirror.testBit n.val
      | none => false
    | _ => false)

/-- One mirror session at a verdict (R150 to R152). -/
def State.mirrorOne (s : State) (f : Frame) (v : Nat) (n : Fin 4) : State :=
  if s.mirrorSource f n v then
    let c := mirOff n.val
    let s := s.mapMirror n (fun m => { m with matched := m.matched + 1 })
    if s.swf.mirrors[n].matched.toNat % 2 ^ s.rfld c 8 4 = 0 then
      if s.rbit c 1 then
        if (s.swf.mirrors.toList.map (fun m => m.queue.length)).foldl (· + ·) 0 < 16 then
          let r : CapRec := { bytes := s.captureBytes f n v }
          s.mapMirror n (fun m => { m with queue := m.queue ++ [r] })
        else s.captureLost n
      else match f.dec, finOf 11 (s.rfld c 4 4) with
        | some d, some a =>
          if v < 2 then
            let out := (d.egress.filter (fun e => s.rfld c 2 2 == 1 && (s.rfld (c + 2) 0 11).testBit e)).head?
            let body := match out with
              | some e => s.egressBody f e (s.time.stamp 0)
              | none => f.bytes.take (f.bytes.length - 4)
            s.mirrorCopy f d a body
          else s
        | _, _ => s
    else s
  else s

/-- A frame from P10 with a requested stamp that never leaves by its TS_PORT after all gets a MISSED entry (R172). -/
def State.tsMissed (s : State) (f : Frame) : State :=
  match f.opts with
  | some o =>
    let gone := match f.dec with
      | some d => decide (2 ≤ f.verdict.getD 0) && d.egress.contains o.tsPort && !d.cut.contains o.tsPort
      | none => true
    if f.ingress.val == 10 && o.tsreq && gone then s.tsPush o.group { tod := 0, desc := o.desc, missed := true } else s
  | none => s

/-- The tail of a frame: its verdict from the cause found, if any, and all that follows from it (R132, R137, R139, R148,
R150, R170). -/
def State.settle (s : State) (f : Frame) (cause : Option Nat) : State :=
  let p := f.ingress.val
  let cut := match f.dec with
    | some d => d.cut
    | none => []
  let v := match f.dec.bind (fun d => d.drop), cause with
    | some d, _ => d
    | none, some k => if cut.isEmpty then 0x10 + k else 0x20 + k
    | none, none => if cut.isEmpty then 0 else 1
  let f := { f with verdict := some v, needs := if v < 2 then f.needs else if 0x20 ≤ v then cut else [] }
  let s := s.mapFrame f.id (fun _ => f)
  let s := s.raiseIf (badVerdict v) (macOff p + 2) 1
  let s := s.raiseIf (v == 0x14 || v == 0x24 || (0x15 ≤ v && v ≤ 0x18)) (macOff p + 2) 2
  let s := s.raiseIf (v % 16 == 4 && badVerdict v) 0x40004 0
  let s := if 0x20 ≤ v then (s.raise (0x40020 + 2 * p) (causeBit (v % 16))).swfEvent 1 else s
  let s := s.raiseIf (cause == some 0xA) 0x40004 7
  let s := s.tsMissed f
  let s := match f.dec with
    | some d =>
      let s := if d.consumed then s.pauseFrame f cause.isNone else s
      if cause.isNone then s.learn f d else s
    | none => s
  let s := (finList 4).foldl (fun s n => s.mirrorOne f v n) s
  let s := match f.dec with
    | some d =>
      if v < 2 then (d.egress.filter (fun e => !d.cut.contains e)).foldl (fun (s : State) e => match finOf 11 e with
        | some e => s.mapEgress e (fun x => { x with queues := upd x.queues d.queue (fun q => q ++ [f.id]) })
        | none => s) s
      else s
    | none => s
  s.releaseFrame f.id

/-- The cause that the tail of a frame shows (R140): what the MAC reports first, then the FCS, then the length. -/
def tailCause (f : Frame) (t : TailInfo) : Option Nat :=
  let body := f.bytes.take (f.bytes.length - 4)
  let fcs := f.bytes.drop (f.bytes.length - 4)
  if f.oversize then some 3
  else if t.reassembly then some 0xB
  else if t.code then some 1
  else if t.ecc.isSome then some 0xA
  else if f.bytes.length < 22 then some 2
  else if fcs == stompBytes body then some 9
  else if fcs != fcsBytes body then some 0
  else if f.bytes.length < 64 then some 2
  else none

/-! ## Arrival -/

/-- The frames of a port that have no verdict yet. -/
def State.arriving (s : State) (p : PortId) : List Frame :=
  s.swf.frames.filter (fun f => f.ingress == p && f.verdict.isNone)

/-- The sliver latency of a lane: D word clocks and `ui` unit intervals within the word (R50, R171). -/
def State.laneLatency (s : State) (mode dRx ui : Nat) : Nat :=
  let (num, den, bits) := if mode ≤ 5 then (33, 16, 32) else if mode ≤ 8 then (4, 5, 10) else (2, 1, 10)
  let per := s.time.sdsPer.toNat
  (roundEven (dRx * per * den : Nat) (num * 65536)).toNat + (roundEven (ui * per * den : Nat) (num * bits * 65536)).toNat

/-- D of a mode, receive and transmit (R171). -/
def macD (mode : Nat) (tx : Bool) : Nat :=
  if mode ≤ 5 then (if tx then 29 else 38) else if mode ≤ 8 then (if tx then 18 else 24) else (if tx then 17 else 22)

/-- The stamp of a lane event recognised at sliver `sub` of the present beat, less a latency (R50). -/
def State.laneStamp (s : State) (sub lat : Nat) : BitVec 80 := s.time.stamp sub - BitVec.ofNat 80 lat

/-- Add the bytes of one admitted cell to a frame, MAXLEN bytes at most; RX_SEEN at the header point (R129, R140, R170). -/
def State.addCell (s : State) (f : Frame) (own : Bool) (l : List Byte) : State :=
  let room := s.maxLen f.ingress.val - f.bytes.length
  let bytes := f.bytes ++ l.take room
  let s := s.mapFrame f.id (fun f => { f with
    bytes := bytes, oversize := f.oversize || decide (room < l.length), cellsRes := f.cellsRes + b2n own,
    cellsPool := f.cellsPool + b2n (!own) })
  s.raiseIf (decide (f.bytes.length < 22) && decide (22 ≤ bytes.length)) (macOff f.ingress.val + 2) 0

/-- INGRESS_CELL: the next up to 64 bytes of a frame arrive at a port (R126, R127). -/
def State.ingressCell (s : State) (p : PortId) (first express : Bool) (sub : Fin 8) (ui : Nat) (l : List Byte) : State :=
  if !s.rbit 0x40000 0 || p.val == 10 || !s.mac.ports[p].up || !s.rbit (macOff p.val) 6 then s
  else
    let express := express || !s.preempts p
    let cur := (s.arriving p).find? (fun f => f.express == express)
    match cur, first with
    | none, true =>
      let id := s.swf.nextId
      let mode := s.mac.ports[p].rate.toNat
      let f : Frame :=
        { id := id, ingress := p, express := express, bytes := [], res := (s.reg (swfPort p.val + 0xA)).toNat,
          stamp := s.laneStamp sub.val (s.laneLatency mode (macD mode false) ui), cellsRes := 0, cellsPool := 0,
          dec := none, verdict := none, needs := [], opts := none, oversize := false, asIs := false }
      let s := s.mapSwf (fun x => { x with frames := x.frames ++ [f], nextId := id + 1 })
      match s.admitCell p f.res with
      | some (s, own) => s.addCell f own (l.take 64)
      | none => s.settle f (some 4)
    | some f, false =>
      match s.admitCell p f.res with
      | some (s, own) => s.addCell f own (l.take 64)
      | none => s.settle f (some 4)
    | _, _ => s

/-- FORWARDING_DECISION: the oldest undecided frame of a port whose header point has come (R129, R130). -/
def State.forward (s : State) (p : PortId) : State :=
  match (s.arriving p).find? (fun f => f.dec.isNone && decide (22 ≤ f.bytes.length)) with
  | some f => s.decideFrame f
  | none => s

/-- The frame whose tail comes next: of P10 the oldest, of a lane the one begun last, which an express frame inside a
preempted one is. -/
def State.tailFrame (s : State) (p : PortId) : Option Frame :=
  if p.val = 10 then (s.arriving p).head? else (s.arriving p).getLast?

/-- FRAME_VERDICT: the tail of a frame has been checked (R141). One with a double error ends at that cell (R140). -/
def State.tailVerdict (s : State) (p : PortId) (t : TailInfo) : State :=
  match s.tailFrame p with
  | some f =>
    let s := if f.dec.isNone && decide (22 ≤ f.bytes.length) then s.decideFrame f else s
    match s.frame? f.id with
    | some f =>
      let s := s.settle f (tailCause f t)
      match t.ecc with
      | some k => if tailCause f t = some 0xA then s.mapFrame f.id (fun f => { f with bytes := f.bytes.take (64 * k) }) else s
      | none => s
    | none => s
  | none => s

/-- GIANT_FRAME: the frame that has passed MAXLEN is cut off there (R140). -/
def State.giant (s : State) (p : PortId) : State :=
  match (s.arriving p).find? (fun f => f.oversize) with
  | some f => s.settle f (some 3)
  | none => s

/-! ## Egress (R143 to R148, R170) -/

/-- Whether a port can send: its lane up with TX_EN, or P10. -/
def State.canSend (s : State) (p : PortId) : Bool := p.val == 10 || (s.mac.ports[p].up && s.rbit (macOff p.val) 5)

/-- Begin to transmit a frame: its egress time is taken and, if asked for, stamped (R172). -/
def State.beginFrame (s : State) (p : PortId) (id : Nat) : State :=
  let mode := s.mac.ports[p].rate.toNat
  let t := if p.val = 10 then s.time.stamp 0 else s.laneStamp 0 (s.laneLatency mode (macD mode true) 0)
  let s := s.mapEgress p (fun x => { x with sending := some id, startTod := t, delivered := false })
  match s.frame? id with
  | some f => match f.opts with
    | some o => if o.tsreq && o.tsPort == p.val then s.tsPush o.group { tod := t, desc := o.desc, missed := false } else s
    | none => s
  | none => s

/-- The head of a queue that is eligible (R143, R145); while a frame is preempted only express queues are. -/
def State.eligible (s : State) (p : PortId) (q : Fin 8) : Option Nat :=
  match s.swf.ports[p].queues[q] with
  | id :: _ =>
    let len := match s.frame? id with
      | some f => f.bytes.length
      | none => 0
    if s.gatePasses p q.val len && (s.swf.ports[p].preempted.isNone || s.expressQ p q.val) then some id else none
  | [] => none

/-- Whether a frame stands in an express queue of a port. -/
def State.frameExpress (s : State) (p : PortId) (id : Nat) : Bool :=
  match (s.frame? id).bind (fun f => f.dec) with
  | some d => s.expressQ p d.queue.val
  | none => false

/-- The highest-numbered eligible queue (R143), of a kind. -/
def State.bestOf (s : State) (p : PortId) (ok : Fin 8 → Bool) : Option (Fin 8 × Nat) :=
  (finList 8).reverse.findSome? (fun q => if ok q then (s.eligible p q).map (fun id => (q, id)) else none)

/-- The highest-numbered eligible queue (R143). -/
def State.bestQueue (s : State) (p : PortId) : Option (Fin 8 × Nat) :=
  (finList 8).reverse.findSome? (fun q => (s.eligible p q).map (fun id => (q, id)))

/-- EGRESS_FRAME_START: a frame handed over by cut-through, else the head of the best queue, else the preempted frame
once its gate is open. An express frame preempts a preemptable one in transmission (R143, R146). -/
def State.egressStart (s : State) (p : PortId) : State :=
  let x := s.swf.ports[p]
  if !s.canSend p then s
  else match x.handed, x.sending with
    | id :: r, none => (s.mapEgress p (fun x => { x with handed := r })).beginFrame p id
    | id :: r, some cur =>
      if s.preempts p && s.frameExpress p id && !s.frameExpress p cur then
        (s.mapEgress p (fun x => { x with handed := r, preempted := some cur, sending := none })).beginFrame p id
      else s
    | [], some cur =>
      if s.preempts p && !s.frameExpress p cur && x.preempted.isNone && !s.paused p then
        match s.bestOf p (fun q => s.expressQ p q.val) with
        | some (q, id) =>
          (s.mapEgress p (fun x => { x with
            queues := upd x.queues q (fun l => l.drop 1), preempted := some cur, sending := none })).beginFrame p id
        | none => s
      else s
    | [], none =>
      if s.paused p then s
      else match s.bestQueue p with
        | some (q, id) =>
          (s.mapEgress p (fun x => { x with queues := upd x.queues q (fun l => l.drop 1) })).beginFrame p id
        | none => match x.preempted with
          | some id =>
            let open' := match (s.frame? id).bind (fun f => f.dec) with
              | some d => (s.gatesNow p).getLsbD d.queue.val
              | none => true
            if open' then s.mapEgress p (fun x => { x with sending := some id, preempted := none }) else s
          | none => s

/-- The end of a frame at a lane, its verdict known: it is sent with its own FCS or the stomp code (R139, R170). -/
def State.endAtLane (s : State) (p : PortId) (f : Frame) (v : Nat) : State :=
  let body := s.egressBody f p.val s.swf.ports[p].startTod
  let bad := decide (0x20 ≤ v)
  let s := s.mapEgress p (fun x => { x with
    sending := none, wire := body ++ (if bad then stompBytes body else fcsBytes body) })
  ((s.macStat p.val 3).raiseIf bad (macOff p.val + 2) 6).doneWith f.id p.val

/-- EGRESS_FRAME_END: the frame in transmission ends (R126). On P10 it ends once the DMA has closed it. -/
def State.egressEnd (s : State) (p : PortId) : State :=
  match s.swf.ports[p].sending.bind s.frame? with
  | some f => match f.verdict with
    | some v =>
      if p.val = 10 then
        if s.swf.ports[p].delivered then (s.mapEgress p (fun x => { x with sending := none })).doneWith f.id 10 else s
      else s.endAtLane p f v
    | none => s
  | none => s

/-- TX_UNDERRUN: a cut-through frame from P10 whose next byte is not in the buffer ends with the stomp code (R170). -/
def State.underrun (s : State) (p : PortId) : State :=
  match s.swf.ports[p].sending.bind s.frame? with
  | some f =>
    if p.val ≠ 10 ∧ f.ingress.val = 10 ∧ f.verdict = none then
      let body := s.egressBody f p.val s.swf.ports[p].startTod
      let s := s.mapEgress p (fun x => { x with sending := none, wire := body ++ stompBytes body })
      ((s.macStat p.val 4).macStat p.val 6).doneWith f.id p.val
    else s
  | none => s

/-- A frame in transmission on a preemptable queue whose gate has closed is preempted (R146). -/
def State.holdPreemptable (s : State) (p : PortId) : State :=
  match (s.swf.ports[p].sending.bind s.frame?).bind (fun f => f.dec) with
  | some d =>
    if s.preempts p && !s.expressQ p d.queue.val && !(s.gatesNow p).getLsbD d.queue.val then
      s.mapEgress p (fun x => { x with preempted := x.sending, sending := none })
    else s
  | none => s

/-- GATE_LIST_ENTRY: the list of a port advances, within the tick (R144). -/
def State.gateNext (s : State) (p : PortId) : State :=
  let x := s.swf.ports[p]
  let g := s.gate p.val s.tick.mode.val x.gateIdx
  let due := x.gateFrom + g.dur
  if s.tick.running && p.val != 10 && !g.last && decide (x.gateIdx < 63) && decide (due < s.tick.tBeat + s.tick.pk) then
    ((s.until due).mapEgress p (fun x => { x with gateIdx := x.gateIdx + 1, gateFrom := due })).holdPreemptable p
  else s

/-- The sum of the durations of a gate list up to LAST (R144). -/
def State.gateSum (s : State) (p m i : Nat) : Nat → Nat
  | 0 => 0
  | f + 1 => let g := s.gate p m i; g.dur + (if g.last then 0 else s.gateSum p m (i + 1) f)

/-- The gate lists at T+0 of a tick: a list of the tick before that was longer than it sets GCL_OVER, and every list
restarts in the mode in force (R144). `oldMode` and `oldPk` are those of the tick before. -/
def State.gateRestart (s : State) (oldMode oldPk : Nat) (ran : Bool) : State :=
  (finList 11).foldl (fun s p =>
    if p.val = 10 then s
    else
      let s := s.raiseIf (ran && decide (oldPk < s.gateSum p.val oldMode 0 64)) 0x40004 8
      (s.mapEgress p (fun x => { x with gateIdx := 0, gateFrom := s.time.beat })).holdPreemptable p) s

/-- PAUSE_EXPIRY (R148). -/
def State.pauseEnds (s : State) (p : PortId) : State :=
  match s.swf.ports[p].pauseEnd with
  | some e => (s.until e).mapEgress p (fun x => { x with pauseEnd := none })
  | none => s

/-- The kerfs of an entered mode at a switch: a valid shadow becomes the kerf, and its valid bit clears (R84, R147). -/
def State.swfShadow (s : State) (m : Nat) : State :=
  let o := 0x40300 + 4 * m
  let sh := s.reg (o + 2)
  (if bit sh 15 then s.setReg o (sh &&& 0x7FFF) else s).setReg (o + 2) (sh &&& 0x7FFF)

/-! ## Ageing and tables (R133, R156) -/

/-- What a sweep leaves of an entry. -/
def sweepEntry (w : List Word) : List Word :=
  if mtType w = 1 then (if bit (nthD w 3 0) 14 then w.set 3 (nthD w 3 0 &&& 0xBFFF) else List.replicate 5 0) else w

/-- The entries of the MAC table that hold anything. -/
def State.mtUsed (s : State) : List Nat :=
  (s.swf.mt.filter (fun e => e.1 % 5 == 3)).map (fun e => e.1 / 5)

/-- AGEING_SWEEP, at the second of time of day at which the period since the last sweep ends (R133). -/
def State.ageSweep (s : State) : State :=
  let n := (s.reg 0x4000C).toNat
  if n = 0 then s
  else
    let due := (s.swf.lastSweep + n) * 2 ^ 77
    let s := s.elapse (if due < s.time.todx then 0 else s.time.beatsTo due)
    let s := s.mtUsed.foldl (fun s e => s.storeMt e (sweepEntry (s.mtEntry e))) s
    s.mapSwf (fun x => { x with lastSweep := (s.time.todx + s.time.rate) / 2 ^ 77 })

/-- Stage a table write, unless one is pending (R156). -/
def State.stageSwf (s : State) (ok : Bool) (x : Stage) : State :=
  if s.swf.staged.isSome then s.swfEvent 4
  else if ok then s.mapSwf (fun w => { w with staged := some x })
  else s.swfEvent 5

/-- A staging command that changes no table; refused while a write is pending (R156). -/
def State.readSwf (s : State) (act : State → State) : State := if s.swf.staged.isSome then s.swfEvent 4 else act s

/-- SWF_STAGE_COMMIT: the pending write takes effect, whole (R156). -/
def State.stageCommit (s : State) : State :=
  let t := s
  let s := s.mapSwf (fun x => { x with staged := none })
  match t.swf.staged with
  | none => s
  | some (.mt e w) => (s.storeMt e w).mapSwf (fun x => { x with committed := some (s.time.beat, e) })
  | some (.vl v w) => s.storeVl v w
  | some (.rl r w) => s.storeRl r w
  | some (.gcl k g) => s.mapSwf (fun x => { x with gcl := Sparse.set Gate.reset x.gcl k g })

/-- The staging words of a table. -/
def State.swfStage (s : State) (off n : Nat) : List Word := (List.range n).map (fun k => s.reg (off + 2 * k))

/-- One bit only (R156). -/
def onePort (w : Word) : Bool := (portsOf (fld w 0 11)).length == 1

/-- The checks on a MAC table entry (R156): dynamic and static unicast entries name one port. -/
def mtOk (w : List Word) : Bool := (mtType w != 1 && mtType w != 2) || onePort (nthD w 4 0)

/-- The address and VID of the MAC staging words. -/
def State.mtKey (s : State) : Nat × Nat := (s.rfld 0x40216 0 12, ofWords (s.swfStage 0x40210 3))

/-- The five MAC staging words as an entry: HIT is bit 14, bit 15 is no part of it. -/
def State.mtStage (s : State) : List Word := (s.swfStage 0x40210 5).set 3 (s.reg 0x40216 &&& 0x7FFF)

def State.mtRead (s : State) : State :=
  s.readSwf (fun s => s.setRegs 0x40210 (s.mtEntry (s.rfld 0x40200 0 14)))
def State.mtWrite (s : State) : State := s.stageSwf (mtOk s.mtStage) (.mt (s.rfld 0x40200 0 14) s.mtStage)
def State.mtInsert (s : State) : State :=
  match s.mtEmpty s.mtKey.1 s.mtKey.2 with
  | some e =>
    let t := s.stageSwf (mtOk s.mtStage) (.mt e s.mtStage)
    if s.swf.staged.isNone && mtOk s.mtStage then t.setReg 0x40200 (BitVec.ofNat 16 e) else t
  | none => s.stageSwf false (.mt 0 [])
def State.mtDelete (s : State) : State :=
  match s.mtFind s.mtKey.1 s.mtKey.2 with
  | some e => s.stageSwf true (.mt e (List.replicate 5 0))
  | none => s.readSwf id
def State.mtSearch (s : State) : State :=
  s.readSwf (fun s => match s.mtFind s.mtKey.1 s.mtKey.2 with
    | some e => s.setReg 0x40200 (BitVec.ofNat 16 e)
    | none => s.setReg 0x40216 (s.reg 0x40216 ||| 0x8000))
def State.vlRead (s : State) : State := s.readSwf (fun s => s.setRegs 0x40224 (s.vlEntry (s.rfld 0x40220 0 12)))
def State.vlWrite (s : State) : State :=
  s.stageSwf true (.vl (s.rfld 0x40220 0 12) [s.reg 0x40224 &&& 0x1FFF, s.reg 0x40226 &&& 0x07FF])
def State.rlRead (s : State) : State := s.readSwf (fun s => s.setRegs 0x40260 (s.rlEntry (s.rfld 0x40240 0 8)))
def State.rlWrite (s : State) : State := s.stageSwf true (.rl (s.rfld 0x40240 0 8) (s.swfStage 0x40260 16))

/-- The port, mode and entry that SWF_GCL_SEL names; none for a port or entry that does not exist. -/
def State.gclSel (s : State) : Option (Nat × Nat × Nat) :=
  let p := s.rfld 0x40280 0 4
  let i := s.rfld 0x40280 7 6
  if p < 10 then some (p, s.rfld 0x40280 4 3, i) else none
def State.gclRead (s : State) : State :=
  s.readSwf (fun s => match s.gclSel with
    | some (p, m, i) =>
      let g := s.gate p m i
      s.setRegs 0x40284 [BitVec.ofNat 16 (g.gates.toNat + 256 * b2n g.last), wordOf g.dur 0, wordOf g.dur 1]
    | none => s.setRegs 0x40284 [0, 0, 0])
def State.gclWrite (s : State) : State :=
  match s.gclSel with
  | some (p, m, i) =>
    s.modeTable m (fun s => s.stageSwf true (.gcl ((p * 8 + m) * 64 + i)
      { gates := BitVec.ofNat 8 (s.rfld 0x40284 0 8), last := s.rbit 0x40284 8, dur := s.pair 0x40286 }))
  | none => s.stageSwf false (.gcl 0 Gate.reset)

/-! ## Mirror rings (R152) -/

/-- CAPTURE_RECORD: the writer writes the oldest record of a session, or loses it where the ring is full (R152). -/
def State.captureWrite (s : State) (n : Fin 4) : State :=
  match s.swf.mirrors[n].queue with
  | [] => s
  | r :: q =>
    let c := mirOff n.val
    let x := s.swf.mirrors[n]
    let size := 2 ^ s.rfld (c + 8) 0 4
    let s := s.mapMirror n (fun m => { m with queue := q })
    if (x.wr - x.rd).toNat = size % 65536 then s.captureLost n
    else match s.engineStore 14 (s.pair (c + 4) % 2 ^ 26 + 128 * (x.wr.toNat % size)) r.bytes with
      | (s, true) => s.mapMirror n (fun m => { m with wr := m.wr + 1 })
      | (s, false) => s

/-- A write of SWF_MIRs_SIZE: 4 to 11; it clears WR and RD. -/
def State.mirSize (s : State) (n : Fin 4) (v : Word) : State :=
  if 4 ≤ fld v 0 4 ∧ fld v 0 4 ≤ 11 then
    (s.setReg (mirOff n.val + 8) (v &&& 0xF)).mapMirror n (fun m => { m with wr := 0, rd := 0 })
  else s

/-- A write of SWF_MIRs_RD: ignored if WR − RD would exceed 2^SIZE. -/
def State.mirRd (s : State) (n : Fin 4) (v : Word) : State :=
  if (s.swf.mirrors[n].wr - v).toNat ≤ 2 ^ s.rfld (mirOff n.val + 8) 0 4 then
    s.mapMirror n (fun m => { m with rd := v })
  else s

/-- A write of SWF_Pp_RES: refused where the sum would pass 16,384 (R127). -/
def State.swfRes (s : State) (p : PortId) (v : Word) : State :=
  let o := swfPort p.val + 0xA
  if s.resSum - (s.reg o).toNat + v.toNat ≤ 16384 then s.setReg o v else s.swfEvent 5

/-! ## Registers (R156) -/

def swfSpecs : List RegSpec :=
  [{ base := 0x40000, rw := 3 }, { base := 0x40004, rw := 0, w1c := 0x1FF }, { base := 0x40006, rw := 0x1FF },
   { base := 0x4000C }, { base := 0x40020, rw := 0, w1c := 0xFF, n := 11 },
   { base := 0x40600, rw := 0xFF, m := 11, outer := 32 },
   { base := 0x40604, rw := 0x0FFF, rwHi := 0x0FFF, pair := true, m := 11, outer := 32 },
   { base := 0x4060C, m := 11, outer := 32 }, { base := 0x4060E, rw := 0x3FF, m := 11, outer := 32 },
   { base := 0x40610, rw := 0, pair := true, m := 11, outer := 32 },
   { base := 0x40200, rw := 0x3FFF }, { base := 0x40210, n := 4 }, { base := 0x40218, rw := 0x7FF },
   { base := 0x40220, rw := 0xFFF }, { base := 0x40224, rw := 0x1FFF }, { base := 0x40226, rw := 0x7FF },
   { base := 0x40240, rw := 0xFF }, { base := 0x40260, n := 16 }, { base := 0x40280, rw := 0x1FFF },
   { base := 0x40284, rw := 0x1FF }, { base := 0x40286, n := 2 }, { base := 0x40302, m := 8, outer := 4 },
   { base := 0x40400, rw := 0xFFF, m := 4, outer := 32 }, { base := 0x40402, rw := 0x7FF, m := 4, outer := 32 },
   { base := 0x40404, pair := true, rwHi := 0x3FF, m := 4, outer := 32 },
   { base := 0x40410, rw := 0, pair := true, m := 4, outer := 32 }]

/-- The bits of a command register, each with its action, lowest first. -/
def State.commands (s : State) (v : Word) (l : List (Nat × (State → State))) : State :=
  l.foldl (fun s c => if bit v c.1 then c.2 s else s) s

/-- A write to a port register of the fabric. -/
def State.swfPortWrite (s : State) (m : Master) (p : PortId) (off : Nat) (v : Word) : State :=
  match (off - 0x40600) % 32 with
  | 2 => if fld v 0 12 = 0 ∨ fld v 0 12 = 4095 then s else s.setReg off (v &&& 0xFFF)
  | 8 => s.setReg off (BitVec.ofNat 16 (max 64 (min 9216 v.toNat)))
  | 0xA => s.swfRes p v
  | _ => s.tableWrite swfSpecs m off v

/-- A write to a mirror session's register. -/
def State.swfMirWrite (s : State) (m : Master) (n : Fin 4) (off : Nat) (v : Word) : State :=
  match (off - 0x40400) % 32 with
  | 6 =>
    if (s.loFor m (off - 2) (s.reg (off - 2))).toNat % 128 = 0 then s.tableWrite swfSpecs m off v
    else (s.dropHold m).swfEvent 5
  | 8 => s.mirSize n v
  | 0xC => s.mirRd n v
  | _ => s.tableWrite swfSpecs m off v

/-- A write to a register of the fabric. -/
def State.swfWrite (s : State) (m : Master) (off : Nat) (v : Word) : State :=
  if off = 0x40202 then
    s.commands v [(0, State.mtRead), (1, State.mtWrite), (2, State.mtInsert), (3, State.mtDelete), (4, State.mtSearch)]
  else if off = 0x40222 then s.commands v [(0, State.vlRead), (1, State.vlWrite)]
  else if off = 0x40242 then s.commands v [(0, State.rlRead), (1, State.rlWrite)]
  else if off = 0x40282 then s.commands v [(0, State.gclRead), (1, State.gclWrite)]
  else if 0x40300 ≤ off ∧ off < 0x40320 ∧ off % 4 = 0 then
    s.modeTable ((off - 0x40300) / 4) (fun s => s.setReg off (v &&& 0x7FFF))
  else if 0x40600 ≤ off ∧ off < 0x40760 then
    match finOf 11 ((off - 0x40600) / 32) with
    | some p => s.swfPortWrite m p off v
    | none => s
  else if 0x40400 ≤ off ∧ off < 0x40480 then
    match finOf 4 ((off - 0x40400) / 32) with
    | some n => s.swfMirWrite m n off v
    | none => s
  else s.tableWrite swfSpecs m off v

/-- Beats of a pause that remain (R156). -/
def State.pauseLeft (s : State) (p : PortId) : Nat := (s.swf.ports[p].pauseEnd.getD 0) - s.time.beat

/-- The registers of the fabric as they read at present. -/
def State.swfLive (s : State) (off : Nat) : Word :=
  if off = 0x40008 then BitVec.ofNat 16 s.swf.free
  else if 0x40400 ≤ off ∧ off < 0x40480 then
    match finOf 4 ((off - 0x40400) / 32), off % 32 with
    | some n, 0xA => s.swf.mirrors[n].wr
    | some n, 0xC => s.swf.mirrors[n].rd
    | some n, 0xE => s.swf.mirrors[n].lost
    | some n, 0x10 => wordOf s.swf.mirrors[n].matched.toNat 0
    | some n, 0x12 => wordOf s.swf.mirrors[n].matched.toNat 1
    | _, _ => s.reg off
  else if 0x40600 ≤ off ∧ off < 0x40760 then
    match finOf 11 ((off - 0x40600) / 32), off % 32 with
    | some p, 0x10 => wordOf (s.pauseLeft p) 0
    | some p, 0x12 => wordOf (s.pauseLeft p) 1
    | some p, 0x14 =>
      flag (s.portUp p) 0 ||| flag (s.paused p) 1 ||| flag s.swf.ports[p].preempted.isSome 2 |||
        BitVec.ofNat 16 ((s.gatesNow p).toNat * 8) ||| flag (s.preempts p) 11
    | _, _ => s.reg off
  else if off = 0x40202 ∨ off = 0x40222 ∨ off = 0x40242 ∨ off = 0x40282 then 0
  else s.reg off

/-- A read of a register of the fabric; LOST is cleared by it (R156). -/
def State.swfRead (s : State) (m : Master) (off : Nat) : State × Word :=
  if 0x40400 ≤ off ∧ off < 0x40480 ∧ off % 32 = 0xE then
    match finOf 4 ((off - 0x40400) / 32) with
    | some n => (s.mapMirror n (fun x => { x with lost := s.freshAt off }), s.swfLive off)
    | none => (s, 0)
  else s.tableRead swfSpecs State.swfLive m off

/-- A read of the buffer window: which cell a frame takes is not laid down, so its word is a free value (R155). -/
def State.windowRead (s : State) : State × Word := (s.takeFree.1, Config.cellWord s.takeFree.2)

/-! ## Commands -/

def execForwardingDecision (p : PortId) (s : State) : Host.Outcome State Fault Refusal :=
  .next (s.alive fun s => s.forward p)

def execFrameVerdict (p : PortId) (tail : TailInfo) (s : State) : Host.Outcome State Fault Refusal :=
  .next (s.alive fun s => s.tailVerdict p tail)

def execCaptureRecord (n : Fin 4) (s : State) : Host.Outcome State Fault Refusal :=
  .next (s.alive fun s => s.captureWrite n)

def execEgressFrameStart (p : PortId) (s : State) : Host.Outcome State Fault Refusal :=
  .next (s.alive fun s => s.egressStart p)

def execEgressFrameEnd (p : PortId) (s : State) : Host.Outcome State Fault Refusal :=
  .next (s.alive fun s => s.egressEnd p)

def execTxUnderrun (p : PortId) (s : State) : Host.Outcome State Fault Refusal := .next (s.alive fun s => s.underrun p)

def execGateListEntry (p : PortId) (s : State) : Host.Outcome State Fault Refusal :=
  .next (s.alive fun s => s.gateNext p)

def execPauseExpiry (p : PortId) (s : State) : Host.Outcome State Fault Refusal :=
  .next (s.alive fun s => s.pauseEnds p)

def execAgeingSweep (s : State) : Host.Outcome State Fault Refusal := .next (s.alive fun s => s.ageSweep)

def execSwfMtRead (m : Master) (s : State) : Host.Outcome State Fault Refusal :=
  .next (s.alive fun s => s.writeCmd m 0x40202 State.mtRead)

def execSwfMtWrite (m : Master) (s : State) : Host.Outcome State Fault Refusal :=
  .next (s.alive fun s => s.writeCmd m 0x40202 State.mtWrite)

def execSwfMtInsert (m : Master) (s : State) : Host.Outcome State Fault Refusal :=
  .next (s.alive fun s => s.writeCmd m 0x40202 State.mtInsert)

def execSwfMtDelete (m : Master) (s : State) : Host.Outcome State Fault Refusal :=
  .next (s.alive fun s => s.writeCmd m 0x40202 State.mtDelete)

def execSwfMtSearch (m : Master) (s : State) : Host.Outcome State Fault Refusal :=
  .next (s.alive fun s => s.writeCmd m 0x40202 State.mtSearch)

def execSwfVlRead (m : Master) (s : State) : Host.Outcome State Fault Refusal :=
  .next (s.alive fun s => s.writeCmd m 0x40222 State.vlRead)

def execSwfVlWrite (m : Master) (s : State) : Host.Outcome State Fault Refusal :=
  .next (s.alive fun s => s.writeCmd m 0x40222 State.vlWrite)

def execSwfRlRead (m : Master) (s : State) : Host.Outcome State Fault Refusal :=
  .next (s.alive fun s => s.writeCmd m 0x40242 State.rlRead)

def execSwfRlWrite (m : Master) (s : State) : Host.Outcome State Fault Refusal :=
  .next (s.alive fun s => s.writeCmd m 0x40242 State.rlWrite)

def execSwfGclRead (m : Master) (s : State) : Host.Outcome State Fault Refusal :=
  .next (s.alive fun s => s.writeCmd m 0x40282 State.gclRead)

def execSwfGclWrite (m : Master) (s : State) : Host.Outcome State Fault Refusal :=
  .next (s.alive fun s => s.writeCmd m 0x40282 State.gclWrite)

def execSwfStageCommit (s : State) : Host.Outcome State Fault Refusal := .next (s.alive fun s => s.stageCommit)

def execSwfResWrite (m : Master) (p : PortId) (v : Word) (s : State) : Host.Outcome State Fault Refusal :=
  .next (s.alive fun s => s.writeCmd m (swfPort p.val + 0xA) (fun s => s.swfRes p v))

def execSwfMirSizeWrite (m : Master) (n : Fin 4) (v : Word) (s : State) : Host.Outcome State Fault Refusal :=
  .next (s.alive fun s => s.writeCmd m (mirOff n.val + 8) (fun s => s.mirSize n v))

def execSwfMirRdWrite (m : Master) (n : Fin 4) (v : Word) (s : State) : Host.Outcome State Fault Refusal :=
  .next (s.alive fun s => s.writeCmd m (mirOff n.val + 0xC) (fun s => s.mirRd n v))

def execIngressCell (p : PortId) (first express : Bool) (sub : Fin 8) (ui : Nat) (bytes : List Byte) (s : State) :
    Host.Outcome State Fault Refusal :=
  .next (s.alive fun s => s.ingressCell p first express sub ui bytes)

def execGiantFrame (p : PortId) (s : State) : Host.Outcome State Fault Refusal := .next (s.alive fun s => s.giant p)

end Sys2Proof.Machine
end

