-- ==== Sys2Proof/Machine/Mac.lean ====
section
/-! DEFINITION. The Ethernet MACs and the endpoint groups of P10 (06_ethernet_macs.md). -/

namespace Sys2Proof.Machine

open Sys2Proof

def State.mapMacPort (s : State) (p : PortId) (f : MacPort → MacPort) : State :=
  { s with mac := { s.mac with ports := upd s.mac.ports p f } }
def State.mapGroup (s : State) (g : Fin 16) (f : Group → Group) : State :=
  { s with mac := { s.mac with groups := upd s.mac.groups g f } }

/-- Offset of a group's registers (R174), and its events. -/
def grpOff (g : Nat) : Nat := 0x53000 + 0x80 * g
def State.grpEvent (s : State) (g i : Nat) : State := s.raise (grpOff g + 0x14) i

/-! ## Links (R157 to R160) -/

/-- The rates that a partner's link word can select in the family of a MODE (R157). -/
def linkRate (mode rate : Nat) : Bool :=
  if mode ≤ 5 then decide (2 ≤ rate ∧ rate ≤ 5) else decide (6 ≤ rate ∧ rate ≤ 8)

/-- LINK_UP: the PCS has synchronised and any autonegotiation has completed. A half-duplex word holds the link down
(R158). With AN_EN in a USXGMII or SGMII mode the link word gives the rate, else MODE does (R157). -/
def State.linkUp (s : State) (p : PortId) (half : Bool) (rate : BitVec 4) : State :=
  let mode := s.macMode p.val
  if mode = 0 then s
  else
    let an := s.rbit (macOff p.val) 4 && mode != 1 && mode != 9
    if an && !linkRate mode rate.toNat then s
    else s.mapMacPort p (fun x => { x with
      pcsSync := true, anDone := an, half := an && half, up := !(an && half),
      rate := if an then rate else BitVec.ofNat 4 mode })

/-- A frame in transmission or held by preemption is lost with the link; its cells return as if it had been sent (R159).
One handed over that had not begun to leave misses its stamp (R172). -/
def State.loseSending (s : State) (p : PortId) : State :=
  let x := s.swf.ports[p]
  let s := s.mapEgress p (fun x => { x with sending := none, preempted := none, handed := [] })
  let s := x.handed.foldl (fun s id => match (s.frame? id).bind (fun f => f.opts) with
    | some o => if o.tsreq && o.tsPort == p.val then s.tsPush o.group { tod := 0, desc := o.desc, missed := true } else s
    | none => s) s
  (x.handed ++ x.sending.toList ++ x.preempted.toList).foldl (fun s id => s.doneWith id p.val) s

/-- LINK_DOWN: the link is lost; frames arriving end with a code error (R158, R159). -/
def State.linkDown (s : State) (p : PortId) : State :=
  if p.val = 10 then s
  else
    let s := (s.arriving p).foldl (fun s f => s.settle f (some 1)) s
    (s.mapMacPort p (fun x => { x with up := false, pcsSync := false, anDone := false })).loseSending p

/-- A write of MAC_Pp_CFG: a change of MODE, or MODE off, takes the link down until the lane synchronises again (R157). -/
def State.macCfg (s : State) (p : PortId) (v : Word) : State :=
  let old := s.macMode p.val
  let s := s.setReg (macOff p.val) (v &&& 0xFF)
  let s := if p.val ≠ 10 ∧ s.macMode p.val = 0 then s.setReg (macOff p.val) (v &&& 0xF0) else s
  if s.macMode p.val = old then s else s.linkDown p

/-- A write of MAC_Pp_SDS0: RX_CTLE becomes the target of the equaliser (R160). -/
def State.macSds (s : State) (p : PortId) (v : Word) : State :=
  (s.setReg (macOff p.val + 6) (v &&& 0x7FFF)).mapMacPort p (fun x => { x with
    ctleTarget := fld v 11 4, ctleBeat := s.time.beat })

/-- CTLE_STEP: the equaliser moves one code toward its target, 1,024 beats after the last move (R160). -/
def State.ctleStep (s : State) (p : PortId) : State :=
  let x := s.mac.ports[p]
  if x.ctle = x.ctleTarget then s
  else
    let s := s.until (x.ctleBeat + 1024)
    s.mapMacPort p (fun x => { x with
      ctle := if x.ctle < x.ctleTarget then x.ctle + 1 else x.ctle - 1, ctleBeat := s.time.beat })

/-! ## Receiving into groups (R161 to R164) -/

/-- EN, sizes and bases of a group. -/
def State.grpEn (s : State) (g : Nat) : Bool := s.rbit (grpOff g) 0
def State.grpSlot (s : State) (g : Nat) : Nat := 2 ^ s.rfld (grpOff g) 8 4
def State.grpRxSize (s : State) (g : Nat) : Nat := 2 ^ s.rfld (grpOff g) 12 4
def State.grpTxSize (s : State) (g : Nat) : Nat := 2 ^ s.rfld (grpOff g + 0xE) 0 4

/-- The filter of a group that matches, the lowest first (R162). -/
def State.grpFilter (s : State) (g da vid : Nat) : Option Nat :=
  (List.range 8).find? (fun k =>
    let o := grpOff g + 0x40 + 8 * k
    s.rbit (o + 6) 13 && ofWords [s.reg o, s.reg (o + 2), s.reg (o + 4)] == da &&
      (!s.rbit (o + 6) 12 || s.rfld (o + 6) 0 12 == vid))

/-- Whether a group accepts a frame (R162). -/
def State.grpAccepts (s : State) (g da vid : Nat) (trapped : Bool) : Bool :=
  s.grpEn g && ((s.grpFilter g da vid).isSome || (da == 0xFFFFFFFFFFFF && s.rbit (grpOff g) 6) || s.rbit (grpOff g) 7 ||
    (trapped && s.rbit 0x52810 g))

/-- The header of a receive record from byte 2 on (R163). -/
def State.rxHeader (s : State) (f : Frame) (d : Decision) (n : Nat) (k : Option Nat) : List Byte :=
  toBytes n 2 ++ toBytes f.stamp.toNat 10 ++ toBytes (d.vid.toNat + 4096 * d.pri.val + 32768 * b2n d.tagged) 2 ++
    toBytes (k.getD 0 + 8 * b2n k.isSome) 1 ++ toBytes (128 * b2n (!s.time.sdsOk)) 1 ++ List.replicate 14 0

/-- Deliver a frame to one group: the frame bytes, header bytes 2 to 31, bytes 0 and 1 with DONE, then RXWR (R164). The
flag tells that it was delivered. -/
def State.deliver (s : State) (f : Frame) (d : Decision) (v : Nat) (body : List Byte) (g : Fin 16) : State × Bool :=
  let x := s.mac.groups[g]
  let size := s.grpRxSize g.val
  let slot := s.grpSlot g.val
  if (x.rxwr - x.rxrd).toNat = size % 65536 ∨ slot < body.length + 32 then
    ((s.grpEvent g.val 3).macStat 10 2, false)
  else
    let a := s.pair (grpOff g.val + 2) % 2 ^ 26 + slot * (x.rxwr.toNat % size)
    let k := s.grpFilter g.val (hdrOf body).da d.vid.toNat
    let (s, ok1) := s.engineStore 13 (a + 32) body
    let (s, ok2) := s.engineStore 13 (a + 2) (s.rxHeader f d body.length k)
    let (s, ok3) := s.engineStore 13 a
      (toBytes (1 + 2 * b2n (decide (v < 2)) + 4 * b2n d.trapped + 8 * f.ingress.val + 256 * v) 2)
    if ok1 && ok2 && ok3 then
      ((s.mapGroup g (fun x => { x with rxwr := x.rxwr + 1 })).grpEvent g.val 0, true)
    else (s, false)

/-- P10_RX_RECORD: the frame that P10 sends is delivered to every group that accepts it, once its verdict is known
(R139, R162, R164). -/
def State.rxRecord (s : State) : State :=
  let s := if s.swf.ports[(10 : PortId)].sending.isNone then s.egressStart 10 else s
  match s.swf.ports[(10 : PortId)].sending.bind s.frame? with
  | some f => match f.verdict, f.dec, s.swf.ports[(10 : PortId)].delivered with
    | some v, some d, false =>
      let body := s.egressBody f 10 0
      let gs := (finList 16).filter (fun g => s.grpAccepts g.val (hdrOf body).da d.vid.toNat d.trapped)
      let s := if gs.isEmpty then s.macStat 10 2 else s
      let r := gs.foldl (fun (r : State × Bool) g =>
        let t := r.1.deliver f d v body g
        (t.1, r.2 || t.2)) (s, false)
      (r.1.raiseIf r.2 (macOff 10 + 2) 3).mapEgress 10 (fun x => { x with delivered := true })
    | _, _, _ => s
  | none => s

/-! ## Transmitting from groups (R165 to R169) -/

/-- A transmit descriptor (R165). -/
structure TxDesc where
  addr : Nat
  len : Nat
  seg : Bool
  csum : Bool
  tsreq : Bool
  onestep : Bool
  qset : Option (Fin 8)
  tsPort : Nat
  mss : Nat
  ptpOfs : Nat
  deriving DecidableEq, Repr

def txDescOf (l : List Byte) : TxDesc :=
  let w := fun k => (BitVec.ofNat 16 (ofBytes ((l.drop (2 * k)).take 2)) : Word)
  { addr := ofWords [w 0, w 1] % 2 ^ 26, len := (w 2).toNat + 65536 * fld (w 3) 0 1, seg := bit (w 3) 1,
    csum := bit (w 3) 2, tsreq := bit (w 3) 3, onestep := bit (w 3) 4,
    qset := if bit (w 3) 5 then some (Fin.ofNat 8 (fld (w 3) 6 3)) else none, tsPort := fld (w 3) 9 4,
    mss := fld (w 4) 0 14, ptpOfs := (w 5).toNat }

/-- Where the headers of an IPv4 packet that carries TCP or UDP lie: the IPv4 header, the L4 header, the payload, and
whether it is UDP (R168); none if it is no such packet, or a fragment (R169). -/
structure L4 where
  ip : Nat
  l4 : Nat
  h : Nat
  udp : Bool
  deriving DecidableEq, Repr

def l4Of (l : List Byte) : Option L4 :=
  let h := hdrOf l
  let b0 := (nthD l h.l3 0).toNat
  let ihl := b0 % 16
  let proto := (nthD l (h.l3 + 9) 0).toNat
  let frag := beAt l (h.l3 + 6) 2
  let t := h.l3 + 4 * ihl
  let off := (nthD l (t + 12) 0).toNat / 16
  if h.etype = 0x0800 ∧ b0 / 16 = 4 ∧ 5 ≤ ihl ∧ frag % 16384 = 0 then
    if proto = 17 then some { ip := h.l3, l4 := t, h := t + 8, udp := true }
    else if proto = 6 ∧ 5 ≤ off then some { ip := h.l3, l4 := t, h := t + 4 * off, udp := false }
    else none
  else none

/-- The IPv4 header checksum of a frame, computed. -/
def fillIp (l : List Byte) (x : L4) : List Byte :=
  let l := setBeAt l (x.ip + 10) 2 0
  setBeAt l (x.ip + 10) 2 (inetSum (beSum ((l.drop x.ip).take (x.l4 - x.ip))))

/-- The TCP or UDP checksum over the pseudo-header and the segment; a UDP result of 0 is sent as 0xFFFF (R168). -/
def fillL4 (l : List Byte) (x : L4) : List Byte :=
  let at' := x.l4 + (if x.udp then 6 else 16)
  let l := setBeAt l at' 2 0
  let n := l.length - x.l4
  let sum := inetSum (beSum ((l.drop (x.ip + 12)).take 8) + (if x.udp then 17 else 6) + n + beSum (l.drop x.l4))
  setBeAt l at' 2 (if x.udp ∧ sum = 0 then 0xFFFF else sum)

/-- Frame i of a train of n (R168): header bytes with their fields rewritten, then its payload. -/
def segFrame (l : List Byte) (x : L4) (mss n i : Nat) : List Byte :=
  let pay := ((l.drop x.h).drop (i * mss)).take mss
  let f := l.take x.h ++ pay
  let f := setBeAt f (x.ip + 2) 2 (f.length - x.ip)
  let f := setBeAt f (x.ip + 4) 2 ((beAt l (x.ip + 4) 2 + i) % 65536)
  let f := fillIp f x
  let f :=
    if x.udp then setBeAt f (x.l4 + 4) 2 (8 + pay.length)
    else
      let f := setBeAt f (x.l4 + 4) 4 ((beAt l (x.l4 + 4) 4 + i * mss) % 2 ^ 32)
      let fl := (nthD l (x.l4 + 13) 0)
      let fl := if i + 1 = n then fl else fl &&& 0xF6
      f.set (x.l4 + 13) (if i = 0 then fl else fl &&& 0x7F)
  fillL4 f x

/-- A single frame with CSUM: checksums and the UDP length are filled (R165, R168). -/
def csumFrame (l : List Byte) (x : L4) : List Byte :=
  let l := if x.udp then setBeAt l (x.l4 + 4) 2 (l.length - x.l4) else l
  fillL4 (fillIp l x) x

/-- The frames of a descriptor from its data, or none where R169 refuses it. -/
def State.txFrames (s : State) (d : TxDesc) (l : List Byte) : Option (List (List Byte)) :=
  let limit := s.maxLen 10
  if d.onestep ∧ d.len < d.ptpOfs + 44 then none
  else if d.seg then
    match l4Of l with
    | some x =>
      if d.csum ∨ d.mss < 64 ∨ 9000 < d.mss ∨ limit < x.h + d.mss + 4 ∨ d.len ≤ x.h then none
      else
        let n := ceilDiv (d.len - x.h) d.mss
        some ((List.range n).map (segFrame l x d.mss n))
    | none => none
  else if d.csum then
    match l4Of l with
    | some x => if d.len ≤ x.h then none else some [csumFrame l x]
    | none => none
  else some [l]

/-- A frame of a group enters the fabric at P10: padded to 60 bytes, with its FCS, into cells (R127, R166, R167). -/
def State.injectFrame (s : State) (g : Fin 16) (desc : Nat) (d : TxDesc) (first : Bool) (body : List Byte) : State :=
  if !s.rbit 0x40000 0 then
    if d.tsreq && first then s.tsPush g { tod := 0, desc := desc, missed := true } else s
  else
    let body := body ++ List.replicate (60 - body.length) 0
    let l := body ++ fcsBytes body
    let max := s.maxLen 10
    let o : TxOpts :=
      { group := g, desc := desc, tsreq := d.tsreq && first, onestep := d.onestep, qset := d.qset, tsPort := d.tsPort,
        ptpOfs := d.ptpOfs }
    let id := s.swf.nextId
    let res := (s.reg (swfPort 10 + 0xA)).toNat
    let f : Frame :=
      { id := id, ingress := 10, express := true, bytes := l.take max, stamp := s.time.stamp 0, res := res, cellsRes := 0,
        cellsPool := 0, dec := none, verdict := none, needs := [], opts := some o, oversize := decide (max < l.length),
        asIs := false }
    let s := s.macStat 10 0
    match s.admitCells 10 res (ceilDiv f.bytes.length 64) with
    | some (s, own, pool) =>
      s.mapSwf (fun x => { x with frames := x.frames ++ [{ f with cellsRes := own, cellsPool := pool }], nextId := id + 1 })
    | none =>
      let s := s.mapSwf (fun x => { x with frames := x.frames ++ [f], nextId := id + 1 })
      s.settle f (some 4)

/-- The end of a descriptor: TXRD passes it (R166). -/
def State.txDone (s : State) (g : Fin 16) : State := s.mapGroup g (fun x => { x with txrd := x.txrd + 1 })

/-- A refused descriptor (R169). -/
def State.txRefuse (s : State) (g : Fin 16) : State := (s.grpEvent g.val 2).txDone g

/-- TX_DESCRIPTOR: the DMA takes the next descriptor of a group (R166). -/
def State.txDescriptor (s : State) (g : Fin 16) : State :=
  let x := s.mac.groups[g]
  if !s.grpEn g.val || x.txwr == x.txrd then s
  else
    let i := x.txrd.toNat % s.grpTxSize g.val
    match s.engineBytes 13 (s.pair (grpOff g.val + 0xA) % 2 ^ 26 + 16 * i) 16 with
    | (s, none) => s.txRefuse g
    | (s, some l) =>
      let d := txDescOf l
      if d.len < 14 ∨ 65536 < d.len ∨ 0x1000000 < d.addr + d.len then s.txRefuse g
      else match s.engineBytes 13 d.addr d.len with
        | (s, none) => s.txRefuse g
        | (s, some l) => match s.txFrames d l with
          | none => s.txRefuse g
          | some fs =>
            let s := (numbered fs).foldl (fun s f => s.injectFrame g i d (f.1 == 0) f.2) s
            (s.txDone g).grpEvent g.val 1

/-! ## Group registers (R174) -/

/-- A write of MAC_Gg_CFG clears RXWR and RXRD, one of TXCFG clears TXWR and TXRD. -/
def State.groupCfg (s : State) (g : Fin 16) (tx : Bool) (v : Word) : State :=
  if tx then (s.setReg (grpOff g.val + 0xE) (v &&& 0xF)).mapGroup g (fun x => { x with txwr := 0, txrd := 0 })
  else (s.setReg (grpOff g.val) v).mapGroup g (fun x => { x with rxwr := 0, rxrd := 0 })

/-- A write of RXRD: ignored if it would pass RXWR (R164). -/
def State.rxrdWrite (s : State) (g : Fin 16) (v : Word) : State :=
  let x := s.mac.groups[g]
  if (v - x.rxrd).toNat ≤ (x.rxwr - x.rxrd).toNat then s.mapGroup g (fun x => { x with rxrd := v }) else s

/-- A write of TXWR: ignored if more than the ring past TXRD. -/
def State.txwrWrite (s : State) (g : Fin 16) (v : Word) : State :=
  let x := s.mac.groups[g]
  if (v - x.txrd).toNat ≤ s.grpTxSize g.val then s.mapGroup g (fun x => { x with txwr := v }) else s

/-- The head of a group's stamp FIFO. -/
def Group.head (x : Group) : Nat :=
  match x.ts with
  | e :: _ => e.tod.toNat
  | [] => 0

/-- MAC_Gg_TS_STAT. -/
def Group.tsStat (x : Group) : Word :=
  BitVec.ofNat 16 (x.ts.length + (match x.ts with
    | e :: _ => 8 * (e.desc % 1024) + 8192 * b2n e.missed
    | [] => 0))

/-- A read of MAC_Gg_TS0: the head stamp; TS1 to TS4 and TS_STAT are latched, and the head is popped (R172). -/
def State.tsRead (s : State) (m : Master) (g : Fin 16) : State × Word :=
  let x := s.mac.groups[g]
  let s := s.latchWord m (grpOff g.val + 0x18) x.tsStat
  let r := s.groupRead m (grpOff g.val + 0x1A) 0 5 x.head
  (r.1.mapGroup g (fun x => { x with ts := x.ts.drop 1 }), r.2)

def macSpecs : List RegSpec :=
  [{ base := 0x50008, rw := 3, m := 11, outer := 0x400 }, { base := 0x52810 },
   { base := 0x53002, pair := true, rwHi := 0x3FF, m := 16, outer := 0x80 },
   { base := 0x5300A, pair := true, rwHi := 0x3FF, m := 16, outer := 0x80 },
   { base := 0x53014, rw := 0, w1c := 0x1F, m := 16, outer := 0x80 }, { base := 0x53016, rw := 0x1F, m := 16, outer := 0x80 },
   { base := 0x53040, n := 32, m := 16, outer := 0x80 }]

/-- A write to a register of the MACs. -/
def State.macWrite (s : State) (m : Master) (off : Nat) (v : Word) : State :=
  if off < 0x52C00 then
    match finOf 11 ((off - 0x50000) / 0x400), off % 0x400 with
    | some p, 0 => s.macCfg p v
    | some p, 6 => s.macSds p v
    | _, _ => s.tableWrite macSpecs m off v
  else match finOf 16 ((off - 0x53000) / 0x80), off % 0x80 with
    | some g, 0 => s.groupCfg g false v
    | some g, 0xE => s.groupCfg g true v
    | some g, 8 => s.rxrdWrite g v
    | some g, 0x10 => s.txwrWrite g v
    | some _, w => s.tableWrite macSpecs m off (if 0x40 ≤ w ∧ w % 8 = 6 then v &&& 0x3FFF else v)
    | none, _ => s

/-- The registers of the MACs as they read at present. -/
def State.macLive (s : State) (off : Nat) : Word :=
  if off < 0x52C00 then
    match finOf 11 ((off - 0x50000) / 0x400), off % 0x400 with
    | some p, 4 =>
      let x := s.mac.ports[p]
      flag x.up 0 ||| flag x.pcsSync 1 ||| flag x.anDone 2 ||| flag x.half 3 ||| BitVec.ofNat 16 (16 * x.rate.toNat)
    | some p, 0xA => BitVec.ofNat 16 (s.mac.ports[p].eye % 1024)
    | _, _ => s.reg off
  else match finOf 16 ((off - 0x53000) / 0x80), off % 0x80 with
    | some g, 6 => s.mac.groups[g].rxwr
    | some g, 8 => s.mac.groups[g].rxrd
    | some g, 0x10 => s.mac.groups[g].txwr
    | some g, 0x12 => s.mac.groups[g].txrd
    | some g, 0x18 => s.mac.groups[g].tsStat
    | some g, w => if 0x1A ≤ w ∧ w < 0x24 then wordOf s.mac.groups[g].head ((w - 0x1A) / 2) else s.reg off
    | none, _ => 0

/-- A read of a register of the MACs: STAT is cleared by it (R170), TS0 pops (R172). -/
def State.macRead (s : State) (m : Master) (off : Nat) : State × Word :=
  if off < 0x52C00 then
    if off % 0x400 = 2 then s.clearRead off else s.tableRead macSpecs State.macLive m off
  else match finOf 16 ((off - 0x53000) / 0x80) with
    | some g =>
      let w := off % 0x80
      if w = 0x1A then s.tsRead m g
      else if w = 0x18 ∨ (0x1C ≤ w ∧ w < 0x24) then (s, s.latched m off (s.macLive off))
      else s.tableRead macSpecs State.macLive m off
    | none => (s, 0)

/-! ## Commands -/

def execLinkUp (p : PortId) (half : Bool) (rate : BitVec 4) (s : State) : Host.Outcome State Fault Refusal :=
  .next (s.alive fun s => s.linkUp p half rate)

def execLinkDown (p : PortId) (s : State) : Host.Outcome State Fault Refusal := .next (s.alive fun s => s.linkDown p)

def execP10RxRecord (s : State) : Host.Outcome State Fault Refusal := .next (s.alive fun s => s.rxRecord)

def execMacRxrdWrite (m : Master) (g : Fin 16) (v : Word) (s : State) : Host.Outcome State Fault Refusal :=
  .next (s.alive fun s => s.writeCmd m (grpOff g.val + 8) (fun s => s.rxrdWrite g v))

def execMacTxwrWrite (m : Master) (g : Fin 16) (v : Word) (s : State) : Host.Outcome State Fault Refusal :=
  .next (s.alive fun s => s.writeCmd m (grpOff g.val + 0x10) (fun s => s.txwrWrite g v))

def execTxDescriptor (g : Fin 16) (s : State) : Host.Outcome State Fault Refusal :=
  .next (s.alive fun s => s.txDescriptor g)

def execMacTsRead (m : Master) (g : Fin 16) (s : State) : Host.Outcome State Fault Refusal :=
  .next (s.alive fun s => s.readCmd m (grpOff g.val + 0x1A) (fun s => s.tsRead m g))

def execMacSdsWrite (m : Master) (p : PortId) (v : Word) (s : State) : Host.Outcome State Fault Refusal :=
  .next (s.alive fun s => s.writeCmd m (macOff p.val + 6) (fun s => s.macSds p v))

def execCtleStep (p : PortId) (s : State) : Host.Outcome State Fault Refusal := .next (s.alive fun s => s.ctleStep p)

def execMacGroupCfgWrite (m : Master) (g : Fin 16) (tx : Bool) (v : Word) (s : State) :
    Host.Outcome State Fault Refusal :=
  .next (s.alive fun s => s.writeCmd m (grpOff g.val + (if tx then 0xE else 0)) (fun s => s.groupCfg g tx v))

end Sys2Proof.Machine
end

