-- ==== Sys2Proof/Machine/Ring.lean ====
section
/-! DEFINITION. The Rierver ring (07_rierver_ring.md): frames and their codes, the damper, slots and carry-over, survey,
servo samples, claims, fold-back and healing, mode votes, and the RNG_ registers. -/

namespace Sys2Proof.Machine

open Sys2Proof

/-! ## The frame (R178 to R180) -/

/-- The fields of a header (R179). -/
structure RHdr where
  tick : Nat
  launch : Nat
  strike : Nat
  mode : Fin 8
  slot : Nat
  dir : Bool
  heal : Bool
  type : Nat
  vreq : Bool
  vmode : Fin 8
  vgo : Bool
  vdly : Nat
  folded : Bool
  deriving DecidableEq, Repr

/-- Three bits as a mode number. -/
def modeFin (x : Nat) : Fin 8 := (BitVec.ofNat 3 x).toFin

/-- The header that 16 bytes hold. -/
def rhdrOf (l : List Byte) : RHdr :=
  let w := ofBytes ((l.drop 10).take 4)
  let x := ofBytes ((l.drop 14).take 2)
  { tick := ofBytes (l.take 6), launch := ofBytes ((l.drop 6).take 4), strike := bitsAt w 0 25,
    mode := modeFin (bitsAt w 25 3), slot := bitsAt w 28 2, dir := w.testBit 30, heal := w.testBit 31,
    type := bitsAt x 0 3, vreq := x.testBit 3, vmode := modeFin (bitsAt x 4 3), vgo := x.testBit 7, vdly := bitsAt x 8 2,
    folded := x.testBit 10 }

/-- The 16 bytes of a header. -/
def RHdr.bytes (h : RHdr) : List Byte :=
  toBytes h.tick 6 ++ toBytes h.launch 4 ++
  toBytes (h.strike % 2 ^ 25 + 2 ^ 25 * h.mode.val + 2 ^ 28 * h.slot + 2 ^ 30 * b2n h.dir + 2 ^ 31 * b2n h.heal) 4 ++
  toBytes (h.type + 8 * b2n h.vreq + 16 * h.vmode.val + 128 * b2n h.vgo + 256 * h.vdly + 1024 * b2n h.folded) 2

/-- The segments of a payload (R178). -/
def segments (l : List Byte) : List (List Byte) := pieces 1024 33 l

/-- The frame that a node sends with good codes. -/
def RingWire.good (h : RHdr) (payload : List Byte) : RingWire :=
  { header := h.bytes, hcrc := crc32 h.bytes, payload := payload, crcs := (segments payload).map crc32 }

/-- Whether the header's CRC checks good, or is poison (R180). -/
def hdrGood (f : RingWire) : Bool := f.hcrc == crc32 f.header
def hdrPoison (f : RingWire) : Bool := f.hcrc == ~~~(crc32 f.header)

/-- Whether a code error or /A/ spares segment `j` (R209). -/
def segWhole (f : RingWire) (j : Nat) : Bool :=
  match f.code with
  | some k => decide (j < k)
  | none => true

/-- Whether each segment checks good, and whether each is whole but poisoned (R180, R209). -/
def segGoods (f : RingWire) : List Bool :=
  (numbered (segments f.payload)).map (fun e => segWhole f e.1 && f.crcs[e.1]? == some (crc32 e.2))
def segPoisons (f : RingWire) : List Bool :=
  (numbered (segments f.payload)).map (fun e => segWhole f e.1 && f.crcs[e.1]? == some (~~~(crc32 e.2)))
def segWholes (f : RingWire) : List Bool := (numbered (segments f.payload)).map (fun e => segWhole f e.1)

/-- The frame that a node sends on with a payload: every CRC over the bytes sent, or its inverse where the incoming one
did not check good (R180). -/
def regenerate (f : RingWire) (payload : List Byte) : RingWire :=
  { header := f.header, hcrc := if hdrGood f then crc32 f.header else ~~~(crc32 f.header), payload := payload,
    crcs := ((segments payload).zip (segGoods f)).map (fun e => if e.2 then crc32 e.1 else ~~~(crc32 e.1)),
    code := f.code }

/-- Whether every segment that the bytes from `a` to `a + n` overlap is good (R187). -/
def spanGood (goods : List Bool) (a n : Nat) : Bool :=
  (List.range ((a + n - 1) / 1024 + 1)).all (fun j => decide (j < a / 1024) || nthD goods j false)

/-! ## Access -/

/-- Events and CTRL bits of a channel (R210). -/
def State.ringEvent (s : State) (c : ChanId) (i : Nat) : State := s.raise (ringOff c.val + 4) i
def State.ringEventIf (s : State) (b : Bool) (c : ChanId) (i : Nat) : State := s.raiseIf b (ringOff c.val + 4) i
def State.ringAutojoin (s : State) (c : ChanId) : Bool := s.rbit (ringOff c.val) 1
def State.ringFollow (s : State) (c : ChanId) : Bool := s.rbit (ringOff c.val) 2

/-- The node ID and the node's own key (R199). -/
def State.nodeId (s : State) : Nat := s.rfld 0x60002 0 8
def State.serial (s : State) : Nat := if s.kdl.sensed then Config.serial.toNat else 0
def State.ownKey (s : State) : Nat := (s.reg 0x60004).toNat * 2 ^ 48 + s.serial

/-- Whether a lane is UP; the other lane. -/
def RingChannel.laneUp (r : RingChannel) : Lane → Bool
  | .inn => r.inUp
  | .out => r.outUp
def otherLane : Lane → Lane
  | .inn => .out
  | .out => .inn

/-- The channel sends frames: on lanes that are UP only. -/
def State.ringSend (s : State) (c : ChanId) (l : List (Lane × RingWire)) : State :=
  s.mapRing c (fun r => { r with sent := r.sent ++ l.filter (fun e => r.laneUp e.1) })

/-- A new command of the channel: nothing has been sent in it yet. -/
def State.ringQuiet (s : State) (c : ChanId) : State := s.mapRing c (fun r => { r with sent := [], notice := none })

/-- Enter a state; while a node is neither ACTIVE nor MASTER its read images are lost for the span (R187, R198). -/
def State.ringEnter (s : State) (c : ChanId) (st : RingState) : State :=
  s.mapRing c (fun r => { r with
    st := st
    spanInactive := r.spanInactive || !(st == .active || st == .master)
    frameBeat := if st == .listen then s.time.beat else r.frameBeat })

/-- An ACTIVE node that is no longer LOCKED or ticking is TIMED (R198). -/
def State.ringSettle (s : State) (c : ChanId) : State :=
  if s.ring[c].st == .active && !(s.time.locked && s.tick.running) then s.ringEnter c .timed else s

/-- Unknown delay (R194). -/
def dlyUnknown : BitVec 32 := 0xFFFFFFFF

/-- The delay for a copy, where it is known. -/
def RingChannel.dly (r : RingChannel) (dir : Bool) : Option Nat :=
  let d := if dir then r.dlyR else r.dlyF
  if d = dlyUnknown then none else some d.toNat

/-- The stamp of /S/ at a lane (R50). -/
def State.ringStamp (s : State) (c : ChanId) (sub : Nat) : Nat := (s.laneStamp sub (Config.ringLatency c.val)).toNat

/-- The tick number whose low 48 bits a header carries (R179). -/
def State.fullTick (s : State) (h : RHdr) : Nat := s.tick.tick / 2 ^ 48 * 2 ^ 48 + h.tick

/-- The slivers of a tick in a mode (R59). -/
def State.tickSlivers (s : State) (m : Nat) : Nat := 2 ^ (32 - s.modeN m)

/-! ## Images of the store (R187 to R189) -/

/-- The joiner's buffer that an image of the store fills; the latched one is the other (R24). -/
def State.ringFill (s : State) (c : ChanId) (i : Nat) : Bool :=
  match s.localImage c.val i with
  | some g => (s.image g).fill
  | none => false

/-- Whether the latched content of a write image is stale (R24, R89). -/
def State.ringStale (s : State) (c : ChanId) (i : Nat) : Bool :=
  match s.localImage c.val i with
  | some g => s.tick.staleOn && !(s.image g).latched
  | none => false

/-- Bytes of an image of the store in a buffer. -/
def State.ringImage (s : State) (c : ChanId) (i : Nat) (buf : Bool) (n : Nat) : List Byte :=
  (List.range n).map (fun k =>
    if k < s.rimgLen c.val i then Sparse.get 0 s.ring[c].store (b2n buf * 16384 + s.rimgOfs c.val i + k) else 0)

/-- The bytes that a write window carries (R185, R188). -/
def State.windowBytes (s : State) (c : ChanId) (w : RWin) (tick : Nat) : List Byte :=
  toBytes (s.nodeId + 256 * (tick % 128) + 32768 * b2n (s.ringStale c w.image)) 2 ++
  s.ringImage c w.image (!s.ringFill c w.image) (w.len - 2)

/-- A payload with the node's write windows of a slot (R186). -/
def State.writeWindows (s : State) (c : ChanId) (slot tick : Nat) (p : List Byte) : List Byte :=
  (s.ringWins c.val s.tick.mode.val).foldl (fun p w =>
    if w.write && w.slot == slot then splice p w.start (s.windowBytes c w tick) else p) p

/-- The status of a read image in the span. -/
def State.readSt (s : State) (c : ChanId) (i : Nat) : ReadSt := Sparse.get .silent s.ring[c].reads i
def State.setReadSt (s : State) (c : ChanId) (i : Nat) (x : ReadSt) : State :=
  s.mapRing c (fun r => { r with reads := Sparse.set .silent r.reads i x })

/-- A read window of a passing frame that meets the first condition of R187. -/
def State.readWindow (s : State) (c : ChanId) (tick : Nat) (p : List Byte) (goods : List Bool) (w : RWin) : State :=
  let tag := ofBytes ((p.drop w.start).take 2)
  let age := (tick + 256 - bitsAt tag 8 7) % 128
  let data := ((p.drop (w.start + 2)).take (w.len - 2)).take (s.rimgLen c.val w.image)
  let before := s.readSt c w.image
  if !spanGood goods w.start w.len then (if before == .silent then s.setReadSt c w.image .seen else s)
  else if bitsAt tag 0 8 = 0xFF then s.setReadSt c w.image .lost
  else if bitsAt tag 0 8 = w.writer ∧ age ≤ 1 ∧ !tag.testBit 15 then
    let k := b2n s.jnr.side * 16384 + s.rimgOfs c.val w.image
    let s := (s.setStoreBytes c.val k data).localFresh c.val w.image (w.len - 2)
    if before == .lost then s else s.setReadSt c w.image .fresh
  else if before == .silent then s.setReadSt c w.image .seen else s

/-- The read windows of a slot. -/
def State.readWindows (s : State) (c : ChanId) (slot tick : Nat) (p : List Byte) (goods : List Bool) : State :=
  ((s.ringWins c.val s.tick.mode.val).filter (fun w => !w.write && w.slot == slot)).foldl
    (fun s w => s.readWindow c tick p goods w) s

/-- The strike: read images that are lost for the span are reported (R187). -/
def State.ringStrike (s : State) (c : ChanId) : State :=
  let s := s.ringSettle c
  let r := s.ring[c]
  let ids := (((s.ringWins c.val s.tick.mode.val).filter (fun w => !w.write)).map (fun w => w.image)).eraseDups
  let s := ids.foldl (fun (s : State) (i : Nat) =>
    let st := s.readSt c i
    if r.spanInactive || st == .silent || st == .lost then s.localLost c.val i else s) s
  s.mapRing c (fun r => { r with reads := [], spanInactive := !(r.st == .active || r.st == .master) })

/-! ## Fold-back (R202 to R204) -/

/-- A fold takes effect at the next /S/ that the node receives (R202). -/
def State.ringFold (s : State) (c : ChanId) : State :=
  let r := s.ring[c]
  if r.st != .master && !r.folding && r.inUp != r.outUp then
    (s.mapRing c (fun r => { r with folding := true, foldOut := !r.outUp, noticeBeat := s.time.beat })).ringEvent c 7
  else s

/-- The lane by which a frame leaves that entered on a lane (R175, R202). -/
def RingChannel.exit (r : RingChannel) (lane : Lane) : Lane :=
  if r.folding then (if r.foldOut then .inn else .out) else otherLane lane

/-- Whether a copy on a lane is outbound: a forward copy on the in lane, or a reverse copy on the out lane (R203). -/
def outbound (lane : Lane) (dir : Bool) : Bool := (lane == .out) == dir

/-- A folding node's notice (R202, R204): its DOWN lane is still down, or up and ready to heal. -/
def State.foldNotice (s : State) (c : ChanId) : State :=
  let r := s.ring[c]
  if r.folding then
    let lane := if r.foldOut then Lane.inn else .out
    let st : Byte := if r.inUp && r.outUp then 1 else 0
    s.mapRing c (fun r => { r with
      notice := if r.laneUp lane then some (lane, BitVec.ofNat 8 s.nodeId, st) else none, noticeBeat := s.time.beat })
  else s

/-- A node sends a frame on with a payload. -/
def State.ringForward (s : State) (c : ChanId) (lane : Lane) (f : RingWire) (p : List Byte) : State :=
  let s := s.mapRing c (fun r => { r with residence := Config.residence c.val })
  (s.ringSend c [(s.ring[c].exit lane, regenerate f p)]).foldNotice c

/-- The master enters the folded state, or stays in it (R203). -/
def State.enterFolded (s : State) (c : ChanId) : State :=
  if s.ring[c].folded then s
  else (s.mapRing c (fun r => { r with
    folded := true, healTick := none, surveyDue := some (s.tick.tick + 1) })).ringEvent c 7

/-- The master heals the ring from the next tick on (R204). -/
def State.healNext (s : State) (c : ChanId) : State :=
  s.mapRing c (fun r => if r.folded && r.healTick.isNone then { r with healTick := some (s.tick.tick + 1) } else r)

/-- A fold notice that a master receives (R203, R204); another node passes it on (R202). -/
def State.noticeIn (s : State) (c : ChanId) (lane : Lane) (node st : Byte) : State :=
  let s := s.ringQuiet c
  let r := s.ring[c]
  if r.st == .off || !r.laneUp lane then s
  else if r.st == .master then
    let s := s.enterFolded c
    let ready := st == 1
    let s := s.mapRing c (fun r => match lane with
      | .out => { r with foldFwd := node, foldReadyFwd := ready }
      | .inn => { r with foldRev := node, foldReadyRev := ready })
    let r := s.ring[c]
    if (r.foldFwd == 0xFF || r.foldReadyFwd) && (r.foldRev == 0xFF || r.foldReadyRev) then s.healNext c else s
  else s.mapRing c (fun r => { r with
    notice := if r.laneUp (r.exit lane) then some (r.exit lane, node, st) else none })

/-! ## What a good header does at a node (R196 to R198, R206, R208) -/

/-- A node's state after a good header of a copy (R198, R208). -/
def State.nodeState (s : State) (c : ChanId) (h : RHdr) : State :=
  let r := s.ring[c]
  if r.st == .clash || r.st == .claim || r.st == .master || r.st == .off || (r.dly h.dir).isNone then s
  else if s.time.locked && s.tick.running && h.mode == s.tick.mode then s.ringEnter c .active
  else if s.srvOn && s.srvSource == 2 + c.val then s.ringEnter c .timed
  else s.ringEnter c .surveyed

/-- A header of another mode at an ACTIVE or TIMED node (R208). -/
def State.modeMismatch (s : State) (c : ChanId) (h : RHdr) : State :=
  let st := s.ring[c].st
  if s.tick.running && h.mode != s.tick.mode && (st == .active || st == .timed) then
    let s := (s.ringEnter c .timed).ringEvent c 5
    if s.ringFollow c && s.tick.req.isNone then s.localReq h.mode 2 else s
  else s.nodeState c h

/-- The servo error of a slot 0 header, in slivers (R196). -/
def State.ringError (s : State) (c : ChanId) (h : RHdr) (dly sub : Nat) : Int :=
  let m := if s.tick.running then s.tick.mode else h.mode
  asInt (ofInt ((s.fullTick h * s.tickSlivers m.val + h.launch + dly : Nat) - (s.ringStamp c sub : Nat) : Int) 80) 80

/-- The servo sample of a tick, from the first good slot 0 header of the copy whose delay the node holds (R196). -/
def State.ringSample (s : State) (c : ChanId) (h : RHdr) (sub : Nat) : State :=
  if h.slot = 0 ∧ s.ring[c].sampleTick ≠ some h.tick then
    match s.ring[c].dly h.dir with
    | some d =>
      let e := s.ringError c h d sub
      (s.mapRing c (fun r => { r with sampleTick := some h.tick, rev := h.dir, joinE := some e })).offer (2 + c.val) e
    | none => s
  else s

/-- VGO of a good header (R206). -/
def State.ringVgo (s : State) (h : RHdr) : State := if h.vgo then s.vgoCommit h.vmode (s.fullTick h + h.vdly) else s

/-- HEAL of a good header at a folding node, and the unfolding where ticks do not run here (R204). -/
def State.ringHeal (s : State) (c : ChanId) (h : RHdr) : State :=
  s.mapRing c (fun r =>
    let r := if h.heal && r.folding && r.inUp && r.outUp then { r with unfoldTick := some (s.fullTick h + 1) } else r
    match r.unfoldTick with
    | some u => if u ≤ s.fullTick h then { r with folding := false, unfoldTick := none } else r
    | none => r)

/-- What a good data header does in whatever direction it passes. -/
def State.goodHeader (s : State) (c : ChanId) (h : RHdr) : State :=
  let s := s.mapRing c (fun r => { r with
    headerBeat := s.time.beat, heldKey := 0, lastHdrMode := h.mode, folded := h.folded, vreq := h.vreq, vmode := h.vmode })
  let s := s.ringEventIf (s.tick.running && h.strike != s.modeL s.tick.mode.val) c 15
  ((s.ringHeal c h).modeMismatch c h).ringVgo h

/-! ## A data frame at a node (R186, R187, R209) -/

/-- The node's vote bit (R205, R186). -/
def State.voteBit (s : State) (h : RHdr) (p : List Byte) : List Byte :=
  if h.slot = 0 ∧ h.vreq ∧ s.tick.req.isNone ∧ s.modeOk h.vmode.val then
    let k := s.nodeId / 8
    p.set k (nthD p k 0 ||| BitVec.ofNat 8 (2 ^ (s.nodeId % 8)))
  else p

/-- Whether TICK and SLOT are the node's own tick and an expected slot: enabled and after every slot of that tick and
direction that has passed (R187, R209). -/
def State.expected (s : State) (c : ChanId) (h : RHdr) : Bool :=
  h.tick == s.tick.tick % 2 ^ 48 && s.slotEn c.val s.tick.mode.val h.slot &&
  s.ring[c].seen.all (fun x => x.2.1 != h.tick || x.2.2 != h.dir || decide (x.1 < h.slot))

/-- Reads and writes of an outbound data frame with a good header: the payload that is sent on. -/
def State.passWindows (s : State) (c : ChanId) (h : RHdr) (f : RingWire) : State × List Byte :=
  if s.ring[c].st == .active then
    let s := s.readWindows c h.slot h.tick f.payload (segGoods f)
    (s, s.writeWindows c h.slot h.tick (s.voteBit h f.payload))
  else (s, f.payload)

/-- An outbound data frame with a good header. -/
def State.outboundData (s : State) (c : ChanId) (h : RHdr) (f : RingWire) : State × List Byte :=
  let s := (s.ringSample c h f.sub.val).goodHeader c h
  if s.tick.running && h.mode == s.tick.mode then
    if s.expected c h then
      (s.mapRing c (fun r => { r with seen := (h.slot, h.tick, h.dir) :: r.seen })).passWindows c h f
    else (s.ringEvent c 4, f.payload)
  else (s, f.payload)

/-- The events of a frame's codes (R180, R209). -/
def State.codeEvents (s : State) (c : ChanId) (f : RingWire) : State :=
  let bad := ((segGoods f).zip ((segPoisons f).zip (segWholes f))).any (fun x => !x.1 && !x.2.1 && x.2.2)
  let s := s.ringEventIf (!hdrGood f && !hdrPoison f) c 0
  let s := s.ringEventIf bad c 1
  let s := s.ringEventIf ((!hdrGood f && hdrPoison f) || (segPoisons f).any id) c 2
  s.ringEventIf f.code.isSome c 3

/-- A data frame at a node that is not master. -/
def State.nodeData (s : State) (c : ChanId) (lane : Lane) (h : RHdr) (f : RingWire) : State :=
  let s := s.ringSettle c
  if outbound lane h.dir || s.ring[c].folding && (s.ring[c].exit lane == lane) then
    let (s, p) := s.outboundData c h f
    s.ringForward c lane f p
  else (s.goodHeader c h).ringForward c lane f f.payload

/-! ## The master: launch and carry-over (R182, R183, R201) -/

/-- A copy's bytes, where a segment that did not check good counts as launched (R183). -/
def copyBytes (launched : List Byte) (x : Option (List Byte × List Bool)) : List Byte :=
  match x with
  | some (p, g) => (numbered launched).map (fun e => if nthD g (e.1 / 1024) false then nthD p e.1 e.2 else e.2)
  | none => launched

/-- The merged payload of two copies, the vote field of slot 0 by OR (R183). -/
def mergeCopies (slot : Nat) (l f v : List Byte) : List Byte :=
  (numbered l).map (fun e =>
    let a := nthD f e.1 e.2
    let b := nthD v e.1 e.2
    if slot = 0 ∧ e.1 < 32 then a ||| b else if a != e.2 then a else b)

/-- The merged return of a launched frame, where a copy has returned. -/
def Launched.merged (x : Launched) : Option (List Byte) :=
  if x.fwd.isNone && x.rev.isNone then none
  else
    let f := copyBytes x.payload x.fwd
    some (if x.two then mergeCopies x.slot x.payload f (copyBytes x.payload x.rev) else f)

/-- Whether every copy of a launched frame has returned. -/
def Launched.complete (x : Launched) : Bool := x.fwd.isSome && (!x.two || x.rev.isSome)

/-- The initial payload of a slot: every byte 0, every window tag 0xFFFF (R182). -/
def State.initialPayload (s : State) (c : ChanId) (slot : Nat) : List Byte :=
  let m := s.tick.mode.val
  (s.ringWins c.val m).foldl (fun p w => if w.slot = slot then splice p w.start [0xFF, 0xFF] else p)
    (List.replicate (s.slotLp c.val m slot) 0)

/-- The payload that a slot's frame starts from, before the master's own windows (R182). -/
def State.slotBase (s : State) (c : ChanId) (slot : Nat) : List Byte :=
  match s.ring[c].launched.find? (fun x => x.slot == slot && x.tick + 1 == s.tick.tick) with
  | some x => (x.merged).getD (s.initialPayload c slot)
  | none => s.initialPayload c slot

/-- The slivers from the start of the tick to the launch, as the header carries them (R179). -/
def State.launchField (s : State) (c : ChanId) : Nat :=
  (s.ringStamp c 0 + 2 ^ 80 - s.tick.tick * s.tickSlivers s.tick.mode.val % 2 ^ 80) % 2 ^ 32

/-- The header of a frame that the node launches (R179, R206). -/
def State.launchHeader (s : State) (c : ChanId) (type slot : Nat) : RHdr :=
  let r := s.ring[c]
  let go := match r.vote with
    | some v => v.n
    | none => none
  { tick := s.tick.tick % 2 ^ 48, launch := s.launchField c, strike := s.modeL s.tick.mode.val, mode := s.tick.mode,
    slot := slot, dir := false, heal := r.healTick == some s.tick.tick, type := type,
    vreq := r.vote.isSome && go.isNone, vmode := (r.vote.map (fun v => v.mode)).getD 0, vgo := go.isSome,
    vdly := match go with
      | some n => (n + 2 - s.tick.tick) % 4
      | none => 0,
    folded := r.folded }

/-- Both copies of a frame: the forward copy on the out lane, the reverse copy on the in lane (R203). -/
def bothCopies (h : RHdr) (p : List Byte) : List (Lane × RingWire) :=
  [(.out, RingWire.good { h with dir := false } p), (.inn, RingWire.good { h with dir := true } p)]

/-- The payload of a claim (R199). -/
def State.claimPayload (s : State) : List Byte :=
  toBytes (s.reg 0x60004).toNat 2 ++ toBytes s.serial 6 ++ [BitVec.ofNat 8 s.nodeId] ++ List.replicate 55 0

/-- Launch a claim on both lanes (R199). -/
def State.launchClaim (s : State) (c : ChanId) : State :=
  (s.ringSend c (bothCopies (s.launchHeader c 1 0) s.claimPayload)).mapRing c (fun r => { r with
    claimOut := r.claimOut.map (fun n => n + 1), claimBack := false, claimBeat := s.time.beat })

/-- Whether a slot is the last enabled one of the mode in force. -/
def State.lastSlot (s : State) (c : ChanId) (slot : Nat) : Bool :=
  (List.range 4).all (fun k => decide (k ≤ slot) || !s.slotEn c.val s.tick.mode.val k)

/-- SLOT_LAUNCH: the frame of an enabled slot at T + LAUNCH (R182, R203, R205, R206). -/
def State.slotLaunchCmd (s : State) (c : ChanId) (slot : Nat) : State :=
  let s := s.ringQuiet c
  let m := s.tick.mode.val
  if s.ring[c].st == .master && s.tick.running && decide (s.ring[c].freshTick < s.tick.tick) && s.slotEn c.val m slot &&
      s.ring[c].launched.all (fun x => x.slot != slot || x.tick != s.tick.tick) then
    let s := s.until (s.tick.tBeat + s.slotLaunch c.val m slot)
    let base := s.slotBase c slot
    let base := if slot = 0 then List.replicate (min 32 base.length) 0 ++ base.drop 32 else base
    let p := s.writeWindows c slot s.tick.tick base
    let h := s.launchHeader c 0 slot
    let two := s.ring[c].folded
    let x : Launched := { slot := slot, tick := s.tick.tick, launch := h.launch, payload := p, two := two, fwd := none, rev := none }
    let s := s.mapRing c (fun r => { r with
      launched := x :: r.launched.filter (fun y => y.slot != slot || y.tick + 1 == s.tick.tick)
      vote := if slot = 0 && h.vreq then r.vote.map (fun v => { v with ticks := v.ticks + 1 }) else r.vote })
    let s := s.ringSend c (if two then bothCopies h p else [(.out, RingWire.good h p)])
    if s.lastSlot c slot && (s.ring[c].foreign || s.ring[c].foreignPrev) then s.launchClaim c else s
  else s

/-! ## Mode votes at the master (R205 to R207) -/

/-- Open a vote on every enabled channel where the node is master (R205). -/
def State.openVote (s : State) (mode : Fin 8) : State :=
  let s := (finList 2).foldl (fun (s : State) c =>
    if s.ring[c].st == .master then s.mapRing c (fun r => { r with vote := some { mode := mode, ticks := 0, n := none } })
    else s) s
  s.mapTick (fun t => { t with req := some { mode := mode, commit := none } })

/-- Whether a channel's votes of this tick are complete (R206); a channel where no vote is open does not count. -/
def State.votesIn (s : State) (c : ChanId) : Bool :=
  let r := s.ring[c]
  r.vote.isNone || (r.votedTick == s.tick.tick && r.present.all (fun i => r.voted.contains i))

/-- Close the vote of every channel. -/
def State.closeVote (s : State) : State :=
  (finList 2).foldl (fun (s : State) c => s.mapRing c (fun r => { r with vote := none })) s

/-- At the return of slot 0: the votes are complete, or the 16th tick ends the vote (R206, R207). -/
def State.voteCheck (s : State) (c : ChanId) (complete : Bool) : State :=
  match s.ring[c].vote with
  | some v =>
    if v.n.isSome then s
    else if (finList 2).all (fun c => s.votesIn c) then
      let s := (finList 2).foldl (fun (s : State) c => s.mapRing c (fun r => { r with
        vote := r.vote.map (fun v => { v with n := some s.tick.tick }) })) s
      s.mapTick (fun t => { t with req := t.req.map (fun q => { q with commit := some (t.tick + 2) }) })
    else if decide (16 ≤ v.ticks) && complete then
      let s := s.closeVote
      ((s.mapTick (fun t => { t with req := none })).rejectReq).ringEvent c 12
    else s
  | none => s

/-- The merged vote field of a returned slot 0 frame. -/
def voteField (p : List Byte) : List Nat :=
  (List.range 256).filter (fun i => (nthD p (i / 8) 0).getLsbD (i % 8))

/-- A round trip measured at the master (R195, R210). -/
def State.roundTrip (s : State) (c : ChanId) (rtt : Nat) : State :=
  s.mapRing c (fun r => { r with
    rtt := BitVec.ofNat 32 rtt, rmaxOver := r.rmaxOver || decide (8 * s.ringRmax c.val < rtt) })

/-- The returned copy of a frame that the master launched (R182, R183, R187, R206). -/
def State.ownReturn (s : State) (c : ChanId) (h : RHdr) (f : RingWire) (x : Launched) : State :=
  let copy := some (f.payload, segGoods f)
  let x := if h.dir then { x with rev := copy } else { x with fwd := copy }
  let s := s.mapRing c (fun r => { r with
    launched := r.launched.map (fun y => if y.slot == x.slot && y.tick == x.tick then x else y), heldKey := 0 })
  let s := s.roundTrip c ((s.ringStamp c f.sub.val + 2 ^ 80 -
    (s.fullTick h * s.tickSlivers s.tick.mode.val + h.launch) % 2 ^ 80) % 2 ^ 80)
  let p := (x.merged).getD x.payload
  let good := (numbered (segments p)).map (fun e =>
    [x.fwd, x.rev].all (fun y => match y with
      | some (_, g) => nthD g e.1 false
      | none => true))
  let s := if x.complete && x.tick == s.tick.tick then s.readWindows c h.slot h.tick p good else s
  if x.slot = 0 then
    (s.mapRing c (fun r => { r with voted := voteField p, votedTick := x.tick })).voteCheck c x.complete
  else s

/-- A data frame with a good header at the master (R201, R203). -/
def State.masterData (s : State) (c : ChanId) (lane : Option Lane) (h : RHdr) (f : RingWire) : State :=
  match s.ring[c].launched.find? (fun x => x.slot == h.slot && x.tick == s.fullTick h && x.launch == h.launch) with
  | some x =>
    let s := if lane == some .out && !h.dir then s.enterFolded c else s
    s.ownReturn c h f x
  | none => s.mapRing c (fun r => { r with foreign := true, heldKey := 0 })

/-! ## Claims (R199 to R201) -/

/-- A claimant enters MASTER (R200); with a lane DOWN it is in the folded state (R203). -/
def State.becomeMaster (s : State) (c : ChanId) : State :=
  let alone := !(s.ring[c].inUp && s.ring[c].outUp)
  (((s.ringEnter c .master).mapRing c (fun r => { r with
    freshTick := s.tick.tick, launched := [], mSurvey := none, surveyDue := some (s.tick.tick + 1), folded := alone
    mkey := BitVec.ofNat 64 s.ownKey, folding := false, foreign := false, foreignPrev := false })).ringEvent c 11).ringEventIf
    alone c 7

/-- A claimant or a master hears a senior claim: it abandons (R200, R201). -/
def State.loseClaim (s : State) (c : ChanId) : State := (s.ringEnter c .listen).ringEvent c 10

/-- A copy of the claimant's own claim returns: the first copy of the last claim counts (R200). -/
def State.ownClaim (s : State) (c : ChanId) (dir : Bool) : State :=
  let k : Fin 2 := if dir then 1 else 0
  let r := s.ring[c]
  let last := r.claimOut[k] == 1
  let s := s.mapRing c (fun r => { r with claimOut := upd r.claimOut k (fun n => n - 1) })
  if last && !r.claimBack then
    let s := s.mapRing c (fun r => { r with claimBack := true, ownReturns := r.ownReturns + 1 })
    if 2 ≤ s.ring[c].ownReturns then s.becomeMaster c else s.launchClaim c
  else s

/-- A claim frame with good codes (R200, R201). -/
def State.claimIn (s : State) (c : ChanId) (lane : Lane) (h : RHdr) (f : RingWire) : State :=
  let key := ofBytes (f.payload.take 2) * 2 ^ 48 + ofBytes ((f.payload.drop 2).take 6)
  let r := s.ring[c]
  let rival := r.st == .claim || r.st == .master
  let held := if rival then max r.heldKey.toNat s.ownKey else r.heldKey.toNat
  let s := s.mapRing c (fun r => { r with keyBeat := s.time.beat })
  if rival && key == s.ownKey then (if r.st == .claim then s.ownClaim c h.dir else s)
  else if key < held then s
  else
    let s := s.mapRing c (fun r => { r with heldKey := BitVec.ofNat 64 key, mkey := BitVec.ofNat 64 key })
    (if rival then s.loseClaim c else s).ringForward c lane f f.payload

/-- A master-capable node in LISTEN that has seen no frame for 2^-6 s claims (R199). -/
def State.listenTimeoutCmd (s : State) (c : ChanId) : State :=
  let s := s.ringQuiet c
  if s.ring[c].st == .listen && s.rbit 0x60000 0 && s.kdl.straps.getLsbD 6 then
    let s := s.until (s.ring[c].frameBeat + 8388608)
    let s := (s.ringEnter c .claim).mapRing c (fun r => { r with
      heldKey := BitVec.ofNat 64 s.ownKey, ownReturns := 0, claimOut := Vector.replicate 2 0, keyBeat := s.time.beat })
    s.launchClaim c
  else s

/-- A claim that has not returned within 131,072 beats (R199). -/
def State.claimRetryCmd (s : State) (c : ChanId) : State :=
  let s := s.ringQuiet c
  if s.ring[c].st == .claim && !s.ring[c].claimBack then
    let s := s.until (s.ring[c].claimBeat + 131072)
    (s.mapRing c (fun r => { r with ownReturns := 0, claimOut := Vector.replicate 2 0 })).launchClaim c
  else s

/-- No good header for 2^-6 s (R198). -/
def State.headerTimeoutCmd (s : State) (c : ChanId) : State :=
  let st := s.ring[c].st
  if st == .surveyed || st == .timed || st == .active || st == .clash then
    ((s.until (s.ring[c].headerBeat + 8388608)).ringEnter c .listen).mapRing c (fun r => { r with vreq := false })
  else s

/-- No claim for 2^-6 s: the held key clears (R200). -/
def State.keyTimeoutCmd (s : State) (c : ChanId) : State :=
  let r := s.ring[c]
  if r.heldKey != 0 && r.st != .claim && r.st != .master then
    (s.until (r.keyBeat + 8388608)).mapRing c (fun r => { r with heldKey := 0 })
  else s

/-! ## Survey (R193 to R195) -/

/-- The bytes that a node writes into its survey slot: Δ and FIRST_REV as given (R194). -/
def State.surveySlot (s : State) (c : ChanId) (delta : Int) (firstRev : Bool) : List Byte :=
  let r := s.ring[c]
  toBytes s.serial 6 ++ toBytes (Config.residence c.val).toNat 4 ++ toBytes (ofInt delta 32) 4 ++
  [BitVec.ofNat 8 (b2n firstRev + 2 * b2n r.folding + 4), 0]

/-- A survey copy at a node that is not master: stamp, clash check, slot (R193, R194). -/
def State.surveyNode (s : State) (c : ChanId) (lane : Lane) (h : RHdr) (f : RingWire) : State :=
  let r := s.ring[c]
  let a := s.ringStamp c f.sub.val
  let id := s.nodeId
  let sv := match r.survey with
    | some x => if x.tick = h.tick then x else { tick := h.tick, first := none, second := none }
    | none => { tick := h.tick, first := none, second := none }
  let serial := ofBytes ((f.payload.drop (16 * id)).take 6)
  let s := s.mapRing c (fun r => { r with residence := Config.residence c.val })
  if r.st == .clash then s.ringForward c lane f f.payload
  else if nthD (segGoods f) (16 * id / 1024) false && serial != 0 && serial != s.serial then
    ((s.ringEnter c .clash).ringEvent c 14).ringForward c lane f f.payload
  else match sv.first, sv.second with
    | none, _ =>
      let s := s.mapRing c (fun r => { r with survey := some { sv with first := some (a, lane == .out) } })
      s.ringForward c lane f (splice f.payload (16 * id) (s.surveySlot c 0 (lane == .out)))
    | some (t, rev), none =>
      if rev == (lane == .out) || r.folding then s.ringForward c lane f f.payload
      else
        let s := s.mapRing c (fun r => { r with survey := some { sv with second := some a } })
        let delta := asInt (ofInt ((a : Int) - t) 80) 80
        s.ringForward c lane f (splice f.payload (16 * id) (s.surveySlot c delta rev))
    | some _, some _ => s.ringForward c lane f f.payload

/-- A survey copy that returns to the master (R193). -/
def State.surveyReturn (s : State) (c : ChanId) (h : RHdr) (f : RingWire) : State :=
  match s.ring[c].mSurvey with
  | some v =>
    if v.tick % 2 ^ 48 = h.tick ∧ !v.resultDue then
      let rtt := (s.ringStamp c f.sub.val + 2 ^ 80 - v.launch % 2 ^ 80) % 2 ^ 80
      let copy := some (copyBytes (List.replicate 4096 0) (some (f.payload, segGoods f)), rtt)
      (s.mapRing c (fun r => { r with
        mSurvey := some (if h.dir then { v with rev := copy } else { v with fwd := copy }) })).roundTrip c rtt
    else s
  | none => s

/-- DLY_F and DLY_R of a node from its survey slot (R195); unknown where the copy of its first passage has not
returned. -/
def surveyDelays (closed : Bool) (rttF rttR : Option Nat) (slot : List Byte) : Nat × Nat :=
  let res := ofBytes ((slot.drop 6).take 4)
  let delta := asInt (ofBytes ((slot.drop 10).take 4)) 32
  let firstRev := (nthD slot 14 0).getLsbD 0
  match (if firstRev then rttR else rttF) with
  | none => (0xFFFFFFFF, 0xFFFFFFFF)
  | some rtt =>
    let x := roundEven ((rtt : Int) - res - delta) 2
    let y := if closed then ofInt ((rtt : Int) - x - res) 32 else 0xFFFFFFFF
    let x := ofInt x 32
    if firstRev then (y, x) else (x, y)

/-- One node's slot of the merged survey, the slot of the result, and the node's delays where it is present. -/
def resultSlot (closed : Bool) (rttF rttR : Option Nat) (f v slot : List Byte) : List Byte × Option (Nat × Nat) :=
  if (nthD slot 14 0).getLsbD 2 then
    let d := surveyDelays closed rttF rttR slot
    let clash := ofBytes (f.take 6) != 0 && ofBytes (v.take 6) != 0 && f.take 6 != v.take 6
    (toBytes d.1 4 ++ toBytes d.2 4 ++ slot.take 6 ++ [if clash then 1 else 0, 0], some d)
  else (toBytes 0xFFFFFFFF 4 ++ toBytes 0xFFFFFFFF 4 ++ List.replicate 8 0, none)

/-- The survey result: its payload, the present nodes, their delays (R193 to R195). -/
def State.surveyResultOf (s : State) (c : ChanId) (v : MasterSurvey) : List Byte × List (Nat × Nat × Nat) :=
  let zero : List Byte := List.replicate 4096 0
  let f := (v.fwd.map (fun x => x.1)).getD zero
  let w := (v.rev.map (fun x => x.1)).getD zero
  let merged := mergeCopies 1 zero f w
  let rttF := v.fwd.map (fun x => x.2)
  let rttR := v.rev.map (fun x => x.2)
  let slots := (List.range 256).map (fun i =>
    let cut := fun (l : List Byte) => (l.drop (16 * i)).take 16
    (i, resultSlot (!s.ring[c].folded) rttF rttR (cut f) (cut w) (cut merged)))
  (slots.foldl (fun l e => l ++ e.2.1) [], slots.filterMap (fun e => e.2.2.map (fun d => (e.1, d.1, d.2))))

/-- SURVEY_LAUNCH: the survey of a tick, or the result of the survey of the tick before, at T + SVY_OFS (R193). A
result that has not returned in its tick is given up. -/
def State.surveyLaunchCmd (s : State) (c : ChanId) : State :=
  let s := s.ringQuiet c
  let r := s.ring[c]
  if r.st == .master && s.tick.running then
    let due := s.tick.tBeat + s.svyOfs c.val
    match r.mSurvey.filter (fun v => !(v.resultDue && decide (v.tick < s.tick.tick))) with
    | some v =>
      if v.tick < s.tick.tick then
        let s := s.until due
        let (p, nodes) := s.surveyResultOf c v
        let s := s.mapRing c (fun r => { r with
          mSurvey := some { v with tick := s.tick.tick, resultDue := true }
          present := nodes.map (fun e => e.1)
          nodDf := nodes.foldl (fun l e => Sparse.set dlyUnknown l e.1 (BitVec.ofNat 32 e.2.1)) []
          nodDr := nodes.foldl (fun l e => Sparse.set dlyUnknown l e.1 (BitVec.ofNat 32 e.2.2)) [] })
        s.ringSend c (bothCopies (s.launchHeader c 3 0) p)
      else s
    | none =>
      match r.surveyDue with
      | some k =>
        if k ≤ s.tick.tick then
          let s := s.until due
          let s := s.mapRing c (fun r => { r with
            surveyDue := none
            mSurvey := some { tick := s.tick.tick, launch := s.ringStamp c 0, fwd := none, rev := none, resultDue := false } })
          s.ringSend c (bothCopies (s.launchHeader c 2 0) (List.replicate 4096 0))
        else s
      | none => s
  else s

/-- The survey result at a node (R194): the delays of its own serial; an unknown delay leaves the held one (R195). -/
def State.resultNode (s : State) (c : ChanId) (lane : Lane) (h : RHdr) (f : RingWire) : State :=
  let id := s.nodeId
  let slot := (f.payload.drop (16 * id)).take 16
  let keep := fun (old : BitVec 32) (x : Nat) => if x = 0xFFFFFFFF then old else BitVec.ofNat 32 x
  let s :=
    if s.ring[c].st == .clash || !nthD (segGoods f) (16 * id / 1024) false then s
    else if ofBytes ((slot.drop 8).take 6) = s.serial then
      (s.mapRing c (fun r => { r with
        dlyF := keep r.dlyF (ofBytes (slot.take 4)), dlyR := keep r.dlyR (ofBytes ((slot.drop 4).take 4)) })).nodeState c h
    else s.ringEvent c 14
  s.ringForward c lane f f.payload

/-- The survey result returns to the master (R193). -/
def State.resultReturn (s : State) (c : ChanId) (h : RHdr) : State :=
  match s.ring[c].mSurvey with
  | some v =>
    if v.resultDue ∧ v.tick % 2 ^ 48 = h.tick then (s.mapRing c (fun r => { r with mSurvey := none })).ringEvent c 9
    else s
  | none => s

/-! ## Any frame at a channel -/

/-- A frame whose /S/ arrives on a lane: its header's TYPE tells what it is (R179). -/
def State.ringFrame (s : State) (c : ChanId) (lane : Lane) (f : RingWire) : State :=
  let s := s.ringQuiet c
  let r := s.ring[c]
  if r.st == .off || !r.laneUp lane then s
  else
    let s := s.mapRing c (fun r => { r with frameBeat := s.time.beat })
    let s := (s.ringFold c).codeEvents c f
    let h := rhdrOf f.header
    let master := s.ring[c].st == .master
    if !hdrGood f then (if master then s else s.ringForward c lane f f.payload)
    else match h.type with
      | 0 => if master then s.masterData c (some lane) h f else s.nodeData c lane h f
      | 1 => if nthD (segGoods f) 0 false then s.claimIn c lane h f
             else if master then s else s.ringForward c lane f f.payload
      | 2 => if master then s.surveyReturn c h f else s.surveyNode c lane h f
      | 3 => if master then s.resultReturn c h else s.resultNode c lane h f
      | _ => if master then s else s.ringForward c lane f f.payload

/-- FRAME_RETURN: a copy returns to the master on the lane where its copy is due. -/
def State.frameReturnCmd (s : State) (c : ChanId) (f : RingWire) : State :=
  let s := s.ringQuiet c
  if s.ring[c].st == .master then
    let s := (s.mapRing c (fun r => { r with frameBeat := s.time.beat })).codeEvents c f
    let h := rhdrOf f.header
    if hdrGood f && h.type == 0 then s.masterData c none h f else s
  else s

/-! ## Lanes (R177, R202 to R204) -/

/-- A lane changes. -/
def State.setLane (s : State) (c : ChanId) (lane : Lane) (up : Bool) : State :=
  s.mapRing c (fun r => match lane with
    | .inn => { r with inUp := up }
    | .out => { r with outUp := up })

/-- A lane goes DOWN (R177, R203). -/
def State.laneDownCmd (s : State) (c : ChanId) (lane : Lane) : State :=
  let s := s.ringQuiet c
  if s.ring[c].st != .off && s.ring[c].laneUp lane then
    let s := (s.setLane c lane false).ringEvent c 6
    if s.ring[c].st == .master then s.enterFolded c else s
  else s

/-- A lane goes UP (R177, R204). -/
def State.laneUpCmd (s : State) (c : ChanId) (lane : Lane) : State :=
  let s := s.ringQuiet c
  if s.ring[c].st != .off && !s.ring[c].laneUp lane then
    let s := s.setLane c lane true
    if s.ring[c].st == .master then s.healNext c
    else if s.ring[c].folding && ((lane == .out) == s.ring[c].foldOut) then s.foldNotice c
    else s
  else s

/-- The notice of a folding node after 32,768 beats without frames (R202). -/
def State.noticeDue (s : State) (c : ChanId) : State :=
  let s := s.ringQuiet c
  if s.ring[c].folding then (s.until (max s.ring[c].noticeBeat s.ring[c].frameBeat + 32768)).foldNotice c else s

/-! ## The tick in the ring (R182, R201, R204, R206) -/

/-- T+0 of a tick: `changed` tells that the mode has changed. -/
def State.ringTick (s : State) (c : ChanId) (changed : Bool) : State :=
  let s := s.ringSettle c
  let k := s.tick.tick
  let s := if s.ring[c].st == .master && s.ring[c].abandon then s.ringEnter c .listen else s
  let healed : Bool := match s.ring[c].healTick with
    | some h => decide (h < k)
    | none => false
  let s := if !healed then s else
      (s.mapRing c (fun r => { r with
        folded := false, healTick := none, surveyDue := some k, foldFwd := 0xFF, foldRev := 0xFF, foldReadyFwd := false,
        foldReadyRev := false })).ringEvent c 8
  s.mapRing c (fun r => { r with
    abandon := false
    seen := []
    foreignPrev := r.foreign
    foreign := false
    launched := if changed then [] else r.launched.filter (fun x => x.tick + 1 == k)
    folding := r.folding && !(match r.unfoldTick with
      | some u => decide (u ≤ k)
      | none => false)
    unfoldTick := r.unfoldTick.filter (fun u => k < u)
    vote := r.vote.filter (fun v => match v.n with
      | some n => k < n + 2
      | none => true) })

/-! ## AUTOJOIN (R198) -/

/-- The next step of an automatic join. -/
def State.autojoinCmd (s : State) (c : ChanId) : State :=
  let r := s.ring[c]
  if !s.ringAutojoin c then s
  else if r.st == .surveyed then
    match r.joinE with
    | some e =>
      let s := if s.tick.running then s else
        (s.elapse 1).mapTime (fun t => { t with todx := ofInt ((t.tod : Int) + e) 80 * sliverX })
      let s := s.timCtrl (setFld (setBit s.timCtrlNow 0 true) 1 3 (2 + c.val))
      (s.ringEnter c .timed).mapRing c (fun r => { r with joinE := none })
    | none => s
  else if r.st == .timed && s.time.locked && !s.tick.running && s.tick.starting.isNone then
    s.tckCtrl (setFld (setBit (s.reg 0x20000) 0 true) 1 3 r.lastHdrMode.val)
  else s

/-! ## Registers (R189, R190, R210) -/

/-- The image of the store that holds a byte. -/
def State.ringImageAt (s : State) (c : ChanId) (k : Nat) : Option Nat :=
  (List.range 128).find? (fun i => decide (s.rimgOfs c.val i ≤ k) && decide (k < s.rimgOfs c.val i + s.rimgLen c.val i))

/-- A byte of the aperture: a read image shows its snapshot, a write image its filling buffer (R189). -/
def State.apertureByte (s : State) (c : ChanId) (k : Nat) : Byte :=
  match s.ringImageAt c k with
  | some i =>
    if s.rimgWrite c.val i then Sparse.get 0 s.ring[c].store (b2n (s.ringFill c i) * 16384 + k)
    else
      let live := Sparse.get 0 s.ring[c].store (b2n (!s.jnr.side) * 16384 + k)
      match (s.localImage c.val i).bind (fun g => if (s.jimage g).snap.fresh then none else (s.jimage g).good) with
      | some l => nthD l (k - s.rimgOfs c.val i) live
      | none => live
  | none => Sparse.get 0 s.ring[c].store k

/-- The word of the aperture at an even offset. -/
def State.apertureWord (s : State) (c : ChanId) (k : Nat) : Word := s.apertureByte c (k + 1) ++ s.apertureByte c k

/-- A write of a word to the aperture (R190). -/
def State.apertureWrite (s : State) (m : Master) (c : ChanId) (off : Nat) (v : Word) : State :=
  let k := off / 2 * 2
  let mine := fun (b : Nat) => match s.ringImageAt c b with
    | some i => s.rimgWrite c.val i && s.rimgProducer c.val i == m.val
    | none => false
  if mine k && mine (k + 1) then
    let put := fun (s : State) (b : Nat) (x : Byte) => match s.ringImageAt c b with
      | some i => s.setStoreByte c.val (b2n (s.ringFill c i) * 16384 + b) x
      | none => s
    put (put s k (v.truncate 8)) (k + 1) ((v >>> 8).truncate 8)
  else ((s.countNow (ringOff c.val + 0x1A) 1).ringEvent c 13).violate m 5 (regAddr (0x68000 + 0x4000 * c.val + k))

/-- A write of RNG_c_CTRL (R193, R198, R201, R210). -/
def State.ringCtrl (s : State) (c : ChanId) (v : Word) : State :=
  let old := s.rbit (ringOff c.val) 0
  let s := (s.ringQuiet c).setReg (ringOff c.val) (v &&& 7)
  let s := if bit v 0 && !old then (s.ringEnter c .listen).mapRing c (fun r => { r with inUp := false, outUp := false })
    else if !bit v 0 && old then
      (s.ringEnter c .off).mapRing c (fun r => { r with
        inUp := false, outUp := false, folding := false, folded := false, vreq := false, vote := none, launched := [], mSurvey := none,
        survey := none, surveyDue := none, abandon := false, healTick := none, unfoldTick := none })
    else s
  if s.ring[c].st == .master then
    s.mapRing c (fun r => { r with
      surveyDue := if bit v 3 then some (s.tick.tick + 1) else r.surveyDue, abandon := r.abandon || bit v 4 })
  else s

/-- Whether writes that are part of every mode are barred (R87, R210). -/
def State.everyModeBarred (s : State) : Bool := s.inRun && s.tick.running

def rngSpecs : List RegSpec :=
  [{ base := 0x60000, rw := 1 }, { base := 0x60004 }, { base := 0x60104, rw := 0, w1c := 0xFFFF, m := 2, outer := 0x100 },
   { base := 0x60106, m := 2, outer := 0x100 },
   { base := 0x60108, rw := 0, pair := true, stride := 4, n := 4, m := 2, outer := 0x100 },
   { base := 0x60118, m := 2, outer := 0x100 }, { base := 0x6011E, pair := true, m := 2, outer := 0x100 },
   { base := 0x60400, pair := true, n := 4, stride := 8, m := 16, outer := 0x20 },
   { base := 0x60404, rw := 0x3FF, n := 4, stride := 8, m := 16, outer := 0x20 },
   { base := 0x60800, n := 512, stride := 8 }, { base := 0x60802, n := 512, stride := 8 },
   { base := 0x60804, rw := 0x1FF, n := 512, stride := 8 }, { base := 0x60806, rw := 0xFF, n := 512, stride := 8 },
   { base := 0x61800, rw := 0x3FFE, n := 256, stride := 8 }, { base := 0x61802, rw := 0x7FFF, n := 256, stride := 8 },
   { base := 0x61804, rw := 0x3F, n := 256, stride := 8 },
   { base := 0x62000, rw := 0, pair := true, stride := 4, n := 1024 }]

/-- A write to a register of the RNG_ block. -/
def State.rngWrite (s : State) (m : Master) (off : Nat) (v : Word) : State :=
  let plain := s.tableWrite rngSpecs m off v
  if off = 0x60002 then
    if s.ring[0].st == .off && s.ring[1].st == .off && decide (fld v 0 8 < 254) then s.setReg off (v &&& 0xFF) else s
  else if off = 0x60100 then s.ringCtrl 0 v
  else if off = 0x60200 then s.ringCtrl 1 v
  else if off = 0x60118 ∨ off = 0x60218 ∨ off = 0x60120 ∨ off = 0x60220 then
    if s.everyModeBarred then s.raise 0x20004 8 else plain
  else if 0x60400 ≤ off ∧ off < 0x60600 then
    if off % 8 = 0 then plain else s.modeTable ((off - 0x60400) % 0x100 / 0x20) (fun s => s.tableWrite rngSpecs m off v)
  else if 0x60800 ≤ off ∧ off < 0x61800 then
    s.modeTable ((off - 0x60800) % 0x800 / 0x100) (fun s => s.tableWrite rngSpecs m off v)
  else if 0x61800 ≤ off ∧ off < 0x62000 then
    if s.rbit (ringOff ((off - 0x61800) / 0x400)) 0 then s else plain
  else if 0x68000 ≤ off then s.apertureWrite m (if off < 0x6C000 then 0 else 1) ((off - 0x68000) % 0x4000) v
  else plain

/-- STATE as it stands (R198, R210). -/
def State.ringStateCode (s : State) (c : ChanId) : Nat :=
  match (s.ringSettle c).ring[c].st with
  | .off => 0
  | .listen => 1
  | .claim => 2
  | .master => 3
  | .surveyed => 4
  | .timed => 5
  | .active => 6
  | .clash => 7

/-- A word of a set of node IDs. -/
def idWord (l : List Nat) (k : Nat) : Word := l.foldl (fun w i => if i / 16 = k then w ||| bitMask (i % 16) else w) 0

/-- RNG_c_STATUS (R210). -/
def State.ringStatus (s : State) (c : ChanId) : Word :=
  let r := s.ring[c]
  let vreq := if r.st == .master then r.vote.isSome else r.vreq
  let vmode := if r.st == .master then ((r.vote.map (fun (v : Vote) => v.mode)).getD 0).val else r.vmode.val
  BitVec.ofNat 16 (s.ringStateCode c) ||| flag r.inUp 3 ||| flag r.outUp 4 ||| flag r.folding 5 ||| flag r.folded 6 |||
    flag r.rev 7 ||| flag vreq 8 ||| BitVec.ofNat 16 (vmode * 512) ||| flag r.rmaxOver 12 |||
    flag ((r.dly r.rev).isSome) 13

/-- The registers of a channel as they read at present, by offset from the channel's base. -/
def State.chanLive (s : State) (c : ChanId) (o : Nat) : Word :=
  let r := s.ring[c]
  if o = 2 then s.ringStatus c
  else if 8 ≤ o ∧ o < 0xC then wordOf r.dlyF.toNat ((o - 8) / 2)
  else if 0xC ≤ o ∧ o < 0x10 then wordOf r.dlyR.toNat ((o - 0xC) / 2)
  else if 0x10 ≤ o ∧ o < 0x14 then wordOf r.residence.toNat ((o - 0x10) / 2)
  else if 0x14 ≤ o ∧ o < 0x18 then wordOf r.rtt.toNat ((o - 0x14) / 2)
  else if o = 0x1C then r.foldRev ++ r.foldFwd
  else if o = 0x22 then wordOf r.mkey.toNat 3
  else if 0x24 ≤ o ∧ o < 0x2A then wordOf r.mkey.toNat ((o - 0x24) / 2)
  else if 0x40 ≤ o ∧ o < 0x60 then idWord r.present ((o - 0x40) / 2)
  else if 0x60 ≤ o ∧ o < 0x80 then idWord r.voted ((o - 0x60) / 2)
  else s.reg (ringOff c.val + o)

/-- The registers of the RNG_ block as they read at present. -/
def State.rngLive (s : State) (off : Nat) : Word :=
  if off = 0x60000 then
    (s.reg off &&& 1) ||| flag (s.kdl.straps.getLsbD 6) 1 ||| flag (s.ring.toList.any (fun r => r.st == .master)) 2
  else if 0x60006 ≤ off ∧ off < 0x6000C then wordOf s.serial ((off - 0x60006) / 2)
  else if 0x60100 ≤ off ∧ off < 0x60200 then s.chanLive 0 (off - 0x60100)
  else if 0x60200 ≤ off ∧ off < 0x60300 then s.chanLive 1 (off - 0x60200)
  else if 0x62000 ≤ off ∧ off < 0x63000 then
    let c : ChanId := if off < 0x62800 then 0 else 1
    let i := (off - 0x62000) % 0x800 / 8
    let t := if off % 8 < 4 then s.ring[c].nodDf else s.ring[c].nodDr
    wordOf (Sparse.get dlyUnknown t i).toNat (off % 4 / 2)
  else if 0x68000 ≤ off then s.apertureWord (if off < 0x6C000 then 0 else 1) ((off - 0x68000) % 0x4000)
  else s.reg off

/-- A read of a register of the RNG_ block: VIOL clears as it is read (R14, R210). -/
def State.rngRead (s : State) (m : Master) (off : Nat) : State × Word :=
  if off = 0x6011A ∨ off = 0x6021A then s.clearRead off else s.tableRead rngSpecs State.rngLive m off

/-! ## Commands -/

def execSlotLaunch (c : ChanId) (slot : Fin 4) (s : State) : Host.Outcome State Fault Refusal :=
  .next (s.alive fun s => s.slotLaunchCmd c slot.val)

def execFrameReturn (c : ChanId) (f : RingWire) (s : State) : Host.Outcome State Fault Refusal :=
  .next (s.alive fun s => s.frameReturnCmd c f)

def execDataFrame (c : ChanId) (lane : Lane) (f : RingWire) (s : State) : Host.Outcome State Fault Refusal :=
  .next (s.alive fun s => s.ringFrame c lane f)

def execClaim (c : ChanId) (lane : Lane) (f : RingWire) (s : State) : Host.Outcome State Fault Refusal :=
  .next (s.alive fun s => s.ringFrame c lane f)

def execSurveyLaunch (c : ChanId) (s : State) : Host.Outcome State Fault Refusal :=
  .next (s.alive fun s => s.surveyLaunchCmd c)

def execSurveyPassage (c : ChanId) (lane : Lane) (f : RingWire) (s : State) : Host.Outcome State Fault Refusal :=
  .next (s.alive fun s => s.ringFrame c lane f)

def execSurveyResult (c : ChanId) (lane : Lane) (f : RingWire) (s : State) : Host.Outcome State Fault Refusal :=
  .next (s.alive fun s => s.ringFrame c lane f)

def execLaneDown (c : ChanId) (lane : Lane) (s : State) : Host.Outcome State Fault Refusal :=
  .next (s.alive fun s => s.laneDownCmd c lane)

def execLaneUp (c : ChanId) (lane : Lane) (s : State) : Host.Outcome State Fault Refusal :=
  .next (s.alive fun s => s.laneUpCmd c lane)

def execFoldNotice (c : ChanId) (lane : Lane) (node st : Byte) (s : State) : Host.Outcome State Fault Refusal :=
  .next (s.alive fun s => s.noticeIn c lane node st)

def execFoldNoticeSend (c : ChanId) (s : State) : Host.Outcome State Fault Refusal :=
  .next (s.alive fun s => s.noticeDue c)

def execListenTimeout (c : ChanId) (s : State) : Host.Outcome State Fault Refusal :=
  .next (s.alive fun s => s.listenTimeoutCmd c)

def execClaimRetry (c : ChanId) (s : State) : Host.Outcome State Fault Refusal :=
  .next (s.alive fun s => s.claimRetryCmd c)

def execHeaderTimeout (c : ChanId) (s : State) : Host.Outcome State Fault Refusal :=
  .next (s.alive fun s => s.headerTimeoutCmd c)

def execKeyTimeout (c : ChanId) (s : State) : Host.Outcome State Fault Refusal :=
  .next (s.alive fun s => s.keyTimeoutCmd c)

def execAutojoin (c : ChanId) (s : State) : Host.Outcome State Fault Refusal := .next (s.alive fun s => s.autojoinCmd c)

def execRngEn (m : Master) (c : ChanId) (en : Bool) (s : State) : Host.Outcome State Fault Refusal :=
  .next (s.alive fun s => s.writeCmd m (ringOff c.val) (fun s => s.ringCtrl c (setBit (s.reg (ringOff c.val) &&& 7) 0 en)))

def execRngSurvey (m : Master) (c : ChanId) (s : State) : Host.Outcome State Fault Refusal :=
  .next (s.alive fun s => s.writeCmd m (ringOff c.val) (fun s => s.ringCtrl c (setBit (s.reg (ringOff c.val) &&& 7) 3 true)))

def execRngAbandon (m : Master) (c : ChanId) (s : State) : Host.Outcome State Fault Refusal :=
  .next (s.alive fun s => s.writeCmd m (ringOff c.val) (fun s => s.ringCtrl c (setBit (s.reg (ringOff c.val) &&& 7) 4 true)))

/-- A byte write gets an error response (R477). -/
def execRingApertureWrite (m : Master) (sel : ByteSel) (c : ChanId) (off : BitVec 14) (v : Word) (s : State) :
    Host.Outcome State Fault Refusal :=
  let o := 0x68000 + 0x4000 * c.val + off.toNat / 2 * 2
  if sel = .word then .next (s.alive fun s => s.writeCmd m o (fun s => s.apertureWrite m c off.toNat v))
  else .next (s.alive fun s => s.byteWriteCmd m)

end Sys2Proof.Machine
end

