-- ==== Sys2Proof/Machine/Season.lean ====
section
/-! DEFINITION. Seasoning and supervision (18_seasoning_and_supervision.md), and the identity registers (R490). The kerf
and reserve values that the running image loaded are `kdl.loaded`. -/

namespace Sys2Proof.Machine

open Sys2Proof

def ssnOff (o : Nat) : Nat := 0xF0000 + o
def State.ssnEvent (s : State) (i : Nat) : State := s.raise (ssnOff 4) i
def State.mapSsn (s : State) (f : Season → Season) : State := { s with ssn := f s.ssn }

/-! ## Measurement (R458 to R460) -/

/-- The hottest sensor in 1/8 °C (R459). -/
def Season.hottest (x : Season) : Int :=
  match x.temp with
  | t :: r => r.foldl max t
  | [] => 0

/-- The margin of a slack reading (R459). -/
def State.marginOf (s : State) (slack : Int) : Int :=
  slack + (-((s.reg (ssnOff 0x24)).toNat * (880 - s.ssn.hottest))) / 128

/-- The margins of the canaries, and the worst margin (R459). -/
def State.margins (s : State) : List Int := s.ssn.slack.map s.marginOf
def State.worstMargin (s : State) : Int :=
  match s.margins with
  | m :: r => r.foldl min m
  | [] => 0

/-- The on-resistance readings: one that could not be taken leaves the last (R458). -/
def newRon (old : List Nat) (r : List (Option Nat)) : List Nat :=
  (numbered r).map (fun e => e.2.getD (nthD old e.1 0))

/-- RON_DRIFT: an on-resistance above its baseline by more than SSN_RON_LIM / 256 of it (R459). -/
def ronDrift (lim : Nat) (base now : List Nat) : Bool :=
  (numbered now).any (fun e => match base[e.1]? with
    | some b => b != 0 && decide (b * lim < (e.2 - b) * 256)
    | none => false)

/-- A set of readings is taken (R458). -/
def State.takeReadings (s : State) (r : SensorReadings) : State :=
  let s := s.mapSsn (fun x => { x with
    slack := r.slack, osc := r.osc, temp := r.temp, eyes := r.eyes, ron := newRon x.ron r.ron })
  let s := (finList 10).foldl (fun (s : State) p =>
    s.mapMacPort ⟨p.val, by omega⟩ (fun y => { y with eye := nthD r.eyes p.val 0 })) s
  s.raiseIf (ronDrift (s.rfld (ssnOff 0x3A) 0 8) s.ssn.ronBase s.ssn.ron) (ssnOff 4) 9

/-- The greatest x with x^400 ≤ n, for n below 2^(400 k). -/
def root400 (n : Nat) : Nat → Nat
  | 0 => 0
  | k + 1 =>
    let hi := root400 (n / 2 ^ 400) k * 2 + 1
    if hi ^ 400 ≤ n then hi else hi - 1

/-- The ageing factor AF = 2^((T − 85 °C) / 10 °C + (V − 800 mV) / 50 mV) in units of 2^-48, rounded down: the exponent
is (5 (T8 − 680) + 8 (V − 800)) / 400 (R460). -/
def ageing (t8 : Int) (mv : Nat) : Nat :=
  let e : Int := 5 * (t8 - 680) + 8 * ((mv : Int) - 800) + 400 * 48
  if e < 0 then 0 else root400 (2 ^ e.toNat) (e.toNat / 400 + 1)

/-- The index as SSN_SEASON shows it, in 2^-16 hour (R460). -/
def Season.indexUnits (x : Season) : Nat := x.index / 2 ^ 48

/-- SEASON_ADVANCE: 16 s of ageing enter the index: 16 s are 65,536 / 225 units (R460). -/
def State.seasonAdvanceCmd (s : State) (t8 : Int) : State :=
  let s := s.until (s.ssn.seasonBeat + 2 ^ 33)
  let d := ageing t8 s.ssn.mv * 65536 / 225
  s.mapSsn (fun x => { x with index := x.index + d, sinceReset := x.sinceReset + d, seasonBeat := s.time.beat })

/-! ## The record (R461, R462) -/

/-- Words 0 to 61 of the record (R461). -/
def State.recordWords (s : State) : List Word :=
  let x := s.ssn
  let n3 (n : Nat) : List Word := [wordOf n 0, wordOf n 1, wordOf n 2]
  n3 s.serial ++ n3 x.indexUnits ++ [wordOfInt x.adjBase 0, wordOfInt x.adjBase 1] ++
  (List.range 8).map (fun k => BitVec.ofInt 16 (nthD x.oscBase k 0)) ++
  (List.range 16).map (fun k => BitVec.ofNat 16 (nthD x.ronBase k 0)) ++
  [BitVec.ofNat 16 (x.kstage + 16 * x.rsteps), BitVec.ofNat 16 x.mv] ++ n3 (x.anchorIdx / 2 ^ 48) ++
  [BitVec.ofInt 16 x.anchorHead, BitVec.ofNat 16 x.norLast, BitVec.ofNat 16 x.seq] ++ List.replicate 22 0

/-- The whole record: words 62 and 63 hold the CRC of the others (R461). -/
def withCrc (w : List Word) : List Word :=
  let c := (crc32 (wordsBytes w)).toNat
  w ++ [wordOf c 0, wordOf c 1]

/-- Seasoning rewrites the record (R461). -/
def State.writeRecord (s : State) : State :=
  let s := s.mapSsn (fun x => { x with seq := (x.seq + 1) % 65536 })
  (s.setRegs (ssnOff 0x200) (withCrc s.recordWords)).ssnEvent 5

/-- The words of the record registers. -/
def State.srec (s : State) (k n : Nat) : List Word := (List.range n).map (fun i => s.reg (ssnOff 0x200 + 2 * (k + i)))

/-- Whether the record in the registers is good and this part's (R462). -/
def State.recordGood (s : State) : Bool := withCrc (s.srec 0 62) == s.srec 0 64 && ofWords (s.srec 0 3) == s.serial

/-- A write of SSN_SREC_CMD: 0x5E57 restores the record, or is refused (R462). -/
def State.srecCmd (s : State) (v : Word) : State :=
  if v ≠ 0x5E57 then s
  else
    let first := !s.ssn.restoreTried
    let s := s.mapSsn (fun x => { x with restoreTried := true })
    if first && s.recordGood then
      let w (k : Nat) : Nat := (s.reg (ssnOff 0x200 + 2 * k)).toNat
      s.mapSsn (fun x => { x with
        index := ofWords (s.srec 3 3) * 2 ^ 48 + x.sinceReset
        adjBase := asInt (ofWords (s.srec 6 2)) 32
        oscBase := (s.srec 8 8).map BitVec.toInt
        ronBase := (s.srec 16 16).map BitVec.toNat
        kstage := w 32 % 8, kGood := w 32 % 8, rsteps := w 32 / 16 % 16
        anchorIdx := ofWords (s.srec 34 3) * 2 ^ 48, anchorHead := asInt (w 37) 16
        restored := true, baseTaken := true })
    else s.ssnEvent 6

/-! ## Re-planning (R463, R464, R466) -/

def State.mTgt (s : State) : Int := s.rfld (ssnOff 0x20) 0 8
def State.mHyst (s : State) : Int := s.rfld (ssnOff 0x20) 8 8

/-- `a / b`, or what the spec leaves open for `b` = 0. -/
def quot (a b : Nat) : Nat := if b = 0 then Config.byZero a else a / b

/-- The mean ADJ of the period against the baseline (R458). -/
def State.drift (s : State) : Int :=
  if s.ssn.adjBeats = 0 then Config.noDrift s.free else s.ssn.adjSum / s.ssn.adjBeats - s.ssn.adjBase

/-- The slowdown of the slowest pad-ring oscillator in 2^-16 of its baseline (R463). -/
def Season.slowdown (x : Season) : Nat :=
  ((List.range 4).map (fun k =>
    let b := nthD x.oscBase (4 + k) 0
    ((b - nthD x.osc (4 + k) 0) * 65536 / b).toNat)).foldl max 0

/-- A register that the running image loaded (R463). -/
def State.imageReg (s : State) (off : Nat) : Word := Sparse.get 0 s.kdl.loaded off

/-- A shadow is written only where the value changes (R464). -/
def State.writeShadow (s : State) (kerf sh : Nat) (v : Nat) : State :=
  let w : Word := BitVec.ofNat 16 (v % 32768)
  if s.reg kerf &&& 0x7FFF = w then s else s.setReg sh (w ||| 0x8000)

/-- Offsets of the kerfs of a mode, each with its step register: the fabric, the CAN channels, the jigs (R463). -/
def kerfOffs (m : Nat) : List (Nat × Nat × Nat) :=
  [(0x40300 + 4 * m, 0x40302 + 4 * m, 0x2A)] ++
  (List.range 6).map (fun c => (canMode c m + 6, canMode c m + 8, 0x2C)) ++
  [(jkerfOff m, jkerfOff m + 2, 0x2E)]

/-- Step 2: the kerf stage and the shadow kerfs of every mode (R463). A CAN channel that is not enabled keeps its own. -/
def State.replanKerfs (s : State) : State :=
  let d := s.drift.natAbs / 2 ^ 24
  let stage := max s.ssn.kstage (min 7 (max (quot d (s.reg (ssnOff 0x26)).toNat)
    (quot s.ssn.slowdown (s.reg (ssnOff 0x28)).toNat)))
  let s := { s with free := s.free + 1 }.mapSsn (fun x => { x with kstage := stage })
  (List.range 8).foldl (fun s m => (kerfOffs m).foldl (fun s e =>
    if e.2.2 = 0x2C ∧ !s.rbit (canOff ((e.1 - 0x70000) / 0x800)) 0 then s
    else s.writeShadow e.1 e.2.1 (fld (s.imageReg e.1) 0 15 + stage * (s.reg (ssnOff e.2.2)).toNat)) s) s

/-- Step 3: a low margin advances the reserve steps, and the shadow reserve of every mode follows them (R463). -/
def State.replanReserve (s : State) : State :=
  let low := ((s.margins.drop 36).take 8).any (fun m => decide (m < s.mTgt + s.rfld (ssnOff 0x22) 0 8))
  let s := if low then s.mapSsn (fun x => { x with rsteps := min 15 (x.rsteps + 1) }) else s
  (List.range 8).foldl (fun s m =>
    let top := s.modeRsvMax m
    let v := min (fld (s.imageReg (modeOff m)) 4 8 + s.ssn.rsteps * s.rfld (ssnOff 0x30) 0 8) top
    let s := s.raiseIf (low && decide (top ≤ s.modeRsv m)) (ssnOff 4) 4
    if v = s.modeRsv m then s else s.setReg (modeOff m + 0x10) (BitVec.ofNat 16 v ||| 0x100)) s

/-- Whether any shadow waits for a switch. -/
def State.shadowsWait (s : State) : Bool :=
  (List.range 8).any (fun m => s.rbit (modeOff m + 0x10) 8 || (kerfOffs m).any (fun e => s.rbit e.2.1 15))

/-- The self-switch of the mode in force that carries the shadows (R464). -/
def State.selfSwitch (s : State) : State :=
  if s.shadowsWait then
    let s := s.mapSsn (fun x => { x with kPending := true })
    if s.tick.running && s.tick.req.isNone then s.localReq s.tick.mode 2 else s
  else s

/-- After a switch: a shadow kerf that its block refused sets KERF_LIMIT, and the stage falls back (R464). `refused` says
that a kerf in force does not equal its shadow. -/
def State.kerfCheck (s : State) (mode : Nat) : State :=
  if s.ssn.kPending then
    let refused := (kerfOffs mode).any (fun e =>
      !(e.2.2 == 0x2C && !s.rbit (canOff ((e.1 - 0x70000) / 0x800)) 0) &&
      s.reg (e.2.1) &&& 0x7FFF != 0 && s.reg e.1 &&& 0x7FFF != s.reg e.2.1 &&& 0x7FFF)
    if refused then (s.mapSsn (fun x => { x with kPending := false, kstage := x.kGood })).ssnEvent 3
    else s.mapSsn (fun x => { x with kPending := false, kGood := x.kstage })
  else s

/-- The eye of a lane: P0 to P9, then the Rierver lanes (R458). -/
def Season.eye (x : Season) (lane : Nat) : Nat := nthD x.eyes lane 0

/-- RX_CTLE of a lane moves by codes: an Ethernet lane under R160, a Rierver lane in the same manner (R463). -/
def State.moveCtle (s : State) (lane : Nat) (d : Int) : State :=
  match finOf 11 lane with
  | some p =>
    if lane < 10 then
      let v := clip 0 15 ((s.rfld (macOff lane + 6) 11 4 : Nat) + d)
      s.macSds p (setFld (s.reg (macOff lane + 6)) 11 4 v.toNat)
    else s.mapSsn (fun x => { x with
      ringCtle := x.ringCtle.set 0 (clip 0 15 ((nthD x.ringCtle 0 0 : Nat) + d)).toNat })
  | none => s.mapSsn (fun x => { x with
      ringCtle := x.ringCtle.set (lane - 10) (clip 0 15 ((nthD x.ringCtle (lane - 10) 0 : Nat) + d)).toNat })

/-- The headroom h (R466). -/
def State.headroom (s : State) : Int :=
  s.worstMargin - s.mTgt + s.ssn.gain * (880 - (s.ssn.mv : Int)) / 5

/-- The prediction of R466 in calendar hours, as a quotient: h / (−σ × α), with σ = dh / dIdx taps per seasoned hour and
α = dPer seasoned hours in 2^12 s; index units cancel. -/
def eosHours (h dh : Int) (dIdx dPer : Nat) : Nat × Nat := (h.toNat * dIdx * 4096, dh.natAbs * dPer * 3600)

/-- The prediction as SSN_EOS_HRS shows it, in units of 16 hours (R466). -/
def eosUnits (q : Nat × Nat) : Nat := if q.2 = 0 then Config.byZero q.1 else min 0xFFFF (q.1 / (16 * q.2))

/-- End of season after a re-plan (R466). -/
def State.endOfSeason (s : State) : State :=
  let h := s.headroom
  let x := s.ssn
  let s := s.mapSsn (fun x => { x with head := h, replanIdx := x.index })
  let s :=
    if x.anchorIdx + 1024 * 2 ^ 64 ≤ x.index then
      let dh := h - x.anchorHead
      let q := eosHours h dh (x.index - x.anchorIdx) (x.index - x.replanIdx)
      let s := s.mapSsn (fun x => { x with anchorIdx := x.index, anchorHead := h })
      if dh < 0 then s.mapSsn (fun y => { y with
        predValid := true, eosHrs := BitVec.ofNat 16 (eosUnits q)
        eos := y.eos || (q.2 != 0 && decide (q.1 ≤ 17532 * q.2)) })
      else s
    else s
  let s := if h < 0 ∧ s.ssn.mv = 880 then s.mapSsn (fun x => { x with eos := true }) else s
  s.raiseIf (s.ssn.eos && !x.eos) (ssnOff 4) 1

/-- The end of a re-plan (R461, R466). -/
def State.replanEnd (s : State) : State :=
  let s := (s.endOfSeason.writeRecord.ssnEvent 0).mapSsn (fun x => { x with plan := .idle, adjSum := 0, adjBeats := 0 })
  s

/-- Step 4 from a lane on: the next lane whose eye is below EYE_TGT moves one code up (R463). -/
def State.serdesFrom (s : State) (lane : Nat) : State :=
  match ((List.range 14).drop lane).find? (fun l => decide (s.ssn.eye l < s.rfld (ssnOff 0x32) 0 10)) with
  | some l => (s.moveCtle l 1).mapSsn (fun x => { x with plan := .serdes l (x.eye l) false })
  | none => s.replanEnd

/-- Steps 2 and 3, the self-switch, and step 4 (R463, R464). -/
def State.replanRest (s : State) : State := (s.replanKerfs.replanReserve.selfSwitch).serdesFrom 0

/-- A request of the AVSBus for a voltage (R465). -/
def State.requestMv (s : State) (mv : Nat) (lowered : Bool) : State :=
  s.mapSsn (fun x => { x with mv := mv, mBefore := s.worstMargin, avsTries := 0, plan := .voltage lowered })

/-- Step 1: one step up, one step down, or on to step 2 (R463); skipped with AVS_FAULT or the bus off (R465). -/
def State.voltageStep (s : State) (mayLower : Bool) : State :=
  let m := s.worstMargin
  if s.ssn.avsFault || !s.rbit (ssnOff 0x10) 0 then s.replanRest
  else if m < s.mTgt ∧ s.ssn.mv < 880 then s.requestMv (s.ssn.mv + 5) false
  else if mayLower ∧ s.mTgt + s.mHyst ≤ m ∧ 800 < s.ssn.mv then s.requestMv (s.ssn.mv - 5) true
  else s.replanRest

/-- The NOR count, read by one command of the flash where it is free (R459). -/
def State.norCount (s : State) (nor : Option Nat) : State :=
  match nor with
  | some n =>
    if s.kdl.xBusy then s
    else (s.raiseIf (decide (s.ssn.norLast + (s.reg (ssnOff 0x38)).toNat < n)) (ssnOff 4) 8).mapSsn
      (fun x => { x with norLast := n })
  | none => s

/-- A re-plan begins (R462, R463). `start` marks the start re-plan, which takes baselines where no record was accepted. -/
def State.beginReplan (s : State) (start : Bool) (nor : Option Nat) : State :=
  let s := if start then s.mapSsn (fun x => { x with startDone := true }) else s
  let s := if start && !s.ssn.restored then
      (s.mapSsn (fun x => { x with
        oscBase := x.osc, ronBase := x.ron, baseTaken := true
        adjBase := if x.adjBeats = 0 then x.adjBase else x.adjSum / x.adjBeats })).ssnEvent 7
    else s
  (s.norCount nor).voltageStep true

/-- SSN_SEAS_CTRL.EN. -/
def State.ssnEn (s : State) : Bool := s.rbit (ssnOff 0) 0

/-- Whether the present beat is a tick start whose time of day is a multiple of 2^12 s (R463). -/
def State.onReplanTick (s : State) : Bool :=
  s.tick.running && s.time.beat == s.tick.tBeat &&
  decide (ceilDiv s.time.todx (2 ^ 89) * 2 ^ 89 < s.time.todx + s.time.rate)

/-- REPLAN_START: the start re-plan, 2^-2 s after RUNNING first set, or a scheduled one (R463). -/
def State.replanStartCmd (s : State) (nor : Option Nat) : State :=
  if !s.ssnEn || s.ssn.plan != .idle then s
  else match s.ssn.startBeat, s.ssn.startDone with
    | some b, false => (s.until (b + 2 ^ 27)).beginReplan true nor
    | _, _ => if s.onReplanTick then s.beginReplan false nor else s

/-- A write of REPLAN: ignored while a re-plan runs (R463, R474). -/
def State.replanWrite (s : State) (nor : Option Nat) : State :=
  if s.ssnEn && s.ssn.plan == .idle then s.beginReplan false nor else s

/-- AVS_STEP_SETTLED: a step has settled and been measured, or its transaction failed (R463, R465). -/
def State.avsSettledCmd (s : State) (ack : Bool) (r : SensorReadings) : State :=
  match s.ssn.plan with
  | .voltage lowered =>
    if !ack then
      if s.ssn.avsTries < 2 then s.mapSsn (fun x => { x with avsTries := x.avsTries + 1 })
      else ((s.mapSsn (fun x => { x with
        avsFault := true, avsTries := 0, mv := if lowered then x.mv + 5 else x.mv - 5 })).ssnEvent 2).replanRest
    else
      let s := s.takeReadings r
      let m := s.worstMargin
      if lowered then
        (if m < s.mTgt then s.mapSsn (fun x => { x with mv := x.mv + 5 }) else s).replanRest
      else (s.mapSsn (fun x => { x with gain := m - x.mBefore })).voltageStep false
  | _ => s

/-- EYE_REMEASURE: the code stays if the eye is higher, else it goes back and one down, where it stays if that is better
(R463). -/
def State.eyeCmd (s : State) (eye : Nat) : State :=
  match s.ssn.plan with
  | .serdes lane before back =>
    let s := s.mapSsn (fun x => { x with eyes := x.eyes.set lane eye })
    let s := match finOf 11 lane with
      | some p => if lane < 10 then s.mapMacPort p (fun y => { y with eye := eye }) else s
      | none => s
    if before < eye then s.serdesFrom (lane + 1)
    else if back then (s.moveCtle lane 1).serdesFrom (lane + 1)
    else (s.moveCtle lane (-2)).mapSsn (fun x => { x with plan := .serdes lane before true })
  | _ => s

/-- Seasoning when ticks start running (R463). -/
def State.ssnRunning (s : State) : State :=
  s.mapSsn (fun x => { x with startBeat := some (x.startBeat.getD s.time.beat) })

/-! ## The AVS line (R465) -/

/-- A write of SSN_AVS_CTRL: EN = 1 starts the bus with SSN_AVS_INIT, which is read back (R465). -/
def State.avsCtrl (s : State) (v : Word) (ack : Bool) : State :=
  let s := s.setReg (ssnOff 0x10) (v &&& 1)
  if bit v 0 then
    let mv := (clip 800 880 (s.reg (ssnOff 0x14)).toNat).toNat
    let s := s.mapSsn (fun x => { x with avsFault := !ack, avsTries := 0, mv := if ack then mv else x.mv })
    s.raiseIf (!ack) (ssnOff 4) 2
  else s

/-! ## The release of a clamp (R472, R473) -/

/-- A clamped hearth enters STOPPED (R312, R472). -/
def State.releaseHearth (s : State) (h : HearthId) : State :=
  let s := (s.setReg (hrtOff h.val) (setBit (s.reg (hrtOff h.val)) 0 false)).enterStopped h
  s.mapSsn (fun x => { x with clampHrt := x.clampHrt &&& ~~~(BitVec.ofNat 12 (2 ^ h.val)) })

/-- A fence ends with a host reset (R417, R472). -/
def State.releaseHost (s : State) (n : Fin 4) : State :=
  let s := (s.mapHost n (fun x => { x with fenced := false })).hostReset n
  s.mapSsn (fun x => { x with clampHost := x.clampHost &&& ~~~(BitVec.ofNat 4 (2 ^ n.val)) })

/-- A clamped jig stays stopped with EN = 0 (R260, R472). -/
def State.releaseJig (s : State) (j : JigId) : State :=
  s.mapJig j (fun x => { x with clamped := false, en := false, halted := false })

/-- Release one target: none where it holds no clamp (R472). -/
def State.releaseTarget (s : State) (t : Nat) : Option State :=
  match finOf 12 t, finOf 4 (t - 16), finOf 32 (t - 32) with
  | some h, _, _ => if s.hearth[h].st = .clamped then some (s.releaseHearth h) else none
  | none, some n, _ => if 16 ≤ t ∧ s.host[n].fenced then some (s.releaseHost n) else none
  | none, none, some j => if 32 ≤ t ∧ s.jig[j].clamped then some (s.releaseJig j) else none
  | none, none, none => none

/-- Release every clamped master, or the one that SSN_UNCLAMP_SEL names (R472). -/
def State.release (s : State) : State :=
  let sel := s.rfld (ssnOff 0x310) 0 7
  if sel = 127 then
    let r := (List.range 64).foldl (fun (p : State × Bool) t => match p.1.releaseTarget t with
      | some s => (s, true)
      | none => p) (s, false)
    if r.2 then r.1 else s.ssnEvent 12
  else (s.releaseTarget sel).getD (s.ssnEvent 12)

/-- A write of SSN_UNCLAMP (R472). -/
def State.unclampWrite (s : State) (v : Word) : State :=
  if s.ssn.unclampArmed then
    let s := s.mapSsn (fun x => { x with unclampArmed := false })
    if v = 0xC1A5 then s.release else s.ssnEvent 12
  else if v = 0x5EA1 then s.mapSsn (fun x => { x with unclampArmed := true })
  else s.ssnEvent 12

/-! ## The clamp log (R471) -/

/-- The head entry as a read sees it: the log as it stood at the start of the beat (R471). -/
def State.clogHead (s : State) : Option ClampRec :=
  match s.ssn.clog with
  | e :: _ => if e.beat = s.time.beat then none else some e
  | [] => none

/-- The words of an entry. -/
def clogWords (e : Option ClampRec) : List Word :=
  match e with
  | some e => [BitVec.ofNat 16 (e.target + 128 * e.cause), wordOf e.addr.toNat 0, wordOf e.addr.toNat 1, e.tick]
  | none => [0, 0, 0, 0]

/-- A read of SSN_CLOG0: the head entry is returned, latched and popped (R471, R473). -/
def State.clogRead (s : State) (m : Master) : State × Word :=
  let w := clogWords s.clogHead
  let s := s.latchWords m (ssnOff 0x308) (w.drop 1)
  let v := nthD w 0 0
  match s.clogHead with
  | none => (s, v)
  | some _ =>
    let s := s.mapSsn (fun x => { x with clog := x.clog.drop 1 })
    match s.ssn.clogSpill with
    | some (e, was) =>
      if e.beat = s.time.beat then
        let s := s.mapSsn (fun x => { x with clog := clogInsert e x.clog, clogSpill := none })
        (s.withdraw (ssnOff 4) 11 was, v)
      else (s, v)
    | none => (s, v)

/-! ## Registers (R474, R490) -/

def ssnSpecs : List RegSpec :=
  [{ base := 0xF0004, rw := 0, w1c := 0x1FFF }, { base := 0xF0006, rw := 0x1FFF }, { base := 0xF0014, n := 2 },
   { base := 0xF0020 }, { base := 0xF0022, rw := 0xFF }, { base := 0xF0024, n := 6 }, { base := 0xF0030, rw := 0xFF },
   { base := 0xF0032, rw := 0x3FF }, { base := 0xF0034 }, { base := 0xF0036, rw := 0xFF }, { base := 0xF0038 },
   { base := 0xF003A, rw := 0xFF }, { base := 0xF0200, n := 64 }, { base := 0xF0310, rw := 0x7F }]

/-- A write to a register of the SSN_ block at 0x30F_0000. -/
def State.ssnWrite (s : State) (m : Master) (off : Nat) (v : Word) : State :=
  if off = ssnOff 0 then
    let s := s.setReg off (v &&& 1)
    if bit v 1 then { s with free := s.free + 1 }.replanWrite (Config.norReply s.free) else s
  else if off = ssnOff 0x10 then { s with free := s.free + 1 }.avsCtrl v (Config.avsAck s.free)
  else if off = ssnOff 0x14 then if 800 ≤ v.toNat ∧ v.toNat ≤ 880 then s.setReg off v else s
  else if off = ssnOff 0x280 then s.srecCmd v
  else if off = ssnOff 0x312 then s.unclampWrite v
  else s.tableWrite ssnSpecs m off v

/-- STEP of SSN_SEAS_STAT: steps 2 and 3 take no time of their own. -/
def Replan.step : Replan → Nat
  | .idle => 0
  | .voltage _ => 1
  | .serdes _ _ _ => 4

/-- The registers of the SSN_ block as they read at present. -/
def State.ssnLive (s : State) (off : Nat) : Word :=
  let x := s.ssn
  let o := off - 0xF0000
  if o = 2 then
    BitVec.ofNat 16 (x.plan.step + 8 * x.kstage + 64 * x.rsteps) ||| flag x.restored 10 ||| flag x.predValid 11 |||
    flag x.eos 12
  else if o = 0x12 then BitVec.ofNat 16 x.mv
  else if o = 0x18 then BitVec.ofInt 16 x.gain
  else if 0x60 ≤ o ∧ o < 0x6C then BitVec.ofInt 16 (nthD x.temp ((o - 0x60) / 2) 0)
  else if 0x70 ≤ o ∧ o < 0x76 then wordOf x.indexUnits ((o - 0x70) / 2)
  else if o = 0x76 then BitVec.ofInt 16 x.head
  else if o = 0x78 then x.eosHrs
  else if 0x100 ≤ o ∧ o < 0x158 then BitVec.ofInt 16 (nthD s.margins ((o - 0x100) / 2) 0)
  else if 0x180 ≤ o ∧ o < 0x1A0 then BitVec.ofNat 16 (nthD x.ron ((o - 0x180) / 2) 0)
  else if 0x1A0 ≤ o ∧ o < 0x1A8 then BitVec.ofNat 16 (x.eye (10 + (o - 0x1A0) / 2))
  else if o = 0x280 ∨ o = 0x312 then 0
  else if o = 0x300 then x.clampHrt.zeroExtend 16
  else if o = 0x302 then x.clampHost.zeroExtend 16
  else if o = 0x304 then BitVec.ofNat 16 x.clog.length
  else if 0x306 ≤ o ∧ o < 0x30E then nthD (clogWords s.clogHead) ((o - 0x306) / 2) 0
  else s.reg off

/-- A read of a register of the SSN_ block (R461, R471, R474). -/
def State.ssnRead (s : State) (m : Master) (off : Nat) : State × Word :=
  let o := off - 0xF0000
  if o = 0x306 then s.clogRead m
  else if 0x306 < o ∧ o < 0x30E then (s, s.latched m off (s.ssnLive off))
  else if 0x70 ≤ o ∧ o < 0x76 then s.groupRead m (ssnOff 0x70) ((o - 0x70) / 2) 3 s.ssn.indexUnits
  else if o = 0x200 then (s.latchWords m (ssnOff 0x202) (s.srec 1 63), s.reg off)
  else if 0x200 < o ∧ o < 0x280 then (s, s.latched m off (s.reg off))
  else (s, s.ssnLive off)

/-- The master ID of the supervising master, 0x1F for none (R467, R490). -/
def State.supMaster (s : State) : Nat := if s.inRun then s.kdl.supHost else 15

def idSpecs : List RegSpec := [{ base := 0x20, rw := 0xFFF }, { base := 0x40, n := 24 }]

/-- A write and a read of the identity block (R490). -/
def State.idWrite (s : State) (m : Master) (off : Nat) (v : Word) : State := s.tableWrite idSpecs m off v
def State.idRead (s : State) (_m : Master) (off : Nat) : State × Word :=
  (s, if 4 ≤ off ∧ off < 0xA then wordOf s.serial ((off - 4) / 2)
      else if off = 0x10 then BitVec.ofNat 16 s.supMaster
      else s.reg off)

/-! ## Commands -/

def execSensorUpdate (r : SensorReadings) (s : State) : Host.Outcome State Fault Refusal :=
  .next (s.alive fun s => s.takeReadings r)

def execSeasonAdvance (t8 : Int) (s : State) : Host.Outcome State Fault Refusal :=
  .next (s.alive fun s => s.seasonAdvanceCmd t8)

def execReplanStart (nor : Option Nat) (s : State) : Host.Outcome State Fault Refusal :=
  .next (s.alive fun s => s.replanStartCmd nor)

def execReplan (m : Master) (nor : Option Nat) (s : State) : Host.Outcome State Fault Refusal :=
  .next (s.alive fun s => s.writeCmd m (ssnOff 0) (fun s => s.replanWrite nor))

def execAvsStepSettled (ack : Bool) (r : SensorReadings) (s : State) : Host.Outcome State Fault Refusal :=
  .next (s.alive fun s => s.avsSettledCmd ack r)

def execEyeRemeasure (eye : Nat) (s : State) : Host.Outcome State Fault Refusal := .next (s.alive fun s => s.eyeCmd eye)

def execSrecRestore (m : Master) (v : Word) (s : State) : Host.Outcome State Fault Refusal :=
  .next (s.alive fun s => s.writeCmd m (ssnOff 0x280) (fun s => s.srecCmd v))

def execAvsEnable (m : Master) (en ack : Bool) (s : State) : Host.Outcome State Fault Refusal :=
  .next (s.alive fun s => s.writeCmd m (ssnOff 0x10) (fun s => s.avsCtrl (flag en 0) ack))

def execUnclamp (m : Master) (v : Word) (s : State) : Host.Outcome State Fault Refusal :=
  .next (s.alive fun s => s.writeCmd m (ssnOff 0x312) (fun s => s.unclampWrite v))

def execClogRead (m : Master) (s : State) : Host.Outcome State Fault Refusal :=
  .next (s.alive fun s => s.readCmd m (ssnOff 0x306) (fun s => s.clogRead m))

end Sys2Proof.Machine
end

