-- ==== Sys2Proof/Machine/Kdl.lean ====
section
/-! DEFINITION. The kindling controller's registers, fuses, flash commands and feed window, and the failure of an attempt
(R437 to R440, R444, R451 to R457). The loading of an image is in Machine/Loader.lean. -/

namespace Sys2Proof.Machine

open Sys2Proof

def kdlOff (o : Nat) : Nat := 0xE0000 + o
def State.mapKdl (s : State) (f : Kindling → Kindling) : State := { s with kdl := f s.kdl }
def State.kdlEvent (s : State) (i : Nat) : State := s.raise (kdlOff 0x10) i

/-- BOOT and HOSTEN[0] (R435). -/
def Kindling.boot (k : Kindling) : Nat := k.straps.toNat % 4
def Kindling.hosten0 (k : Kindling) : Bool := k.straps.getLsbD 2

/-! ## A failed attempt (R439, R440) -/

/-- Every block but the kindling controller returns to its reset state, and bank memory and signal states are zeroed;
the beat counter goes on, and what stands outside the device stays (R34, R439). -/
def State.blocksReset (s : State) : State :=
  let r := State.reset
  let b := s.time.beat
  { r with
    pending := s.pending
    time := { r.time with beat := b, sdsBeat := b, canSpanBeat := b }
    host := s.host.map (fun x => { HostPort.reset with link := x.link, perst := x.perst })
    ssn := { r.ssn with seasonBeat := b }
    regs := s.regs.filter (fun e => e.1 / 65536 == 0xE)
    kdl := s.kdl, gp := s.gp, resp := s.resp, free := s.free }

/-- The controller waits in FEED for a new stream (R454, R455). -/
def State.enterFeed (s : State) : State :=
  s.mapKdl (fun k => { k with
    st := .feed, attempt := some .h, stream := [], sect := 0, tableOk := false, verified := false, starts := 0, ready := true,
    readyBeat := s.time.beat, begun := false, window := [], chunk := none })

/-- An attempt on a flash image begins (R440, R442). -/
def State.beginAttempt (s : State) (a : KSlot) : State :=
  s.mapKdl (fun k => { k with
    st := .load, attempt := some a, stream := [], sect := 0, tableOk := false, verified := false, starts := 0 })

/-- Where the controller goes on after a failed attempt (R440). -/
def State.afterFail (s : State) : State :=
  match s.kdl.attempt with
  | some .a => s.beginAttempt .b
  | some .b => if s.kdl.hosten0 then s.enterFeed else s.mapKdl (fun k => { k with st := .failed, attempt := none })
  | _ => s.enterFeed

/-- An attempt fails with a code: it is recorded, the blocks return to reset, the controller goes on (R439, R440). -/
def State.kdlFail (s : State) (code sect : Nat) : State :=
  let c : Byte := BitVec.ofNat 8 code
  let s := s.mapKdl (fun k => match k.attempt with
    | some .a => { k with failA := c, failSect := sect }
    | some .b => { k with failB := c, failSect := sect }
    | _ => { k with failH := c, failSect := sect })
  let s := s.kdlEvent (match s.kdl.attempt with
    | some .a => 0
    | some .b => 1
    | _ => 2)
  s.blocksReset.afterFail

/-- Whether a fed stream is in progress, up to the end of its START section (R455). -/
def State.feedRuns (s : State) : Bool :=
  s.kdl.attempt == some .h && (s.kdl.begun || s.kdl.st == .verify || s.kdl.st == .start)

/-- A host reset of a port: that of H0 aborts the fed attempt in progress (R417, R455). -/
def State.hostResetK (s : State) (n : Fin 4) : State :=
  let s := s.hostReset n
  if n = 0 ∧ s.feedRuns then s.kdlFail 0x0B 0 else s

/-! ## The feed (R455) -/

/-- A write of KDL_FEED_RESTART (R455). -/
def State.feedRestart (s : State) : State :=
  if s.feedRuns then s.kdlFail 0x0B 0 else if s.kdl.st == .feed then s.enterFeed else s

/-- A write of KDL_FEED_LEN hands the chunk over (R455). -/
def State.feedLen (s : State) (v : Word) : State :=
  if s.kdl.st == .feed && s.kdl.ready && v.toNat % 2 == 0 && 2 ≤ v.toNat && v.toNat ≤ 32768 then
    s.mapKdl (fun k => { k with chunk := some v.toNat, ready := false, begun := true })
  else s

/-- A write to the feed window: discarded with FEED_OVR while READY = 0, and in the beat in which READY sets (R455,
R456). -/
def State.feedWindow (s : State) (off : Nat) (v : Word) : State :=
  if s.kdl.st == .feed && s.kdl.ready && s.kdl.readyBeat != s.time.beat then
    s.mapKdl (fun k => { k with window := Sparse.setAll 0 k.window (off / 2 * 2) (toBytes v.toNat 2) })
  else s.kdlEvent 3

/-! ## Fuses (R451 to R453) -/

/-- A write of KDL_ADV with or without the key before it (R452). -/
def State.kdlAdv (s : State) (v : Word) (armed : Bool) : State :=
  if armed && decide (v.toNat ≤ s.kdl.version.toNat) && decide (s.kdl.fuses.count < v.toNat) then
    s.mapKdl (fun k => { k with advTarget := some v.toNat, advBeat := s.time.beat, advActed := some s.time.beat })
  else s.kdlEvent 5

/-- A write of KDL_ADV_KEY: it arms nothing in the beat in which KDL_ADV acted (R452, R456). -/
def State.advKey (s : State) (v : Word) : State :=
  s.mapKdl (fun k => { k with advArmed := v == 0x4B44 && k.advActed != some s.time.beat })

/-- VERSION_FUSE_BLOWN: one fuse every 65,536 beats until the count equals the target (R452). -/
def State.fuseBlownCmd (s : State) : State :=
  match s.kdl.advTarget with
  | some t =>
    let s := s.until (s.kdl.advBeat + 65536)
    s.mapKdl (fun k =>
      let n := k.fuses.count + 1
      { k with fuses := { k.fuses with count := n }, advBeat := s.time.beat, advTarget := if t ≤ n then none else some t })
  | none => s

/-- The hash in KDL_FPROG_D0 to D15 (R453). -/
def State.fprogHash (s : State) : List Byte := wordsBytes ((List.range 16).map (fun i => s.reg (kdlOff 0x40 + 2 * i)))

/-- The burn that KDL_FPROG_SEL asks for, none where it is refused (R453). -/
def State.burnOf (s : State) : Option Burn :=
  let f := s.kdl.fuses
  let k : Fin 4 := (BitVec.ofNat 2 (s.rfld (kdlOff 0x28) 0 2)).toFin
  if s.kdl.burn.isSome then none
  else if s.rbit (kdlOff 0x28) 3 then
    if (finList 4).any (fun k => f.slots[k].isSome && !f.revoked[k]) then some .secure else none
  else if s.rbit (kdlOff 0x28) 2 then
    if s.kdl.slot.isSome && s.kdl.keySlot == k.val then none else some (.revoke k)
  else if f.slots[k].isSome then none else some (.slot k s.fprogHash)

/-- A write of KDL_FPROG_CMD (R453, R457). -/
def State.fprogCmd (s : State) (v : Word) : State :=
  if v ≠ 0x0F5E then s
  else match s.burnOf with
    | some b => s.mapKdl (fun k => { k with burn := some b })
    | none => s.kdlEvent 6

/-- A burn that completes (R453). -/
def Fuses.burn (f : Fuses) : Burn → Fuses
  | .slot k h => { f with slots := upd f.slots k (fun _ => some h) }
  | .revoke k => { f with revoked := upd f.revoked k (fun _ => true) }
  | .secure => { f with secure := true }

/-- A burn that a PORST# interrupts may leave its bits in either state (R453): the hash takes some of its bits. -/
def Fuses.cutBurn (f : Fuses) (n : Nat) : Burn → Fuses
  | .slot k h => { f with slots := upd f.slots k (fun _ =>
      some ((numbered h).map (fun e => BitVec.ofNat 8 (ofBits e.2 (256 * n + 8 * e.1))))) }
  | .revoke k => { f with revoked := upd f.revoked k (fun x => x || Config.burnt (256 * n)) }
  | .secure => { f with secure := f.secure || Config.burnt (256 * n) }
where
  /-- The bits of a byte that are blown. -/
  ofBits (b : Byte) (k : Nat) : Nat :=
    ((List.range 8).map (fun i => if b.getLsbD i && Config.burnt (k + i) then 2 ^ i else 0)).foldl (· + ·) 0

/-- FPROG_DONE (R453). -/
def State.fprogDoneCmd (s : State) : State :=
  match s.kdl.burn with
  | some b => s.mapKdl (fun k => { k with fuses := k.fuses.burn b, burn := none })
  | none => s

/-! ## Flash commands after RUN (R444) -/

/-- A write of KDL_XCTL (R444, R457). -/
def State.xctl (s : State) (v : Word) : State :=
  if bit v 14 then
    if !s.inRun then s
    else if s.kdl.xBusy then s.kdlEvent 4
    else (s.setReg (kdlOff 0x106) (v &&& 0x3FFF)).mapKdl (fun k => { k with xBusy := true })
  else s.setReg (kdlOff 0x106) (v &&& 0x3FFF)

/-- XSPI_COMMAND_DONE: a read leaves its bytes in KDL_XDATA (R444). -/
def State.xdoneCmd (s : State) (bytes : List Byte) : State :=
  if s.kdl.xBusy then
    let n := min 64 (s.rfld (kdlOff 0x106) 0 7)
    let s := s.mapKdl (fun k => { k with xBusy := false })
    if s.rbit (kdlOff 0x106) 13 then s
    else (List.range n).foldl (fun s i =>
      let o := kdlOff 0x110 + i / 2 * 2
      s.setReg o (setFld (s.reg o) (8 * (i % 2)) 8 (nthD bytes i 0).toNat)) s
  else s

/-! ## Registers (R457) -/

def kdlSpecs : List RegSpec :=
  [{ base := 0xE0010, rw := 0, w1c := 0x7F }, { base := 0xE0012, rw := 0x7F }, { base := 0xE0014, rw := 0, pair := true },
   { base := 0xE0028, rw := 0xF }, { base := 0xE0040, n := 16 }, { base := 0xE0100 }, { base := 0xE0102, pair := true },
   { base := 0xE0110, n := 32 }]

/-- A write to a register of the KDL_ block: KDL_ADV acts only as the next write after its key (R452). -/
def State.kdlWrite (s : State) (m : Master) (off : Nat) (v : Word) : State :=
  let armed := s.kdl.advArmed
  let s := s.mapKdl (fun k => { k with advArmed := false })
  if off = kdlOff 0x24 then s.advKey v
  else if off = kdlOff 0x26 then s.kdlAdv v armed
  else if off = kdlOff 0x2A then s.fprogCmd v
  else if off = kdlOff 0x106 then s.xctl v
  else if off = kdlOff 0x200 then s.feedLen v
  else if off = kdlOff 0x204 then s.feedRestart
  else if kdlOff 0x8000 ≤ off then s.feedWindow (off - kdlOff 0x8000) v
  else s.tableWrite kdlSpecs m off v

/-- STATE and SLOT as KDL_STATUS shows them (R437, R457). -/
def KState.code : KState → Nat
  | .sense => 0
  | .load => 1
  | .verify => 2
  | .start => 3
  | .run => 4
  | .feed => 5
  | .failed => 6
  | .halt => 7

def slotCode : Option KSlot → Nat
  | some .a => 0
  | some .b => 1
  | some .h => 2
  | none => 3

/-- KDL_FUSE_STAT once the fuses are sensed (R457). -/
def Kindling.fuseStat (k : Kindling) : Word :=
  let f := k.fuses
  flag f.secure 0 ||| (finList 4).foldl (fun w i => w ||| flag f.revoked[i] (1 + i.val) ||| flag f.slots[i].isNone (5 + i.val)) 0
    ||| flag k.burn.isSome 9

/-- The registers of the KDL_ block as they read at present. -/
def State.kdlLive (s : State) (off : Nat) : Word :=
  let k := s.kdl
  let o := off - 0xE0000
  if o = 0 then BitVec.ofNat 16 (k.st.code + 8 * slotCode k.slot) ||| flag (k.sensed && !k.fuses.secure) 5
  else if o = 2 then k.straps.zeroExtend 16
  else if o = 4 then k.failA.zeroExtend 16
  else if o = 6 then k.failB.zeroExtend 16
  else if o = 8 then k.failH.zeroExtend 16
  else if o = 0xA then k.version
  else if o = 0x14 ∨ o = 0x16 then wordOf k.bootBeat ((o - 0x14) / 2)
  else if o = 0x18 then BitVec.ofNat 16 (k.failSect % 4096)
  else if o = 0x20 then if k.sensed then k.fuseStat else 0
  else if o = 0x22 then if k.sensed then BitVec.ofNat 16 k.fuses.count else 0
  else if 0x30 ≤ o ∧ o < 0x38 then nthD k.build.toList ((o - 0x30) / 2) 0
  else if o = 0x106 then s.reg off ||| flag k.xBusy 15
  else if o = 0x202 then flag k.ready 0
  else if 0x8000 ≤ o then 0
  else s.reg off

/-- A read of a register of the KDL_ block. -/
def State.kdlRead (s : State) (m : Master) (off : Nat) : State × Word := s.tableRead kdlSpecs State.kdlLive m off

/-! ## Commands -/

def execFeedChunk (m : Master) (v : Word) (s : State) : Host.Outcome State Fault Refusal :=
  .next (s.alive fun s => s.writeCmd m (kdlOff 0x200) (fun s => s.kdlWrite m (kdlOff 0x200) v))

def execFeedWindowWrite (m : Master) (sel : ByteSel) (off : BitVec 15) (v : Word) (s : State) :
    Host.Outcome State Fault Refusal :=
  let o := kdlOff 0x8000 + off.toNat / 2 * 2
  .next (s.alive fun s => if sel = .word then s.writeCmd m o (fun s => s.kdlWrite m o v) else s.byteWriteCmd m)

def execFeedRestart (m : Master) (v : Word) (s : State) : Host.Outcome State Fault Refusal :=
  .next (s.alive fun s => s.writeCmd m (kdlOff 0x204) (fun s => s.kdlWrite m (kdlOff 0x204) v))

def execXspiCommand (m : Master) (v : Word) (s : State) : Host.Outcome State Fault Refusal :=
  .next (s.alive fun s => s.writeCmd m (kdlOff 0x106) (fun s => s.kdlWrite m (kdlOff 0x106) v))

def execXspiCommandDone (bytes : List Byte) (s : State) : Host.Outcome State Fault Refusal :=
  .next (s.alive fun s => s.xdoneCmd bytes)

def execKdlAdvKey (m : Master) (v : Word) (s : State) : Host.Outcome State Fault Refusal :=
  .next (s.alive fun s => s.writeCmd m (kdlOff 0x24) (fun s => s.kdlWrite m (kdlOff 0x24) v))

def execKdlAdv (m : Master) (v : Word) (s : State) : Host.Outcome State Fault Refusal :=
  .next (s.alive fun s => s.writeCmd m (kdlOff 0x26) (fun s => s.kdlWrite m (kdlOff 0x26) v))

def execVersionFuseBlown (s : State) : Host.Outcome State Fault Refusal := .next (s.alive fun s => s.fuseBlownCmd)

def execFprogBurn (m : Master) (v : Word) (s : State) : Host.Outcome State Fault Refusal :=
  .next (s.alive fun s => s.writeCmd m (kdlOff 0x2A) (fun s => s.kdlWrite m (kdlOff 0x2A) v))

def execFprogDone (s : State) : Host.Outcome State Fault Refusal := .next (s.alive fun s => s.fprogDoneCmd)

end Sys2Proof.Machine
end

