-- ==== Sys2Proof/Machine/Schedule.lean ====
section
/-! DEFINITION. The tick controller at work (03_tick_and_strike.md): tick starts, strikes, the phases of a tick, switch
requests, and the TCK_ registers. -/

namespace Sys2Proof.Machine

open Sys2Proof

/-! ## Tick starts (R38, R59, R85, R88, R90) -/

/-- The tick period of a mode in 2^-45 sliver (R59). -/
def State.periodX (s : State) (m : Nat) : Nat := 2 ^ (32 - s.modeN m) * sliverX

/-- The last boundary of a mode's period that falls before the end of the present beat, as a multiple of the period (R38). -/
def State.boundaryNow (s : State) (m : Nat) : Nat := (s.time.todx + s.time.rate - 1) / s.periodX m

/-- The tick number of a boundary: time of day has 80 bits (R59). -/
def State.tickOf (s : State) (m k : Nat) : Nat := k % 2 ^ (48 + s.modeN m)

/-- The mode of the tick that starts at boundary `k` of the mode in force: a committed request takes effect, at a
boundary of the longer period where the new period is longer (R85). -/
def State.switchAt (s : State) (k : Nat) : Option (Fin 8) :=
  match s.tick.req with
  | some r =>
    let m := s.tick.mode.val
    let due := match r.commit with
      | some c => decide (c ≤ s.tickOf m k)
      | none => false
    let fits := s.modeN m ≤ s.modeN r.mode.val || k % 2 ^ (s.modeN m - s.modeN r.mode.val) == 0
    if due && fits then some r.mode else none
  | none => none

/-- The shadow reserve of an entered mode: applied if it is valid and keeps R79; its valid bit clears (R84). -/
def State.rsvShadow (s : State) (m : Nat) : State :=
  let v := s.reg (modeOff m + 0x10)
  if bit v 8 then
    let s := s.setReg (modeOff m + 0x10) (v &&& 0xFEFF)
    if rsvOk (fld v 0 8) (s.modeRsvMax m) then s.setReg (modeOff m) (setFld (s.reg (modeOff m)) 4 8 (fld v 0 8))
    else s.badMode
  else s

/-- A switch into a mode at T+0: the shadows of every block, and the free hearths that wait (R84, R85, R291). -/
def State.enterMode (s : State) (m : Fin 8) : State :=
  let s := s.mapTick (fun t => { t with mode := m, req := none })
  let s := (s.rsvShadow m.val).swfShadow m.val
  let s := (finList 6).foldl (fun s c => s.canShadow m.val c) s
  let s := (s.jigShadow m.val).raise 0x20004 4
  let s := (finList 12).foldl State.startFree s
  s.kerfCheck m.val

/-- T+0 in every block. `changed` tells that the mode has changed. -/
def State.tickHooks (s : State) (oldMode oldPk : Nat) (ran changed : Bool) : State :=
  let s := (s.raise 0x20004 0).tsoStrobes 4
  let s := s.jnrTick.gateRestart oldMode oldPk ran
  let s := (finList 2).foldl (fun s c => s.ringTick c changed) s
  let s := (finList 6).foldl State.canTick s
  s.jigTick.motTick

/-- The tick that starts in the present beat, at boundary `k` of the mode in force: TCK_PK and TCK_STRIKE are published
(R38, R61). -/
def State.beginTick (s : State) (k : Nat) (ran : Bool) : State :=
  let old := s.tick.mode
  let x := k * s.periodX old.val
  let s := s.mapTick (fun t => { t with tick := s.tickOf old.val k })
  let switch := if ran then s.switchAt k else none
  let oldPk := s.tick.pk
  let s := s.adjPoint
  let s := s.mapTick (fun t => { t with
    running := true, starting := none, first := !ran, tBeat := s.time.beat, struck := false, sealClosed := false,
    images := Sparse.mapAll ImageSt.reset (fun i => { i with sealedPrev := i.sealed, sealed := false }) t.images
    tasks := t.tasks.map (fun o => o.map (fun k => { k with thisTick := false })) })
  let s := s.mapJnr (fun j => { j with inDone := false, outStarted := false })
  let s := match switch with
    | some m => s.enterMode m
    | none => s
  let m := s.tick.mode.val
  let s := s.mapTick (fun t => { t with
    tick := s.tickOf m (x / s.periodX m)
    pk := s.time.beatsTo (x + s.periodX m)
    lPrime := s.time.beatsTo (x + 8 * s.modeL m * sliverX) })
  s.tickHooks old.val oldPk ran (old != s.tick.mode)

/-- Ticks stop: the tick start does not occur, and a pending request is released (R90). -/
def State.stopTicks (s : State) : State :=
  let pend := s.tick.req.isSome
  let s := s.mapTick (fun t => { t with running := false, starting := none, first := false, req := none })
  let s := if pend then s.closeVote.rejectReq else s
  let s := (finList 32).foldl (fun (s : State) j => (s.mapJig j (fun x => { x with gateOpen := false })).gateCheck j) s
  (finList 2).foldl State.ringSettle s

/-- TICK_START: the next tick boundary comes; RUN is read there (R38, R88, R90). -/
def State.tickStart (s : State) : State :=
  if s.tick.running then
    let s := s.until (s.tick.tBeat + s.tick.pk)
    if s.rbit 0x20000 0 then s.beginTick (s.boundaryNow s.tick.mode.val) true else s.stopTicks
  else match s.tick.starting with
    | some (b, m) =>
      let s := s.until b
      let x := ceilDiv s.time.todx (s.periodX m.val)
      let s := s.elapse (s.time.beatsTo (x * s.periodX m.val))
      if s.rbit 0x20000 0 then
        let s := s.mapTick (fun t => { t with mode := m })
        let s := s.beginTick x false
        ((finList 12).foldl State.startFree s).ssnRunning
      else s.mapTick (fun t => { t with starting := none })
    | none => s

/-! ## The strike (R23, R61, R62) -/

/-- The strike actions of every block, in one beat (R62). -/
def State.strikeAll (s : State) : State :=
  let beat := s.time.beat
  let s := (finList 2).foldl State.ringStrike s
  let s := (finList 6).foldl State.canStrike s
  let s := (s.jigWake .atStrike).jnrStrike
  let s := (s.motStrike beat).fioStrike beat
  (s.tsoStrobes 5).raise 0x20004 1

/-- STRIKE: the strike of the tick in progress; join-in starts (R61, R64). -/
def State.strikeCmd (s : State) : State :=
  if s.tick.running && !s.tick.struck then
    let s := (s.until (s.tick.tBeat + s.tick.lPrime)).strikeAll
    (s.mapTick (fun t => { t with struck := true })).startRun false
  else s

/-! ## The phases (R64 to R66, R24, R75) -/

/-- The run of the joiner of a phase, if it is in progress. -/
def State.runOf (s : State) (out : Bool) : Option JRun := s.jnr.run.filter (fun r => r.out == out)

/-- JOIN_IN_COMPLETE: the last move of join-in is done; work starts in the next beat (R64, R65, R77). -/
def State.joinInDone (s : State) : State :=
  match s.runOf false with
  | some r =>
    if r.next = r.stop then
      let s := (s.highWater 12 (s.time.beat - r.start)).mapJnr (fun j => { j with run := none, inDone := true })
      let s := s.elapse 1
      (s.mapTick (fun t => { t with workBeat := t.workBeat.max s.time.beat })).releaseAll
    else s
  | none => s

/-- A join budget expires: overrun of the joiner's phase, once (R64, R66). -/
def State.joinExpiry (s : State) (out : Bool) (budget : Nat) : State :=
  match s.runOf out with
  | some r =>
    if r.expired then s
    else
      let s := (s.until (r.start + budget)).overrun (if out then 13 else 12)
      s.mapJnr (fun j => { j with run := some { r with expired := true } })
  | none => s

/-- The beat in which join-out starts (R66). -/
def State.joinOutBeat (s : State) : Nat :=
  let latest := s.deadline - s.modeJout s.tick.mode.val
  if s.tasksRun then max s.tick.workBeat latest else max s.tick.workBeat (min (s.tick.lastEnd + 1) latest)

/-- JOIN_OUT_START (R66): past the deadline nothing of it is left. -/
def State.joinOutCmd (s : State) : State :=
  if s.tick.running && s.jnr.inDone && !s.jnr.outStarted && s.jnr.run.isNone then
    let s := (s.until s.joinOutBeat).startJoinOut
    if s.tick.sealClosed then s.abandonJoinOut else s
  else s

/-- Whether an image that a producer offers to transmit is unsealed in this tick (R24). -/
def State.hasUnsealed (s : State) (producer : Nat) : Bool :=
  s.imgIds.any (fun i => (s.isTransmit i || (s.isHVar i && producer < 12)) && s.imgProducer i == producer &&
    !(s.image i).sealed)

/-- The overruns of a hearth at T+P−Q: a free one with an unsealed image (R75), a ticked one whose task of this tick
still runs and is not in overrun yet (R23, R24); none while it is CLAMPED (R76). -/
def State.hearthLate (s : State) (h : HearthId) : State :=
  if s.hearth[h].st = .clamped then s
  else if s.taskKind s.tick.mode.val h.val = 2 then (if s.hasUnsealed h.val then s.overrun h.val else s)
  else match s.tick.tasks[h] with
    | some t => if t.thisTick && !t.ended && s.hasUnsealed h.val then s.expireTask h else s
    | none => s

/-- SEALING_DEADLINE: T+P−Q. Join-out stops, seals close, and the producers of unsealed images are in overrun
(R24, R66, R75, R352). -/
def State.sealingDeadline (s : State) : State :=
  if s.tick.running && !s.tick.sealClosed then
    let s := s.until s.deadline
    let counted := match s.runOf true with
      | some r => r.expired
      | none => false
    let late := s.hasUnsealed 12 && ((s.runOf true).isSome || !s.jnr.outStarted)
    let s := s.abandonJoinOut
    let s := s.mapTick (fun t => { t with sealClosed := true })
    let s := if late && !counted then s.overrun 13 else s
    ((finList 12).foldl State.hearthLate s).postStatus
  else s

/-! ## Switch requests (R81 to R83, R205) -/

/-- A write of TCK_MODE_REQ. -/
def State.modeReq (s : State) (v : Word) : State :=
  let m : Fin 8 := (BitVec.ofNat 3 (fld v 0 3)).toFin
  if bit v 11 && m != s.tick.mode && s.reqAllowed then
    if s.ring.toList.any (fun r => r.st == .master) then
      if s.modeOk m.val then s.openVote m else s.badMode.rejectReq
    else s.rejectReq
  else s.localReq m (fld v 3 8)

/-! ## Registers (R91) -/

def tckSpecs : List RegSpec :=
  [{ base := 0x20004, rw := 0, w1c := 0x1FF }, { base := 0x20006, rw := 0x1FF }, { base := 0x20018, rw := 0, pair := true },
   { base := 0x2001C, rw := 0, pair := true }, { base := 0x20060, rw := 0, w1c := 0x3FFF },
   { base := 0x20062, rw := 0, w1c := 0xFFF }, { base := 0x20080, rw := 0, pair := true, stride := 4, n := 14 },
   { base := 0x20100, rw := 0xFFF, m := 8, outer := 32 }, { base := 0x20102, rw := 0xFF, m := 8, outer := 32 },
   { base := 0x20104, pair := true, stride := 4, n := 3, m := 8, outer := 32 },
   { base := 0x20110, rw := 0x1FF, m := 8, outer := 32 },
   { base := 0x20400, rw := 0xFFF, n := 12, stride := 16, m := 8, outer := 256 },
   { base := 0x20402, n := 12, stride := 16, m := 8, outer := 256 },
   { base := 0x20404, pair := true, n := 12, stride := 16, m := 8, outer := 256 }]

/-- The mode whose table holds a register of the tick controller, SHADOW excepted (R87). -/
def tckTableMode (off : Nat) : Option Nat :=
  if 0x20100 ≤ off ∧ off < 0x20200 then (if off % 32 < 0x10 then some ((off - 0x20100) / 32) else none)
  else if 0x20400 ≤ off ∧ off < 0x20C00 then some ((off - 0x20400) / 256)
  else none

/-- A write to a register of the tick controller. The write of a _LO is only held, so that R87 bars the write of _HI. -/
def State.tckWrite (s : State) (m : Master) (off : Nat) (v : Word) : State :=
  if off = 0x20000 then s.tckCtrl v
  else if off = 0x20008 then s.modeReq v
  else if off = 0x20020 then s.tckSeal m v
  else match tckTableMode off with
    | some k =>
      if RegSpec.isPair tckSpecs off 0 then s.tableWrite tckSpecs m off v
      else if s.modeBarred k then s.dropHold m |>.modeTable k (fun s => s)
      else s.tableWrite tckSpecs m off v
    | none => s.tableWrite tckSpecs m off v

/-- TCK_LATk: one bit per image (R24, R91). -/
def State.latWord (s : State) (k : Nat) : Word :=
  (List.range 16).foldl (fun w j =>
    let i := 16 * k + j
    w ||| flag (s.isTransmit i && (s.image i).latched) j) 0

/-- The registers of the tick controller as they read at present. -/
def State.tckLive (s : State) (off : Nat) : Word :=
  let t := s.tick
  if off = 0x20002 then
    flag t.running 0 ||| BitVec.ofNat 16 (t.mode.val * 2) ||| (match t.req with
      | some r => bitMask 4 ||| BitVec.ofNat 16 (r.mode.val * 32)
      | none => 0) ||| flag t.first 8
  else if off = 0x20008 ∨ off = 0x20020 then 0
  else if off = 0x20018 ∨ off = 0x2001A then wordOf t.pk ((off - 0x20018) / 2)
  else if off = 0x2001C ∨ off = 0x2001E then wordOf t.lPrime ((off - 0x2001C) / 2)
  else if 0x20C00 ≤ off ∧ off < 0x20C80 then s.latWord ((off - 0x20C00) / 2)
  else s.reg off

/-- A read of a register of the tick controller: the counts and high-water marks clear (R77, R91). -/
def State.tckRead (s : State) (m : Master) (off : Nat) : State × Word :=
  if 0x20010 ≤ off ∧ off < 0x20018 then s.groupRead m 0x20010 ((off - 0x20010) / 2) 4 s.tick.tick
  else if 0x20040 ≤ off ∧ off < 0x2005C then s.clearRead off
  else if 0x20080 ≤ off ∧ off < 0x200B8 ∧ off % 4 = 0 then
    let r := s.tableRead tckSpecs State.tckLive m off
    (r.1.setPair off (ofWords [s.freshAt off, s.freshAt (off + 2)]), r.2)
  else s.tableRead tckSpecs State.tckLive m off

/-! ## Commands -/

def execTickStart (s : State) : Host.Outcome State Fault Refusal := .next (s.alive fun s => s.tickStart)
def execStrike (s : State) : Host.Outcome State Fault Refusal := .next (s.alive fun s => s.strikeCmd)
def execJoinInComplete (s : State) : Host.Outcome State Fault Refusal := .next (s.alive fun s => s.joinInDone)

def execJinExpiry (s : State) : Host.Outcome State Fault Refusal :=
  .next (s.alive fun s => s.joinExpiry false (s.modeJin s.tick.mode.val))

def execJoinOutStart (s : State) : Host.Outcome State Fault Refusal := .next (s.alive fun s => s.joinOutCmd)

def execJoutExpiry (s : State) : Host.Outcome State Fault Refusal :=
  .next (s.alive fun s => s.joinExpiry true (s.modeJout s.tick.mode.val))

def execSealingDeadline (s : State) : Host.Outcome State Fault Refusal := .next (s.alive fun s => s.sealingDeadline)

def execTckModeReq (m : Master) (v : Word) (s : State) : Host.Outcome State Fault Refusal :=
  .next (s.alive fun s => s.writeCmd m 0x20008 (fun s => s.modeReq v))

def execTckCtrlRun (m : Master) (mode : BitVec 3) (s : State) : Host.Outcome State Fault Refusal :=
  .next (s.alive fun s => s.writeCmd m 0x20000 (fun s => s.tckCtrl (BitVec.ofNat 16 (1 + 2 * mode.toNat))))

def execTckCtrlStop (m : Master) (s : State) : Host.Outcome State Fault Refusal :=
  .next (s.alive fun s => s.writeCmd m 0x20000 (fun s => s.tckCtrl (s.reg 0x20000 &&& 0xE)))

end Sys2Proof.Machine
end

