-- ==== Sys2Proof/Machine/Bus.lean ====
section
/-! DEFINITION. The address space (R27, R475 to R489): which block answers an access, and the commands on registers that
have no row of their own. -/

namespace Sys2Proof.Machine

open Sys2Proof

/-! ## The register blocks (R27) -/

/-- The register table of a block. -/
def blockSpecs (off : Nat) : List RegSpec :=
  match off / 65536 with
  | 0x0 => idSpecs
  | 0x1 => timSpecs
  | 0x2 => tckSpecs
  | 0x3 => jnrSpecs
  | 0x4 => swfSpecs
  | 0x5 => macSpecs
  | 0x6 => rngSpecs
  | 0x7 => canSpecs
  | 0x8 => jigReadSpecs
  | 0x9 => hrtSpecs
  | 0xA => motSpecs
  | 0xB => fioSpecs
  | 0xC => bnkSpecs
  | 0xD => fluSpecs
  | 0xE => kdlSpecs
  | _ => ssnSpecs

/-- A write to the register at an offset from 0x300_0000, as its block carries it out. -/
def State.blockAct (s : State) (m : Master) (off : Nat) (v : Word) : State :=
  match off / 65536 with
  | 0x0 => s.idWrite m off v
  | 0x1 => s.timWrite m off v
  | 0x2 => s.tckWrite m off v
  | 0x3 => s.jnrWrite m off v
  | 0x4 => s.swfWrite m off v
  | 0x5 => s.macWrite m off v
  | 0x6 => s.rngWrite m off v
  | 0x7 => s.canBlockWrite m off v
  | 0x8 => s.jigWrite m off v
  | 0x9 => s.hrtWrite m off v
  | 0xA => s.motWrite m off v
  | 0xB => s.fioWrite m off v
  | 0xC => s.bnkWrite m off v
  | 0xD => s.fluWrite m off v
  | 0xE => s.kdlWrite m off v
  | 0xF => s.ssnWrite m off v
  | _ => s

/-- A write to the register at an offset: a write of _HI consumes the held word, whatever comes of it (R481). -/
def State.blockWrite (s : State) (m : Master) (off : Nat) (v : Word) : State :=
  if RegSpec.isPair (blockSpecs off) off 2 then (s.blockAct m off v).dropHold m else s.blockAct m off v

/-- A read of the register at an offset, carried out by its block. -/
def State.blockRead (s : State) (m : Master) (off : Nat) : State × Word :=
  match off / 65536 with
  | 0x0 => s.idRead m off
  | 0x1 => s.timRead m off
  | 0x2 => s.tckRead m off
  | 0x3 => s.jnrRead m off
  | 0x4 => s.swfRead m off
  | 0x5 => s.macRead m off
  | 0x6 => s.rngRead m off
  | 0x7 => s.canRead m off
  | 0x8 => s.jigRead m off
  | 0x9 => s.hrtRead m off
  | 0xA => s.motRead m off
  | 0xB => s.fioRead m off
  | 0xC => s.bnkRead m off
  | 0xD => s.fluRead m off
  | 0xE => s.kdlRead m off
  | 0xF => s.ssnRead m off
  | _ => (s, 0)

/-! ## An access to the address space (R475) -/

/-- The BUFWIN right (R486). -/
def State.bufwinRight (s : State) (m : Master) : Bool :=
  match hearthOf m with
  | some h => s.rbit 0x20 h.val
  | none => match hostOf m with
    | some n => s.rbit (fluHost n.val + 8) 0 && !(n.val == 0 && s.feedRights)
    | none => true

/-- What a violation answers: the access stops there for a hearth or a host, the other masters get an error. -/
def violRes (m : Master) : BRes := if (hearthOf m).isSome || (hostOf m).isSome then .viol else .err

/-- An access to the reserved range: outside a host's rights, an error response for the others (R475). -/
def State.reservedAccess (s : State) (m : Master) (a : Nat) : State × BRes :=
  if (hostOf m).isSome then (s.violate m 4 (BitVec.ofNat 26 a), .viol) else (s, .err)

/-- A read of the word that holds address `a` (R475, R477, R489). -/
def State.busRead (s : State) (m : Master) (a : Nat) : State × BRes :=
  if a < 0x3000000 then s.memRead m a .read
  else if a < 0x3100000 then
    let off := (a - 0x3000000) / 2 * 2
    if s.mayAccess m off false then
      let r := s.blockRead m off
      (r.1, .ok r.2)
    else (s.regViolation m off false, violRes m)
  else if a < 0x3200000 then
    if s.bufwinRight m then (s.windowRead.1, .ok s.windowRead.2)
    else (s.violate m 4 (BitVec.ofNat 26 a), violRes m)
  else s.reservedAccess m a

/-- A write to the word that holds address `a` (R475, R477, R489). -/
def State.busWrite (s : State) (m : Master) (a : Nat) (sel : ByteSel) (v : Word) : State × BRes :=
  if a < 0x3000000 then s.memWrite m a sel v
  else if a < 0x3100000 then
    let off := (a - 0x3000000) / 2 * 2
    if !s.mayAccess m off true then (s.regViolation m off true, violRes m)
    else if sel != .word then (s, .err)
    else (s.blockWrite m off v, .ok 0)
  else if a < 0x3200000 then (s.violate m 4 (BitVec.ofNat 26 a), violRes m)
  else s.reservedAccess m a

/-- What a master's access of one command answers. -/
def State.answer (m : Master) (r : State × BRes) : State :=
  match r.2 with
  | .ok w => r.1.respond m w false
  | _ => r.1.respond m 0 true

/-! ## Register pairs and read-clear registers (R480 to R482) -/

/-- The offset of a register address, where it is one at an even address. -/
def regOf (a : Addr) : Option Nat :=
  if 0x3000000 ≤ a.toNat ∧ a.toNat < 0x3100000 ∧ a.toNat % 2 = 0 then some (a.toNat - 0x3000000) else none

/-- Whether an address is the _LO (`p` = 0) or the _HI (`p` = 2) of a register pair. -/
def pairAt (a : Addr) (p : Nat) : Bool :=
  match regOf a with
  | some off => RegSpec.isPair (blockSpecs off) off p
  | none => false

/-- The registers that a read clears, and the _LO words of such pairs (the access code RC, R14). -/
def readClears (off : Nat) : Bool :=
  (0x20040 ≤ off && off < 0x2005C) || (0x20080 ≤ off && off < 0x200B8 && off % 4 == 0) ||
  (0x40400 ≤ off && off < 0x40480 && off % 32 == 0xE) || (0x50000 ≤ off && off < 0x52C00 && off % 0x400 == 2) ||
  off == 0x6011A || off == 0x6021A || (0xC0400 ≤ off && off < 0xC0458 && off % 4 == 2)

/-! ## Commands -/

/-- A write of a master to a register: a master that cannot act gets an error response (R289, R419, R478). -/
def State.registerWrite (s : State) (m : Master) (sel : ByteSel) (a : Addr) (v : Word) : State :=
  if s.canAct m then (if 0x3000000 ≤ a.toNat then State.answer m (s.busWrite m a.toNat sel v) else s)
  else s.respond m 0 true

def State.registerRead (s : State) (m : Master) (a : Addr) : State :=
  if s.canAct m then State.answer m (s.busRead m a.toNat) else s.respond m 0 true

def execRegisterWrite (m : Master) (sel : ByteSel) (a : Addr) (v : Word) (s : State) :
    Host.Outcome State Fault Refusal := .next (s.alive fun s => s.registerWrite m sel a v)

def execPairLoRead (m : Master) (a : Addr) (s : State) : Host.Outcome State Fault Refusal :=
  .next (s.alive fun s => if pairAt a 0 then s.registerRead m a else s)

def execPairLoWrite (m : Master) (a : Addr) (v : Word) (s : State) : Host.Outcome State Fault Refusal :=
  .next (s.alive fun s => if pairAt a 0 then s.registerWrite m .word a v else s)

def execPairHiWrite (m : Master) (a : Addr) (v : Word) (s : State) : Host.Outcome State Fault Refusal :=
  .next (s.alive fun s => if pairAt a 2 then s.registerWrite m .word a v else s)

def execReadClear (m : Master) (a : Addr) (s : State) : Host.Outcome State Fault Refusal :=
  .next (s.alive fun s => match regOf a with
    | some off => if readClears off then s.registerRead m a else s
    | none => s)

end Sys2Proof.Machine
end

