-- ==== Sys2Proof/Machine/Flags.lean ====
section
/-! DEFINITION. The arithmetic of a hearth with its flags (R322 to R327), on operands of 16 bits and of 32 with WIDE. -/

namespace Sys2Proof.Machine

open Sys2Proof

/-- What an operation gives: its value, and the flags that it writes (R322); `none` leaves a flag unchanged. -/
structure Alu where
  val : Nat
  c : Option Bool
  z : Option Bool
  n : Option Bool
  v : Option Bool
  deriving DecidableEq, Repr

/-- A value of `w` bits with no flags (MOV). -/
def Alu.plain (w x : Nat) : Alu := { val := x % 2 ^ w, c := none, z := none, n := none, v := none }

/-- A value of `w` bits with Z and N from it. -/
def Alu.zn (w x : Nat) : Alu :=
  { val := x % 2 ^ w, c := none, z := some (x % 2 ^ w == 0), n := some (x.testBit (w - 1)), v := none }

/-- A value with Z and N from it, and C and V given. -/
def Alu.full (w x : Nat) (c v : Bool) : Alu := { Alu.zn w x with c := some c, v := some v }

/-- Whether an integer lies outside the signed numbers of `w` bits. -/
def outside (w : Nat) (x : Int) : Bool := decide (x < -(2 ^ (w - 1))) || decide ((2 : Int) ^ (w - 1) ≤ x)

/-- d + s + C (R322). -/
def aluAdd (w d s : Nat) (cin : Bool) : Alu :=
  Alu.full w (d + s + b2n cin) (decide (2 ^ w ≤ d + s + b2n cin)) (outside w (asInt d w + asInt s w + b2n cin))

/-- d − s − borrow: C is the borrow out (R322, R324). -/
def aluSub (w d s : Nat) (bin : Bool) : Alu :=
  Alu.full w (2 ^ w + d - s - b2n bin) (decide (d < s + b2n bin)) (outside w (asInt d w - asInt s w - b2n bin))

/-- A result of AND, OR, XOR or TEST (R322). -/
def aluLogic (w x : Nat) : Alu := Alu.full w x false false

/-- INC and DEC leave C (R322). -/
def aluInc (w d : Nat) : Alu := { aluAdd w d 1 false with c := none }
def aluDec (w d : Nat) : Alu := { aluSub w d 1 false with c := none }

/-- MUL: the low word, C and V as R325 says. -/
def aluMul (d s : Nat) : Alu :=
  Alu.full 16 (d * s) (decide (65536 ≤ d * s)) (outside 16 (asInt d 16 * asInt s 16))

/-- MULHU and MULHS: the high word of the product, or with WIDE all of it (R330). -/
def aluMulh (wide signed : Bool) (d s : Nat) : Alu :=
  let p := if signed then ofInt (asInt d 16 * asInt s 16) 32 else d * s
  if wide then aluLogic 32 p else aluLogic 16 (p / 65536)

/-- The kinds of shift and rotate. -/
inductive Shift where
  | shl | shr | sar | rol | ror
  deriving DecidableEq, Repr

/-- The amount of a shift or rotate from its count (R327). -/
def Shift.amount (k : Shift) (w cnt : Nat) : Nat :=
  match k with
  | .rol => cnt % 32 % w
  | .ror => cnt % 32 % w
  | _ => cnt % 32

/-- The value of a shift by `k` from 1 to 31 (R327). -/
def Shift.value (t : Shift) (w d k : Nat) : Nat :=
  match t with
  | .shl => d * 2 ^ k % 2 ^ w
  | .shr => d / 2 ^ k
  | .sar => ofInt (asInt d w / 2 ^ k) w
  | .rol => (d * 2 ^ k + d / 2 ^ (w - k)) % 2 ^ w
  | .ror => (d / 2 ^ k + d * 2 ^ (w - k)) % 2 ^ w

/-- C of a shift by `k`: the last bit shifted out, 0 past the width; of a rotate the bit of the result (R327). -/
def Shift.carry (t : Shift) (w d k : Nat) : Bool :=
  match t with
  | .shl => decide (k ≤ w) && d.testBit (w - k)
  | .rol => (t.value w d k).testBit 0
  | .ror => (t.value w d k).testBit (w - 1)
  | _ => decide (k ≤ w) && d.testBit (k - 1)

/-- A shift or rotate: an amount of 0 changes nothing (R327). -/
def aluShift (t : Shift) (w d cnt : Nat) : Alu :=
  let k := t.amount w cnt
  if k = 0 then Alu.plain w d else Alu.full w (t.value w d k) (t.carry w d k) false

/-- Quotient, remainder and V of a division by `s`, which is not 0 (R326). -/
def divide (signed : Bool) (d s : Nat) : Nat × Nat × Bool :=
  if signed then
    let a := asInt d 16
    let b := asInt s 16
    (ofInt (a.tdiv b) 16, ofInt (a.tmod b) 16, d == 0x8000 && s == 0xFFFF)
  else (d / s, d % s, false)

/-- Quotient and remainder of a division by zero that does not trap (R326). -/
def divideZero (signed : Bool) (d : Nat) : Nat × Nat :=
  (if signed then (if d < 0x8000 then 0x7FFF else 0x8000) else 0xFFFF, d)

/-- Set a flag that an operation writes. -/
def setFlag (w : Word) (i : Nat) (x : Option Bool) : Word :=
  match x with
  | some b => setBit w i b
  | none => w

/-- FL after an operation: C, Z, N and V as written; V = 1 also sets OVS (R307, R324). -/
def Alu.flags (a : Alu) (fl : Word) : Word :=
  let fl := setFlag (setFlag (setFlag (setFlag fl 0 a.c) 1 a.z) 2 a.n) 3 a.v
  if a.v == some true then setBit fl 5 true else fl

/-- A condition against FL and CNT (R323). -/
def condHolds (cond : Nat) (fl cnt : Word) : Bool :=
  let c := bit fl 0
  let z := bit fl 1
  let n := bit fl 2
  let v := bit fl 3
  match cond with
  | 0 => z
  | 1 => !z
  | 2 => c
  | 3 => !c
  | 4 => n
  | 5 => !n
  | 6 => v
  | 7 => !v
  | 8 => !c && !z
  | 9 => c || z
  | 10 => n == v
  | 11 => n != v
  | 12 => !z && n == v
  | 13 => z || n != v
  | 14 => true
  | _ => cnt != 0

end Sys2Proof.Machine
end

