-- ==== Sys2Proof/Machine/Operands.lean ====
section
/-! DEFINITION. The instructions of a hearth as bytes (12_hearth_instruction_set.md): prefixes, opcode map, operand
forms, and the checks of R336 in their order. -/

namespace Sys2Proof.Machine

open Sys2Proof

/-- The operations of a hearth (R320 to R322). -/
inductive HOp where
  | mov | ld | st | add | adc | sub | sbb | cmp | and | or | xor | test
  | ldb | ldbs | stb | lea | neg | not | inc | dec | sxb | zxb | swab
  | mul | mulhu | mulhs | divu | divs | scpy | sfil | scmp | ssrc
  | shl | shr | sar | rol | ror | mfs | mts
  | jmpr | callr | jmpfr | callfr | longJump | jmpf | callf | jcc | custom
  | nop | ret | retf | rett | tend | flat | wind | ei | di | trap | post | postw | waitdb
  deriving DecidableEq, Repr

/-- A register operand: its G bit and its code (R317). -/
structure Reg where
  g : Bool
  code : Nat
  deriving DecidableEq, Repr

/-- The operands of an instruction. In `mem`, `dir` is DIR, `sp` selects PSTK, `am` is the address mode and `d` the
displacement or address (R319). -/
inductive HForm where
  | none
  | rr (a b : Reg)
  | ri (a : Reg) (imm : Word)
  | mem (r : Reg) (dir sp : Bool) (ptr am : Nat) (d : Word)
  | one (a : Reg)
  | count (a : Reg) (n : Nat)
  | special (a : Reg) (sr : Nat)
  | rel (cond : Nat) (link : Bool) (d : Word)
  | far (page : BitVec 10) (o : Word)
  | imm (v : Word)
  | customer (k : Nat) (a b : Option Reg) (imm : Option Word)
  deriving DecidableEq, Repr

/-- The repeat prefixes (R316). -/
inductive Rep where
  | once | rpt | rpteq | rptne
  deriving DecidableEq, Repr

/-- The prefixes of an instruction: `page` is the page of a page prefix, 0 PXTRA, 1 PSTK, 2 PCODE (R316). -/
structure Prefixes where
  rep : Rep
  wide : Bool
  page : Option Nat
  atom : Bool
  deriving DecidableEq, Repr

/-- A decoded instruction, with its length in bytes. -/
structure HInstr where
  pre : Prefixes
  op : HOp
  form : HForm
  len : Nat
  deriving DecidableEq, Repr

/-- Why bytes are no instruction: the vectors 0 and 1 of R308. -/
inductive DErr where
  | illegal | illpfx
  deriving DecidableEq, Repr

/-! ## Prefixes (R316) -/

def isPrefix (b : Byte) : Bool := 0xF0 ≤ b.toNat && b.toNat < 0xF8

/-- The class of a prefix: repeat, width, page, atomic. -/
def prefixClass (b : Byte) : Nat :=
  let n := b.toNat
  if n < 0xF3 then 0 else if n = 0xF3 then 1 else if n < 0xF7 then 2 else 3

/-- No two prefixes of one class. -/
def oneOfClass : List Byte → Bool
  | [] => true
  | b :: r => r.all (fun c => prefixClass c != prefixClass b) && oneOfClass r

/-- The prefixes that prefix bytes give. -/
def prefixesOf (l : List Byte) : Prefixes :=
  { rep := if l.contains 0xF0 then .rpt else if l.contains 0xF1 then .rpteq else if l.contains 0xF2 then .rptne else .once
    wide := l.contains 0xF3
    page := if l.contains 0xF4 then some 0 else if l.contains 0xF5 then some 1 else if l.contains 0xF6 then some 2
      else none
    atom := l.contains 0xF7 }

/-- The class rules of R316. -/
def prefixesOk (l : List Byte) : Bool :=
  decide (l.length ≤ 3) && oneOfClass l && !((prefixesOf l).rep != .once && (prefixesOf l).atom)

/-! ## Lengths (R315, R319, R320) -/

/-- Bytes after the mod byte of an address mode (R319). -/
def amBytes (am : Nat) : Nat := if am = 0 then 0 else if am = 1 then 1 else 2

/-- FORM and EN of a customer entry (R338). -/
def entryForm (e : Word) : Nat := fld e 9 2
def entryEn (e : Word) : Bool := bit e 15

/-- The length of an instruction from its opcode on. `entry` is the hearth's customer entry of an opcode. -/
def bodyLen (entry : Nat → Word) (b : Byte) : Nat :=
  let o := b.toNat
  if o < 0xA0 then
    let f := o % 16
    if f < 4 then 2 else if f < 8 then (if o / 2 % 2 = 1 then 3 else 4) else 2 + amBytes (o % 4)
  else if o < 0xB0 then 2 + amBytes (o % 4)
  else if o < 0xCD then 2
  else if o = 0xCD then 4
  else if o < 0xD0 then 5
  else if o < 0xE0 then 2
  else if o < 0xF0 then
    let e := entry (o - 0xE0)
    if !entryEn e then 1 else match entryForm e with
      | 0 => 1
      | 1 => 2
      | 2 => 4
      | _ => 3
  else if 0xF8 ≤ o ∧ o ≤ 0xFC then 2
  else 1

/-- How many bytes an instruction has at least, as far as its first bytes show. A fourth prefix ends it (R316). -/
def needLen (entry : Nat → Word) (l : List Byte) : Nat :=
  let p := (l.takeWhile isPrefix).length
  match l.drop p with
  | [] => if 4 ≤ p then p else p + 1
  | b :: _ => if 4 ≤ p then p else p + bodyLen entry b

/-! ## The opcode map (R318 to R321) -/

/-- The two-operand operations, in the order of OP; MOV to or from memory is LD or ST. -/
def twoOp (o : Nat) : HOp :=
  match o with
  | 0 => .mov
  | 1 => .add
  | 2 => .adc
  | 3 => .sub
  | 4 => .sbb
  | 5 => .cmp
  | 6 => .and
  | 7 => .or
  | 8 => .xor
  | _ => .test

/-- An 8-bit displacement or immediate, sign-extended (R315). -/
def sext8 (b : Byte) : Word := b.signExtend 16

/-- A little-endian word of two bytes. -/
def word2 (lo hi : Byte) : Word := hi ++ lo

/-- FA and FB of an R mod byte. -/
def modFa (m : Byte) : Nat := m.toNat / 16
def modFb (m : Byte) : Nat := m.toNat % 16

/-- A memory operand from the mod byte and the bytes after it; PTR must be 0 in mode 3 (R319). -/
def memForm (dir : Bool) (am : Nat) (m : Byte) (l : List Byte) : Option HForm :=
  let r : Reg := { g := false, code := modFa m }
  let sp := m.getLsbD 3
  let ptr := m.toNat % 8
  match am, l with
  | 0, [] => some (.mem r dir sp ptr 0 0)
  | 1, [x] => some (.mem r dir sp ptr 1 (sext8 x))
  | 2, [x, y] => some (.mem r dir sp ptr 2 (word2 x y))
  | 3, [x, y] => if ptr = 0 then some (.mem r dir sp 0 3 (word2 x y)) else none
  | _, _ => none

/-- The unary group (R321). -/
def unaryOp (fb : Nat) : Option HOp :=
  match fb with
  | 0 => some .neg
  | 1 => some .not
  | 2 => some .inc
  | 3 => some .dec
  | 4 => some .sxb
  | 5 => some .zxb
  | 6 => some .swab
  | _ => none

/-- The system group (R321). -/
def systemOp (b : Nat) : Option HOp :=
  match b with
  | 0 => some .nop
  | 1 => some .ret
  | 2 => some .retf
  | 3 => some .rett
  | 4 => some .tend
  | 5 => some .flat
  | 6 => some .wind
  | 7 => some .ei
  | 8 => some .di
  | _ => none

/-- Operations with two register codes without G bits: 0xB2 to 0xBF. -/
def pairOp (o : Nat) : HOp :=
  match o with
  | 0xB2 => .mul
  | 0xB3 => .mulhu
  | 0xB4 => .mulhs
  | 0xB5 => .divu
  | 0xB6 => .divs
  | 0xB7 => .scpy
  | 0xB8 => .shl
  | 0xB9 => .shr
  | 0xBA => .sar
  | 0xBB => .rol
  | 0xBC => .ror
  | 0xBD => .sfil
  | 0xBE => .scmp
  | _ => .ssrc

/-- Shifts by a constant: 0xC0 to 0xC4. -/
def countOp (o : Nat) : HOp :=
  match o with
  | 0xC0 => .shl
  | 0xC1 => .shr
  | 0xC2 => .sar
  | 0xC3 => .rol
  | _ => .ror

/-- A register without a G bit. -/
def reg0 (c : Nat) : Reg := { g := false, code := c }

/-- A Z mod byte: its low four bits must be 0 (R318). -/
def zMod (m : Byte) : Bool := m.toNat % 16 == 0

/-- The two-operand group (R321). -/
def decodeTwo (o : Nat) (m : Byte) (l : List Byte) : Option (HOp × HForm) :=
  let op := twoOp (o / 16)
  let f := o % 16
  if f < 4 then
    some (op, .rr { g := o / 2 % 2 == 1, code := modFa m } { g := o % 2 == 1, code := modFb m })
  else if f < 8 then
    if zMod m then
      let a : Reg := { g := o % 2 == 1, code := modFa m }
      match l with
      | [x] => some (op, .ri a (sext8 x))
      | [x, y] => some (op, .ri a (word2 x y))
      | _ => none
    else none
  else
    let dir := f / 4 % 2 == 1
    (memForm dir (o % 4) m l).map (fun m => (if op = .mov then (if dir then .st else .ld) else op, m))

/-- A customer instruction (R338). -/
def decodeCustomer (entry : Nat → Word) (k : Nat) (l : List Byte) : Option (HOp × HForm) :=
  let e := entry k
  let a := fun (m : Byte) => some { g := bit e 11, code := modFa m : Reg }
  let b := fun (m : Byte) => some { g := bit e 12, code := modFb m : Reg }
  if !entryEn e then none
  else match l with
    | [] => some (.custom, .customer k none none none)
    | [m] => some (.custom, .customer k (a m) (b m) none)
    | [m, x] => some (.custom, .customer k (a m) (b m) (some (sext8 x)))
    | [m, x, y] => some (.custom, .customer k (a m) (b m) (some (word2 x y)))
    | _ => none

/-- The operation and operands of the bytes from the opcode on; none is ILLEGAL by the opcode, the sub-operation or the
mod byte (R318 to R321, R323). -/
def decodeBody (entry : Nat → Word) (b : Byte) (l : List Byte) : Option (HOp × HForm) :=
  let o := b.toNat
  if 0xE0 ≤ o ∧ o < 0xF0 then decodeCustomer entry (o - 0xE0) l
  else if o = 0xFF then some (.nop, .none)
  else match l with
  | [] => none
  | m :: r =>
    let fa := reg0 (modFa m)
    let fb := reg0 (modFb m)
    if o < 0xA0 then decodeTwo o m r
    else if o < 0xA4 then (memForm false (o % 4) m r).map (fun f => (.ldb, f))
    else if o < 0xA8 then (memForm false (o % 4) m r).map (fun f => (.ldbs, f))
    else if o < 0xAC then (memForm true (o % 4) m r).map (fun f => (.stb, f))
    else if o < 0xB0 then (memForm false (o % 4) m r).map (fun f => (.lea, f))
    else if o < 0xB2 then (unaryOp (modFb m)).map (fun op => (op, .one { g := o % 2 == 1, code := modFa m }))
    else if o < 0xC0 then some (pairOp o, .rr fa fb)
    else if o < 0xC5 then some (countOp o, .count fa (modFb m))
    else if o < 0xC7 then some (.mfs, .special fa (modFb m + 16 * (o - 0xC5)))
    else if o < 0xC9 then some (.mts, .special fa (modFb m + 16 * (o - 0xC7)))
    else if o = 0xC9 then (if zMod m then some (.jmpr, .one fa) else none)
    else if o = 0xCA then (if zMod m then some (.callr, .one fa) else none)
    else if o = 0xCB then some (.jmpfr, .rr fa fb)
    else if o = 0xCC then some (.callfr, .rr fa fb)
    else if o = 0xCD then
      match r with
      | [x, y] =>
        let cond := m.toNat % 16
        let link := m.getLsbD 4
        if m.toNat / 32 = 0 ∧ (link = false ∨ cond = 14) then some (.longJump, .rel cond link (word2 x y)) else none
      | _ => none
    else if o < 0xD0 then
      match r with
      | [p, x, y] =>
        if p.toNat < 4 then
          some (if o = 0xCE then .jmpf else .callf, .far (BitVec.ofNat 10 (m.toNat + 256 * p.toNat)) (word2 x y))
        else none
      | _ => none
    else if o < 0xE0 then some (.jcc, .rel (o - 0xD0) false (sext8 m))
    else if o = 0xF8 then (systemOp m.toNat).map (fun op => (op, .none))
    else if o = 0xF9 then some (.trap, .imm (m.zeroExtend 16))
    else if o = 0xFA then some (.post, .rr fa fb)
    else if o = 0xFB then some (.postw, .rr fa fb)
    else if o = 0xFC then (if zMod m then some (.waitdb, .one fa) else none)
    else none

/-! ## Register codes, pairs and modes (R317, R326, R330, R332) -/

/-- A register that the mode has (R317). -/
def regOk (flat : Bool) (r : Reg) : Bool := !r.g || (!flat && decide (r.code < 8))

/-- Whether WIDE makes the second register operand a 32-bit value: a shift count and the factors of MULHU and MULHS are
single registers (R327, R330). -/
def wideSource (op : HOp) : Bool :=
  match op with
  | .shl => false | .shr => false | .sar => false | .rol => false | .ror => false
  | .mulhu => false | .mulhs => false
  | _ => true

/-- A register that holds a value of an operation: with WIDE its code is even (R330). -/
def dataReg (flat wide : Bool) (r : Reg) : Bool := regOk flat r && (!wide || r.code % 2 == 0)

/-- The block instructions (R334). -/
def isBlock (op : HOp) : Bool := op == .scpy || op == .sfil || op == .scmp || op == .ssrc

/-- What is ILLEGAL of operands: register codes, pair parity, special registers, block pointers. -/
def formOk (flat wide : Bool) (op : HOp) (f : HForm) : Bool :=
  match f with
  | .rr a b =>
    if isBlock op then
      !flat && !((op == .scpy || op == .scmp) && a.code == b.code) &&
      !((op == .sfil || op == .ssrc) && wide && b.code % 2 == 1)
    else if op == .divu || op == .divs || op == .post || op == .postw then a.code % 2 == 0
    else dataReg flat wide a && dataReg flat (wide && wideSource op) b
  | .ri a _ => dataReg flat wide a
  | .mem r _ _ _ _ _ => dataReg flat wide r &&
      (!flat || op == .ld || op == .st || op == .ldb || op == .ldbs || op == .stb)
  | .one a => dataReg flat wide a
  | .count a _ => dataReg flat wide a
  | .special _ sr => decide (sr < 30) && !(op == .mts && !flat && (sr == 7 || sr == 8))
  | .far _ _ => !flat
  | .customer _ a b _ => a.all (regOk flat) && b.all (regOk flat)
  | _ => true

/-- The stage ILLEGAL of R336: a decoded body that the mode allows. FLAT of a customer entry is bit 13 (R338); RETT needs
TACT (R321); in flat mode an instruction has 2 or 4 bytes (R332). -/
def bodyOk (flat tact : Bool) (entry : Nat → Word) (wide : Bool) (len : Nat) (op : HOp) (f : HForm) : Bool :=
  formOk flat wide op f && !(op == .rett && !tact) && (!flat || len == 2 || len == 4) &&
  (match f with
   | .customer k _ _ _ => !flat || bit (entry k) 13
   | _ => true)

/-! ## Accepted prefixes (R322, R328 to R331, R338) -/

/-- Whether an operation with its operands writes Z (R322). -/
def writesZ (op : HOp) : Bool :=
  match op with
  | .add => true | .adc => true | .sub => true | .sbb => true | .cmp => true
  | .and => true | .or => true | .xor => true | .test => true
  | .neg => true | .not => true | .inc => true | .dec => true | .sxb => true | .zxb => true | .swab => true
  | .mul => true | .mulhu => true | .mulhs => true | .divu => true | .divs => true
  | .scmp => true | .ssrc => true | .shl => true | .shr => true | .sar => true | .rol => true | .ror => true
  | _ => false

/-- Operations of R322 with the prefix WIDE. -/
def acceptsWide (op : HOp) : Bool :=
  match op with
  | .mov => true | .ld => true | .st => true | .add => true | .adc => true | .sub => true | .sbb => true
  | .cmp => true | .and => true | .or => true | .xor => true | .test => true
  | .neg => true | .not => true | .inc => true | .dec => true | .mulhu => true | .mulhs => true
  | .scpy => true | .sfil => true | .scmp => true | .ssrc => true
  | .shl => true | .shr => true | .sar => true | .rol => true | .ror => true
  | _ => false

/-- Operations that accept RPT: all but transfers, the system group, traps and flues. -/
def acceptsRpt (op : HOp) (f : HForm) : Bool :=
  acceptsWide op || writesZ op || op == .ldb || op == .ldbs || op == .stb || op == .lea || op == .mfs ||
  (op == .mts && (match f with
    | .special _ sr => sr != 5
    | _ => false))

/-- Instructions that make a data access, besides customer instructions. -/
def acceptsPage (op : HOp) (f : HForm) : Bool :=
  isBlock op || (match f with
    | .mem _ _ _ _ _ _ => op != .lea
    | _ => false)

/-- ST, and ADD to XOR in the memory form with DIR 1 (R331). -/
def acceptsAtom (op : HOp) (f : HForm) : Bool :=
  match f with
  | .mem _ true _ _ _ _ => op == .st || (op != .cmp && op != .test && op != .stb)
  | _ => false

/-- Whether an instruction accepts its prefixes (R322). -/
def prefixAccepted (entry : Nat → Word) (p : Prefixes) (op : HOp) (f : HForm) : Bool :=
  match f with
  | .customer k _ _ _ => !p.wide && !p.atom && (p.rep == .once || bit (entry k) 14)
  | _ =>
    (p.rep == .once || (acceptsRpt op f && (p.rep == .rpt || writesZ op))) && (!p.wide || acceptsWide op) &&
    (p.page.isNone || acceptsPage op f) && (!p.atom || acceptsAtom op f)

/-! ## The decoder -/

/-- Decode the bytes of one instruction, with the checks 2 to 4 of R336 in order. -/
def hdecode (flat tact : Bool) (entry : Nat → Word) (l : List Byte) : Except DErr HInstr :=
  let ps := l.takeWhile isPrefix
  let p := prefixesOf ps
  if !prefixesOk ps then .error .illpfx
  else match l.drop ps.length with
    | [] => .error .illegal
    | b :: r =>
      match decodeBody entry b r with
      | none => .error .illegal
      | some (op, f) =>
        if !bodyOk flat tact entry p.wide l.length op f then .error .illegal
        else if !prefixAccepted entry p op f then .error .illpfx
        else .ok { pre := p, op := op, form := f, len := l.length }

/-! ## The encoder -/

/-- The prefix bytes of prefixes, in the order of their classes (R316). -/
def prefixBytes (p : Prefixes) : List Byte :=
  ((match p.rep with
   | .once => []
   | .rpt => [0xF0]
   | .rpteq => [0xF1]
   | .rptne => [0xF2]) : List Byte) ++
  (if p.wide then [0xF3] else []) ++
  (match p.page with
   | some k => [BitVec.ofNat 8 (0xF4 + k)]
   | none => []) ++
  (if p.atom then [0xF7] else [])

/-- A byte of two fields of four bits. -/
def nibbles (hi lo : Nat) : Byte := BitVec.ofNat 8 (16 * hi + lo)

/-- The bytes of an immediate or a displacement of `n` bytes. -/
def immBytes (n : Nat) (v : Word) : List Byte := [v.truncate 8, (v >>> 8).truncate 8].take n

/-- OP of the two-operand group (R321). -/
def twoCode (op : HOp) : Nat :=
  match op with
  | .add => 1
  | .adc => 2
  | .sub => 3
  | .sbb => 4
  | .cmp => 5
  | .and => 6
  | .or => 7
  | .xor => 8
  | .test => 9
  | _ => 0

/-- The opcode of an operation with two registers (R321). -/
def rrCode (op : HOp) (a b : Reg) : Nat :=
  match op with
  | .mul => 0xB2
  | .mulhu => 0xB3
  | .mulhs => 0xB4
  | .divu => 0xB5
  | .divs => 0xB6
  | .scpy => 0xB7
  | .shl => 0xB8
  | .shr => 0xB9
  | .sar => 0xBA
  | .rol => 0xBB
  | .ror => 0xBC
  | .sfil => 0xBD
  | .scmp => 0xBE
  | .ssrc => 0xBF
  | .jmpfr => 0xCB
  | .callfr => 0xCC
  | .post => 0xFA
  | .postw => 0xFB
  | _ => 16 * twoCode op + 2 * a.g.toNat + b.g.toNat

/-- The opcode of a memory operand's operation (R321). -/
def memCode (op : HOp) (dir : Bool) (am : Nat) : Nat :=
  match op with
  | .ldb => 0xA0 + am
  | .ldbs => 0xA4 + am
  | .stb => 0xA8 + am
  | .lea => 0xAC + am
  | _ => 16 * twoCode op + 8 + 4 * dir.toNat + am

/-- The opcode and the low field of the mod byte of an operation with one register (R321). -/
def oneCode (op : HOp) (g : Bool) : Nat × Nat :=
  match op with
  | .not => (0xB0 + g.toNat, 1)
  | .inc => (0xB0 + g.toNat, 2)
  | .dec => (0xB0 + g.toNat, 3)
  | .sxb => (0xB0 + g.toNat, 4)
  | .zxb => (0xB0 + g.toNat, 5)
  | .swab => (0xB0 + g.toNat, 6)
  | .jmpr => (0xC9, 0)
  | .callr => (0xCA, 0)
  | .waitdb => (0xFC, 0)
  | _ => (0xB0 + g.toNat, 0)

/-- The opcode of a shift by a constant (R321). -/
def countCode (op : HOp) : Nat :=
  match op with
  | .shr => 0xC1
  | .sar => 0xC2
  | .rol => 0xC3
  | .ror => 0xC4
  | _ => 0xC0

/-- The second byte of the system group (R321). -/
def systemCode (op : HOp) : Nat :=
  match op with
  | .ret => 1
  | .retf => 2
  | .rett => 3
  | .tend => 4
  | .flat => 5
  | .wind => 6
  | .ei => 7
  | .di => 8
  | _ => 0

/-- The bytes from the opcode on, `n` of them (R318 to R321, R338). -/
def encodeBody (op : HOp) (f : HForm) (n : Nat) : List Byte :=
  let b : Nat → Byte := BitVec.ofNat 8
  match f with
  | .none => if n = 1 then [0xFF] else [0xF8, b (systemCode op)]
  | .rr x y => [b (rrCode op x y), nibbles x.code y.code]
  | .ri x v => b (16 * twoCode op + 4 + (if n = 3 then 2 else 0) + x.g.toNat) :: nibbles x.code 0 :: immBytes (n - 2) v
  | .mem r dir sp ptr am d =>
    b (memCode op dir am) :: nibbles r.code (8 * sp.toNat + ptr) :: immBytes (amBytes am) d
  | .one x => [b (oneCode op x.g).1, nibbles x.code (oneCode op x.g).2]
  | .count x k => [b (countCode op), nibbles x.code k]
  | .special x sr => [b ((if op = .mfs then 0xC5 else 0xC7) + sr / 16), nibbles x.code (sr % 16)]
  | .rel cond link d =>
    if op = .longJump then 0xCD :: b (cond + 16 * link.toNat) :: immBytes 2 d else [b (0xD0 + cond), d.truncate 8]
  | .far page o =>
    (if op = .jmpf then 0xCE else 0xCF) :: page.truncate 8 :: b (page.toNat / 256) :: immBytes 2 o
  | .imm v => [0xF9, v.truncate 8]
  | .customer k x y imm =>
    let codes := match x, y with
      | some x, some y => [nibbles x.code y.code]
      | _, _ => []
    b (0xE0 + k) :: codes ++ (match imm with
      | some v => immBytes (n - 2) v
      | none => [])

/-- The bytes of an instruction. -/
def hencode (i : HInstr) : List Byte :=
  let p := prefixBytes i.pre
  p ++ encodeBody i.op i.form (i.len - p.length)

end Sys2Proof.Machine
end

