-- ==== Sys2Proof/Machine/Hearth.lean ====
section
/-! DEFINITION. A hearth executing its instructions (11_hearth_architecture.md, 12_hearth_instruction_set.md): fetch,
data accesses, registers and windows, and what each instruction does. -/

namespace Sys2Proof.Machine

open Sys2Proof

/-- What keeps an instruction from retiring: a trap with its vector and TINFO, the clamp of its hearth, a stall. -/
inductive HStop where
  | trap (v info : Nat)
  | clamp
  | stall (x : HStall)
  deriving DecidableEq, Repr

/-- The state after a part of an instruction, with its result or with what stops the instruction. -/
abbrev HRes (α : Type) := State × Except HStop α

/-- Go on with the result of a part. -/
def HRes.bind {α β : Type} (r : HRes α) (f : State → α → HRes β) : HRes β :=
  match r with
  | (s, .ok a) => f s a
  | (s, .error e) => (s, .error e)

/-! ## Fetch (R292 to R295, R315, R336) -/

/-- Fetch the byte at an offset of the page PCODE. -/
def State.fetchByte (s : State) (h : HearthId) (o : Nat) : HRes Byte :=
  let x := s.hearth[h]
  let page := x.pcode.toNat
  let a := page * 65536 + o
  let pick := fun (w : Word) => if o % 2 = 0 then w.truncate 8 else (w >>> 8).truncate 8
  if page = 0x3FF then
    if 0x4000 ≤ o then (s, .error (.trap 5 a))
    else
      match Sparse.get 0 x.benchEcc (o / 2) with
      | 0 => (s, .ok (pick (Sparse.get 0 x.bench (o / 2))))
      | 1 => (s.hrtEvent h 4, .ok (pick (Sparse.get 0 x.bench (o / 2))))
      | _ => (s.hrtEvent h 5, .error (.trap 5 a))
  else if 0x100 ≤ page then (s, .error (.trap 5 a))
  else
    match s.bankAccess (hearthMaster h) (a / 2 * 2) .fetch true none with
    | (s, .ok w) => (s, .ok (pick w))
    | (s, .err) => (s, .error (.trap 5 a))
    | (s, .viol) => (s, .error .clamp)
    | (s, .wait b) => (s, .error (.stall (.bank b s.time.beat false)))

/-- The customer entry of opcode 0xE0 + k (R338, R345). -/
def State.ciEntry (s : State) (h : HearthId) (k : Nat) : Word := s.reg (hrtOff h.val + 0x100 + 2 * k)

/-- Fetch bytes until they are a whole instruction. -/
def State.fetchMore (s : State) (h : HearthId) (l : List Byte) : Nat → HRes (List Byte)
  | 0 => (s, .ok l)
  | f + 1 =>
    if needLen (s.ciEntry h) l ≤ l.length then (s, .ok l)
    else
      (s.fetchByte h ((s.hearth[h].pc.toNat + l.length) % 65536)).bind (fun s b => s.fetchMore h (l ++ [b]) f)

/-- The bytes of the instruction at PC, or of the repeated instruction in progress (R328, R337). -/
def State.fetchInstr (s : State) (h : HearthId) : HRes (List Byte) :=
  if s.hearth[h].rep ≠ [] then (s, .ok s.hearth[h].rep) else s.fetchMore h [] 12

/-! ## Registers (R301, R317, R330) -/

/-- The place of a register: flat file, globals, or the window at BASE (R301). -/
def Hearth.place (x : Hearth) (r : Reg) : Nat := if r.g then r.code else 8 + (8 * x.base + r.code) % 248

/-- A register of 16 bits. -/
def Hearth.get (x : Hearth) (r : Reg) : Word :=
  if x.flatMode then Sparse.get 0 x.flat r.code else Sparse.get 0 x.phys (x.place r)

def Hearth.put (x : Hearth) (r : Reg) (v : Word) : Hearth :=
  if x.flatMode then { x with flat := Sparse.set 0 x.flat r.code v }
  else { x with phys := Sparse.set 0 x.phys (x.place r) v }

/-- The register after `r`: the high word of its pair (R330). -/
def Reg.next (r : Reg) : Reg := { r with code := r.code + 1 }

/-- A register operand as a number: the register, or with WIDE its pair (R330). -/
def Hearth.operand (x : Hearth) (wide : Bool) (r : Reg) : Nat :=
  if wide then ofWords [x.get r, x.get r.next] else (x.get r).toNat

/-- Write a register operand. -/
def Hearth.setOperand (x : Hearth) (wide : Bool) (r : Reg) (v : Nat) : Hearth :=
  if wide then (x.put r (wordOf v 0)).put r.next (wordOf v 1) else x.put r (wordOf v 0)

/-- Bits of an operand. -/
def opBits (wide : Bool) : Nat := if wide then 32 else 16

/-! ## Data accesses (R298 to R300, R330, R331) -/

/-- The page of a data access: a page prefix, else `page` (R298, R316). -/
def Hearth.pageOf (x : Hearth) (p : Prefixes) (page : BitVec 10) : Nat :=
  match p.page with
  | some 0 => x.pxtra.toNat
  | some 1 => x.pstk.toNat
  | some _ => x.pcode.toNat
  | none => page.toNat

/-- The jig whose word at `o` of its registers an address is (R263). -/
def jigWordAt (a o : Nat) : Option JigId :=
  if 0x3080000 ≤ a ∧ a < 0x3080800 ∧ a % 0x40 = o then finOf 32 ((a - 0x3080000) / 0x40) else none

/-- The bank whose OWNER register an address is (R410). -/
def ownerAt (a : Nat) : Option (Fin 64) :=
  if 0x30C0000 ≤ a ∧ a < 0x30C0400 ∧ a % 16 = 0 then finOf 64 ((a - 0x30C0000) / 16) else none

/-- What an access of the address space answers to a hearth (R300, R407). -/
def hearthRes (a : Nat) (wr : Bool) (r : State × BRes) : HRes Word :=
  match r with
  | (s, .ok w) => (s, .ok w)
  | (s, .err) => (s, .error (.trap 4 a))
  | (s, .viol) => (s, .error .clamp)
  | (s, .wait b) => (s, .error (.stall (.bank b s.time.beat wr)))

/-- Read the word that holds address `a`: an empty jig RX word is waited for (R249). -/
def State.hRead (s : State) (h : HearthId) (a : Nat) : HRes Word :=
  let m := hearthMaster h
  if a / 65536 = 0x3FF then (s, .error (.trap 4 a))
  else match jigWordAt (a / 2 * 2) 0x1C with
    | some j =>
      if s.mayAccess m (a / 2 * 2 - 0x3000000) false then
        match s.jigRxGet true j with
        | (s, _, true) => (s, .error (.stall (.jigRx j true)))
        | (s, w, false) => (s, .ok w)
      else hearthRes a false (s.busRead m a)
    | none => hearthRes a false (s.busRead m a)

/-- Write to the word that holds address `a`: a full jig TX word is waited for (R249); a write of BNK_b_OWNER retires when
the handover has taken effect (R402), which `resume` tells. -/
def State.hWrite (s : State) (h : HearthId) (a : Nat) (sel : ByteSel) (v : Word) : HRes Unit :=
  let m := hearthMaster h
  let plain := fun (s : State) => (hearthRes a true (s.busWrite m a sel v)).bind (fun s _ => (s, .ok ()))
  if a / 65536 = 0x3FF then (s, .error (.trap 4 a))
  else match jigWordAt a 0x18, ownerAt a with
    | some j, _ =>
      if s.mayAccess m (a - 0x3000000) true && sel == .word then
        match s.jigTxPut true j v with
        | (s, true) => (s, .error (.stall (.jigTx j v true)))
        | (s, false) => (s, .ok ())
      else plain s
    | none, some b =>
      if s.hearth[h].resume then (s.mapHearth h (fun x => { x with resume := false }), .ok ())
      else (plain s).bind (fun s _ =>
        match s.bank.banks[b].handover with
        | some (_, w) => if w = m then (s, .error (.stall (.handover b))) else (s, .ok ())
        | none => (s, .ok ()))
    | none, none => plain s

/-- ALIGN at an odd offset (R299). -/
def State.aligned (s : State) (page o : Nat) : HRes Unit :=
  if o % 2 = 1 then (s, .error (.trap 3 (page * 65536 + o))) else (s, .ok ())

/-- The second word of a WIDE access lies in the same page (R299). -/
def nextOff (o : Nat) : Nat := (o + 2) % 65536

/-- Read a memory operand of 16 bits, or of 32 with WIDE: the low word first (R330, R477). -/
def State.readMem (s : State) (h : HearthId) (wide : Bool) (page o : Nat) : HRes Nat :=
  (s.aligned page o).bind fun s _ =>
  (s.hRead h (page * 65536 + o)).bind fun s lo =>
  if wide then (s.hRead h (page * 65536 + nextOff o)).bind fun s hi => (s, .ok (ofWords [lo, hi]))
  else (s, .ok lo.toNat)

/-- Write a memory operand. -/
def State.writeMem (s : State) (h : HearthId) (wide : Bool) (page o v : Nat) : HRes Unit :=
  (s.aligned page o).bind fun s _ =>
  (s.hWrite h (page * 65536 + o) .word (wordOf v 0)).bind fun s _ =>
  if wide then s.hWrite h (page * 65536 + nextOff o) .word (wordOf v 1) else (s, .ok ())

/-- One access of ATOM to a word of bank memory: the owner's, with the code checked (R331, R399, R409). -/
def State.atomWord (s : State) (h : HearthId) (a : Nat) (v : Option Word) : HRes Word :=
  hearthRes a true (s.bankAccess (hearthMaster h) a .write v.isNone (v.map (fun w _ => w)))

/-- Read a memory operand under ATOM; an address outside bank memory takes BUSERR (R331). -/
def State.atomRead (s : State) (h : HearthId) (wide : Bool) (page o : Nat) : HRes Nat :=
  (s.aligned page o).bind fun s _ =>
  if 0x100 ≤ page then (s, .error (.trap 4 (page * 65536 + o)))
  else
    (s.atomWord h (page * 65536 + o) none).bind fun s lo =>
    if wide then (s.atomWord h (page * 65536 + nextOff o) none).bind fun s hi => (s, .ok (ofWords [lo, hi]))
    else (s, .ok lo.toNat)

/-- Write a memory operand under ATOM, in the access that read it. -/
def State.atomWrite (s : State) (h : HearthId) (wide : Bool) (page o v : Nat) : HRes Unit :=
  (s.atomWord h (page * 65536 + o) (some (wordOf v 0))).bind fun s _ =>
  if wide then (s.atomWord h (page * 65536 + nextOff o) (some (wordOf v 1))).bind fun s _ => (s, .ok ())
  else (s, .ok ())

/-- The byte at an offset (R299, R477). -/
def State.readMemByte (s : State) (h : HearthId) (page o : Nat) : HRes Byte :=
  (s.hRead h (page * 65536 + o)).bind fun s w =>
  (s, .ok (if o % 2 = 0 then w.truncate 8 else (w >>> 8).truncate 8))

/-- Store a byte at an offset. -/
def State.writeMemByte (s : State) (h : HearthId) (page o : Nat) (b : Byte) : HRes Unit :=
  let v : Word := b.zeroExtend 16
  s.hWrite h (page * 65536 + o) (if o % 2 = 0 then .low else .high) (if o % 2 = 0 then v else v <<< 8)

/-- Page and offset of a memory operand (R298, R319). -/
def Hearth.memAddr (x : Hearth) (p : Prefixes) (sp : Bool) (ptr am : Nat) (d : Word) : Nat × Nat :=
  let q := x.get (reg0 ptr)
  (x.pageOf p (if sp then x.pstk else x.pdata), (if am = 0 then q else if am = 3 then d else q + d).toNat)

/-! ## The end of an instruction -/

/-- Where the next instruction lies: after this one, or at an offset of PCODE. -/
abbrev HNext := Option Word

/-- Change the hearth as an instruction that goes on with the next one. -/
def State.commit (s : State) (h : HearthId) (f : Hearth → Hearth) : HRes HNext := (s.mapHearth h f, .ok none)

/-- A register result with its flags. -/
def Hearth.result (x : Hearth) (wide : Bool) (r : Reg) (a : Alu) : Hearth :=
  let y := x.setOperand wide r a.val
  { y with fl := a.flags x.fl }

/-- Flags alone. -/
def Hearth.flagged (x : Hearth) (a : Alu) : Hearth := { x with fl := a.flags x.fl }

/-! ## The two-operand group (R321, R322, R331) -/

/-- The operation of the group on `d` and `s`. -/
def twoAlu (op : HOp) (w d s : Nat) (c : Bool) : Alu :=
  match op with
  | .add => aluAdd w d s false
  | .adc => aluAdd w d s c
  | .sub => aluSub w d s false
  | .sbb => aluSub w d s c
  | .cmp => aluSub w d s false
  | .and => aluLogic w (d &&& s)
  | .or => aluLogic w (d ||| s)
  | .xor => aluLogic w (d ^^^ s)
  | .test => aluLogic w (d &&& s)
  | _ => Alu.plain w s

/-- CMP and TEST write no destination (R321). -/
def onlyFlags (op : HOp) : Bool := op == .cmp || op == .test

/-- The result of the group in a register. -/
def Hearth.twoResult (x : Hearth) (op : HOp) (wide : Bool) (r : Reg) (a : Alu) : Hearth :=
  if onlyFlags op then x.flagged a else x.result wide r a

/-- The imm of a RI form, sign-extended to the operand (R330). -/
def immOf (wide : Bool) (imm : Word) : Nat := if wide then ofInt (asInt imm.toNat 16) 32 else imm.toNat

/-- An operation of the two-operand group. -/
def State.doTwo (s : State) (h : HearthId) (i : HInstr) : HRes HNext :=
  let x := s.hearth[h]
  let w := i.pre.wide
  let n := opBits w
  match i.form with
  | .rr a b => s.commit h (fun x => x.twoResult i.op w a (twoAlu i.op n (x.operand w a) (x.operand w b) x.flagC))
  | .ri a imm => s.commit h (fun x => x.twoResult i.op w a (twoAlu i.op n (x.operand w a) (immOf w imm) x.flagC))
  | .mem r false sp ptr am d =>
    let pa := x.memAddr i.pre sp ptr am d
    (s.readMem h w pa.1 pa.2).bind fun s m =>
    s.commit h (fun x => x.twoResult i.op w r (twoAlu i.op n (x.operand w r) m x.flagC))
  | .mem r true sp ptr am d =>
    let pa := x.memAddr i.pre sp ptr am d
    let alu := fun (m : Nat) => twoAlu i.op n m (x.operand w r) x.flagC
    if onlyFlags i.op then
      (s.readMem h w pa.1 pa.2).bind fun s m => s.commit h (fun x => x.flagged (alu m))
    else if i.pre.atom then
      (s.atomRead h w pa.1 pa.2).bind fun s m =>
      (s.atomWrite h w pa.1 pa.2 (alu m).val).bind fun s _ =>
      s.commit h (fun x => (x.flagged (alu m)).setOperand w r m)
    else
      (s.readMem h w pa.1 pa.2).bind fun s m =>
      (s.writeMem h w pa.1 pa.2 (alu m).val).bind fun s _ => s.commit h (fun x => x.flagged (alu m))
  | _ => (s, .ok none)

/-- LD: reg = mem. -/
def State.doLd (s : State) (h : HearthId) (i : HInstr) : HRes HNext :=
  match i.form with
  | .mem r _ sp ptr am d =>
    let pa := s.hearth[h].memAddr i.pre sp ptr am d
    (s.readMem h i.pre.wide pa.1 pa.2).bind fun s m => s.commit h (fun x => x.setOperand i.pre.wide r m)
  | _ => (s, .ok none)

/-- ST: mem = reg; under ATOM an exchange (R331). -/
def State.doSt (s : State) (h : HearthId) (i : HInstr) : HRes HNext :=
  match i.form with
  | .mem r _ sp ptr am d =>
    let x := s.hearth[h]
    let w := i.pre.wide
    let pa := x.memAddr i.pre sp ptr am d
    if i.pre.atom then
      (s.atomRead h w pa.1 pa.2).bind fun s m =>
      (s.atomWrite h w pa.1 pa.2 (x.operand w r)).bind fun s _ => s.commit h (fun x => x.setOperand w r m)
    else (s.writeMem h w pa.1 pa.2 (x.operand w r)).bind fun s _ => (s, .ok none)
  | _ => (s, .ok none)

/-- LDB and LDBS: a byte, zero- or sign-extended. -/
def State.doLoadByte (s : State) (h : HearthId) (i : HInstr) : HRes HNext :=
  match i.form with
  | .mem r _ sp ptr am d =>
    let pa := s.hearth[h].memAddr i.pre sp ptr am d
    (s.readMemByte h pa.1 pa.2).bind fun s b =>
    s.commit h (fun x => x.put r (if i.op = .ldbs then b.signExtend 16 else b.zeroExtend 16))
  | _ => (s, .ok none)

/-- STB: the low byte of a register. -/
def State.doStb (s : State) (h : HearthId) (i : HInstr) : HRes HNext :=
  match i.form with
  | .mem r _ sp ptr am d =>
    let x := s.hearth[h]
    let pa := x.memAddr i.pre sp ptr am d
    (s.writeMemByte h pa.1 pa.2 ((x.get r).truncate 8)).bind fun s _ => (s, .ok none)
  | _ => (s, .ok none)

/-- LEA: the offset. -/
def State.doLea (s : State) (h : HearthId) (i : HInstr) : HRes HNext :=
  match i.form with
  | .mem r _ sp ptr am d => s.commit h (fun x => x.put r (wordOf (x.memAddr i.pre sp ptr am d).2 0))
  | _ => (s, .ok none)

/-! ## One and two registers (R322, R325 to R327) -/

/-- The unary group on `d`. -/
def unaryAlu (op : HOp) (w d : Nat) : Alu :=
  match op with
  | .neg => aluSub w 0 d false
  | .not => Alu.zn w (2 ^ w - 1 - d)
  | .inc => aluInc w d
  | .dec => aluDec w d
  | .sxb => Alu.zn w (ofInt (asInt d 8) w)
  | .zxb => Alu.zn w (d % 256)
  | _ => Alu.zn w (d % 256 * 256 + d / 256)

def State.doUnary (s : State) (h : HearthId) (i : HInstr) : HRes HNext :=
  match i.form with
  | .one a => s.commit h (fun x =>
      x.result i.pre.wide a (unaryAlu i.op (opBits i.pre.wide) (x.operand i.pre.wide a)))
  | _ => (s, .ok none)

/-- MUL, MULHU, MULHS. -/
def State.doMul (s : State) (h : HearthId) (i : HInstr) : HRes HNext :=
  match i.form with
  | .rr a b => s.commit h (fun x =>
      let d := (x.get a).toNat
      let e := (x.get b).toNat
      x.result i.pre.wide a (if i.op = .mul then aluMul d e else aluMulh i.pre.wide (i.op == .mulhs) d e))
  | _ => (s, .ok none)

/-- Quotient to d, remainder to d + 1, with the flags of the quotient (R326). -/
def Hearth.divided (x : Hearth) (a : Reg) (q r : Nat) (v : Bool) : Hearth :=
  let y := (x.put a (wordOf q 0)).put a.next (wordOf r 0)
  { y with fl := (Alu.full 16 q false v).flags x.fl }

/-- DIVU and DIVS (R326). -/
def State.doDiv (s : State) (h : HearthId) (i : HInstr) : HRes HNext :=
  match i.form with
  | .rr a b =>
    let x := s.hearth[h]
    let d := (x.get a).toNat
    let e := (x.get b).toNat
    let signed := i.op == .divs
    if e = 0 then
      if x.dzt then (s, .error (.trap 2 0))
      else
        let r := divideZero signed d
        s.commit h (fun x => let y := x.divided a r.1 r.2 false
                             { y with fl := setBit y.fl 4 true })
    else
      let r := divide signed d e
      s.commit h (fun x => x.divided a r.1 r.2.1 r.2.2)
  | _ => (s, .ok none)

/-- The shift of an operation. -/
def shiftOf (op : HOp) : Shift :=
  match op with
  | .shl => .shl
  | .shr => .shr
  | .sar => .sar
  | .rol => .rol
  | _ => .ror

/-- Shifts and rotates, with the count in a register or in the instruction (R327). -/
def State.doShift (s : State) (h : HearthId) (i : HInstr) : HRes HNext :=
  let w := i.pre.wide
  match i.form with
  | .rr a b => s.commit h (fun x =>
      x.result w a (aluShift (shiftOf i.op) (opBits w) (x.operand w a) (x.get b).toNat))
  | .count a n => s.commit h (fun x => x.result w a (aluShift (shiftOf i.op) (opBits w) (x.operand w a) n))
  | _ => (s, .ok none)

/-! ## Block instructions (R334) -/

/-- A pointer steps upward, modulo 2^16. -/
def Hearth.step (x : Hearth) (wide : Bool) (r : Reg) : Hearth := x.put r (x.get r + (if wide then 4 else 2))

/-- SCPY, SFIL, SCMP and SSRC: one iteration. -/
def State.doBlock (s : State) (h : HearthId) (i : HInstr) : HRes HNext :=
  match i.form with
  | .rr a b =>
    let x := s.hearth[h]
    let w := i.pre.wide
    let src := x.pageOf i.pre x.pdata
    let dst := x.pxtra.toNat
    let pa := (x.get a).toNat
    let pb := (x.get b).toNat
    match i.op with
    | .scpy =>
      (s.readMem h w src pb).bind fun s v =>
      (s.writeMem h w dst pa v).bind fun s _ => s.commit h (fun x => (x.step w b).step w a)
    | .sfil => (s.writeMem h w dst pa (x.operand w b)).bind fun s _ => s.commit h (fun x => x.step w a)
    | .scmp =>
      (s.readMem h w src pb).bind fun s u =>
      (s.readMem h w dst pa).bind fun s v =>
      s.commit h (fun x => ((x.flagged (aluSub (opBits w) u v false)).step w b).step w a)
    | _ =>
      (s.readMem h w dst pa).bind fun s v =>
      s.commit h (fun y => (y.flagged (aluSub (opBits w) (x.operand w b) v false)).step w a)
  | _ => (s, .ok none)

/-! ## Special registers (R306) -/

/-- MFS d, sr. -/
def State.doMfs (s : State) (h : HearthId) (i : HInstr) : HRes HNext :=
  match i.form with
  | .special a sr =>
    let r := s.specialRead h sr
    r.1.commit h (fun x => x.put a r.2)
  | _ => (s, .ok none)

/-- MTS sr, s: numbers that are not written ignore it. -/
def State.doMts (s : State) (h : HearthId) (i : HInstr) : HRes HNext :=
  match i.form with
  | .special a sr => (s.specialWrite h sr (s.hearth[h].get a), .ok none)
  | _ => (s, .ok none)

/-! ## Transfers, windows (R302 to R304, R333) -/

/-- The offset of the next instruction. -/
def Hearth.nextPc (x : Hearth) (i : HInstr) : Word := x.pc + BitVec.ofNat 16 i.len

/-- Physical register of word `k` of block `b` of the window ring (R301). -/
def blockReg (b k : Nat) : Nat := 8 + 8 * (b % 31) + k

/-- Write the record of a block at PSTK:`o` (R302, R304). -/
def State.spill (s : State) (h : HearthId) (b o : Nat) : Nat → HRes Unit
  | 0 => (s, .ok ())
  | n + 1 =>
    let k := 7 - n
    (s.writeMem h false s.hearth[h].pstk.toNat ((o + 2 * k) % 65536)
      (Sparse.get 0 s.hearth[h].phys (blockReg b k)).toNat).bind fun s _ => s.spill h b o n

/-- Read a record at PSTK:`o` (R303, R304). -/
def State.fill (s : State) (h : HearthId) (o : Nat) : Nat → HRes (List Word)
  | 0 => (s, .ok [])
  | n + 1 =>
    let k := 7 - n
    (s.readMem h false s.hearth[h].pstk.toNat ((o + 2 * k) % 65536)).bind fun s v =>
    (s.fill h o n).bind fun s l => (s, .ok (wordOf v 0 :: l))

/-- A call: the return offset and, for a far call, the return PCODE are saved, and the window slides (R302, R304). `f`
sets where it goes. -/
def State.doCall (s : State) (h : HearthId) (i : HInstr) (far : Bool) (f : Hearth → Hearth) (dest : Word) : HRes HNext :=
  let x := s.hearth[h]
  let save := fun (x : Hearth) =>
    let y := x.put (reg0 15) (x.nextPc i)
    if far then y.put (reg0 14) (x.pcode.zeroExtend 16) else y
  if x.flatMode then (s.mapHearth h (fun x => f (save x)), .ok (some dest))
  else
    let slide := fun (x : Hearth) => { x with base := (x.base + 1) % 31 }
    if x.res < 30 then
      (s.mapHearth h (fun x => f { slide (save x) with res := x.res + 1 }), .ok (some dest))
    else if x.wsp.toNat < 16 + x.wslim.toNat then (s, .error (.trap 6 x.wsp.toNat))
    else
      let o := x.wsp.toNat - 16
      (s.spill h (x.base + 2) o 8).bind fun s _ =>
      (s.mapHearth h (fun x => f { slide (save x) with wsp := wordOf o 0 }), .ok (some dest))

/-- A return: where it goes comes from w7 and w6 as they stand, and the window slides back (R303, R304). -/
def State.doRet (s : State) (h : HearthId) (far : Bool) : HRes HNext :=
  let x := s.hearth[h]
  let page := fun (w : Word) (x : Hearth) => if far then { x with pcode := w.truncate 10 } else x
  if x.flatMode then (s.mapHearth h (page (x.get (reg0 14))), .ok (some (x.get (reg0 15))))
  else
    let back := fun (x : Hearth) => { x with base := (x.base + 30) % 31 }
    let dest := x.get (reg0 7)
    let go := page (x.get (reg0 6))
    if 1 < x.res then
      (s.mapHearth h (fun x => go { back x with res := x.res - 1 }), .ok (some dest))
    else if x.wsp = s.reg (hrtOff h.val + 0x14) &&& 0xFFFE then (s, .error (.trap 6 x.wsp.toNat))
    else
      (s.fill h x.wsp.toNat 8).bind fun s l =>
      (s.mapHearth h (fun x => go { back x with
        wsp := x.wsp + 16, phys := Sparse.setAll 0 x.phys (blockReg (x.base + 30) 0) l }), .ok (some dest))

/-- Relative transfers: Jcc and the long jump, a near call with LINK (R323, R333). -/
def State.doRel (s : State) (h : HearthId) (i : HInstr) : HRes HNext :=
  match i.form with
  | .rel cond link d =>
    let x := s.hearth[h]
    let dest := x.nextPc i + d
    if link then s.doCall h i false (fun x => x) dest
    else if condHolds cond x.fl x.cnt then (s, .ok (some dest)) else (s, .ok none)
  | _ => (s, .ok none)

/-- Transfers through registers: JMPR, CALLR, JMPFR, CALLFR (R333). -/
def State.doRegJump (s : State) (h : HearthId) (i : HInstr) : HRes HNext :=
  let x := s.hearth[h]
  match i.form with
  | .one a =>
    if i.op = .callr then s.doCall h i false (fun x => x) (x.get a) else (s, .ok (some (x.get a)))
  | .rr a b =>
    let p := (x.get a).truncate 10
    let go := fun (x : Hearth) => { x with pcode := p }
    if i.op = .callfr then s.doCall h i true go (x.get b) else (s.mapHearth h go, .ok (some (x.get b)))
  | _ => (s, .ok none)

/-- JMPF and CALLF (R333). -/
def State.doFar (s : State) (h : HearthId) (i : HInstr) : HRes HNext :=
  match i.form with
  | .far p o =>
    let go := fun (x : Hearth) => { x with pcode := p }
    if i.op = .callf then s.doCall h i true go o else (s.mapHearth h go, .ok (some o))
  | _ => (s, .ok none)

/-! ## The system group and flues (R305, R307, R309, R335) -/

/-- RETT: PC comes from TPC (R309). -/
def State.doRett (s : State) (h : HearthId) : HRes HNext := (s.returnTrap h, .ok (some s.hearth[h].tpc))

/-- TEND: the task ends, the hearth enters IDLE (R68, R69, R289, R309). -/
def State.doTend (s : State) (h : HearthId) : HRes HNext :=
  ((s.taskEnd h).mapHearth h (fun x => { x with
    st := .idle, wdgEnd := none, wdgTrapped := false, fl := setBit x.fl 9 false }), .ok none)

/-- A bit of FL is set or cleared. -/
def State.doFlag (s : State) (h : HearthId) (i : Nat) (b : Bool) : HRes HNext :=
  s.commit h (fun x => { x with fl := setBit x.fl i b })

/-- POST and POSTW: the notice in the pair FA goes to the flue in FB; only its sender may post, and any
other hearth is clamped at the boundary after the instruction (R312, R335, R422 to R424). -/
def State.doPost (s : State) (h : HearthId) (i : HInstr) : HRes HNext :=
  match i.form with
  | .rr a b =>
    let x := s.hearth[h]
    let m := hearthMaster h
    match finOf 64 (fld (x.get b) 0 6) with
    | some f =>
      if !s.isSender f.val m then
        ((s.mapHearth h (fun x => { x with pc := x.nextPc i })).regViolation m (fluOff f.val + 6) true, .error .clamp)
      else match s.post m f (x.get a) (x.get a.next) with
        | (s, true) => s.doFlag h 0 false
        | (s, false) => if i.op = .postw then (s, .error (.stall .postw)) else s.doFlag h 0 true
    | none => (s, .ok none)
  | _ => (s, .ok none)

/-- WAITDB: the lowest ready flue of the wait set, 0xFFFF with an empty set (R335, R430). -/
def State.doWaitdb (s : State) (h : HearthId) (i : HInstr) : HRes HNext :=
  match i.form with
  | .one a =>
    if s.waitSetEmpty h then s.commit h (fun x => x.put a 0xFFFF)
    else match s.readyFlue h with
      | some f => s.commit h (fun x => x.put a (BitVec.ofNat 16 f.val))
      | none => (s, .error (.stall .waitdb))
  | _ => (s, .ok none)

/-! ## Customer instructions (R338 to R341) -/

/-- What a sequence holds until END: temporaries, pending flags with whether the sequence wrote them, writes to A and B
(R341). -/
structure Held' where
  t : List Word
  fl : Word
  wrote : Bool
  a : Option Word
  b : Option Word
  deriving DecidableEq, Repr

/-- Word `k` of micro-operation `i`. -/
def Hearth.uop (x : Hearth) (i k : Nat) : Word := Sparse.get 0 x.uops (3 * i + k)

/-- A source of a micro-operation; none where the sequence has no such operand (R339, R341). -/
def uopSrc (x : Hearth) (a b : Option Reg) (imm : Option Word) (t : Held') (c : Nat) : Option Word :=
  match c with
  | 0 => a.map x.get
  | 1 => b.map x.get
  | 2 => imm
  | 7 => some x.cnt
  | _ => some (nthD t.t (c - 3) 0)

/-- Which sources a micro-operation uses (R340). -/
def usesSrc1 (u cond : Nat) : Bool := u != 18 && (u != 19 || cond == 6 || cond == 7)
def usesSrc2 (u : Nat) : Bool := decide (1 ≤ u && u ≤ 15) || u == 17 || u == 21 || decide (24 ≤ u && u ≤ 28)

/-- The shift of a micro-operation 8 to 12. -/
def uopShift (u : Nat) : Shift :=
  match u with
  | 8 => .shl
  | 9 => .shr
  | 10 => .sar
  | 11 => .rol
  | _ => .ror

/-- CRC8: eight steps of a 16-bit CRC, most significant bit first (R340). -/
def crcStep (k : Word) (crc : Word) (b : Bool) : Word := if crc.msb != b then (crc <<< 1) ^^^ k else crc <<< 1
def crc8 (k crc : Word) (d : Word) : Word :=
  (List.range 8).foldl (fun c i => crcStep k c (d.getLsbD (7 - i))) crc

/-- EXT and INS (R340). -/
def uopExt (k p : Word) : Nat := bitsAt p.toNat (fld k 0 4) (fld k 4 4 + 1)
def uopIns (k p q : Word) : Word := setFld p (fld k 0 4) (fld k 4 4 + 1) (bitsAt q.toNat 0 (fld k 4 4 + 1))

/-- Leading zeros and 1 bits. -/
def leadingZeros (p : Word) : Nat := ((List.range 16).takeWhile (fun i => !p.getLsbD (15 - i))).length
def onesIn (p : Word) : Nat := ((List.range 16).filter (fun i => p.getLsbD i)).length

/-- A value with the flags of an operation that is not arithmetic or logic: Z and N from it, C and V cleared (R340). -/
def aluOther (x : Nat) : Alu := Alu.full 16 x false false

/-- A micro-operation that makes no access and no branch (R340). -/
def uopAlu (u : Nat) (k p q : Word) (c : Bool) : Alu :=
  let d := p.toNat
  let e := q.toNat
  match u with
  | 0 => aluOther d
  | 1 => aluAdd 16 d e false
  | 2 => aluAdd 16 d e c
  | 3 => aluSub 16 d e false
  | 4 => aluSub 16 d e c
  | 5 => aluLogic 16 (d &&& e)
  | 6 => aluLogic 16 (d ||| e)
  | 7 => aluLogic 16 (d ^^^ e)
  | 13 => aluMul d e
  | 14 => aluMulh false false d e
  | 15 => aluMulh false true d e
  | 18 => aluOther k.toNat
  | 20 => aluOther (uopExt k p)
  | 21 => aluOther (uopIns k p q).toNat
  | 22 => aluOther (leadingZeros p)
  | 23 => aluOther (onesIn p)
  | 24 => aluOther (if p.toInt ≤ q.toInt then d else e)
  | 25 => aluOther (if p.toInt ≤ q.toInt then e else d)
  | 26 => aluOther (crc8 k p q).toNat
  | 27 => aluOther (min d e)
  | 28 => aluOther (max d e)
  | _ => aluShift (uopShift u) 16 d e

/-- Keep a result: to A, B, a temporary or nowhere, and to the pending flags with FLG (R339, R341). -/
def Held'.keep (t : Held') (dst : Nat) (flg : Bool) (a : Alu) : Held' :=
  let v := wordOf a.val 0
  let t := if flg then { t with fl := a.flags t.fl, wrote := t.wrote || a.z.isSome } else t
  match dst with
  | 0 => { t with a := some v }
  | 1 => { t with b := some v }
  | 3 => { t with t := t.t.set 0 v }
  | 4 => { t with t := t.t.set 1 v }
  | 5 => { t with t := t.t.set 2 v }
  | 6 => { t with t := t.t.set 3 v }
  | _ => t

/-- COND of a branch on the pending flags (R339). -/
def uopCond (cond : Nat) (fl p : Word) : Bool :=
  match cond with
  | 0 => true
  | 1 => bit fl 1
  | 2 => !bit fl 1
  | 3 => bit fl 0
  | 4 => !bit fl 0
  | 5 => bit fl 2
  | 6 => p == 0
  | _ => p != 0

/-- The held effects take effect together at END (R341). -/
def State.commitHeldOps (s : State) (h : HearthId) (a b : Option Reg) (t : Held') : HRes HNext :=
  let x := s.hearth[h]
  let clash := a.isSome && b.isSome && a.map x.place == b.map x.place && t.a.isSome && t.b.isSome && t.a != t.b
  let free := s.free
  let s := if clash then s.takeFree.1 else s
  let put := fun (x : Hearth) (r : Option Reg) (v : Option Word) =>
    match r, v with
    | some r, some v => x.put r (if clash then Config.bothHeld free else v)
    | _, _ => x
  s.commit h (fun x =>
    let y := put (put x a t.a) b t.b
    if t.wrote then { y with fl := merge 0x002F x.fl t.fl } else y)

/-- Page of a memory micro-operation (R338, R339). -/
def Hearth.uopPage (x : Hearth) (p : Prefixes) (pg : Nat) : Nat :=
  x.pageOf p (match pg with
    | 0 => x.pdata
    | 1 => x.pstk
    | 2 => x.pxtra
    | _ => x.pcode)

/-- A customer sequence from micro-operation `i` on, of which `f` more may start (R341). -/
def State.runUops (s : State) (h : HearthId) (p : Prefixes) (a b : Option Reg) (imm : Option Word) (t : Held')
    (i : Nat) : Nat → HRes HNext
  | 0 => (s, .error (.trap 9 i))
  | f + 1 =>
    let x := s.hearth[h]
    let w0 := x.uop i 0
    let w2 := x.uop i 2
    let u := fld w0 0 5
    let cond := fld w2 9 3
    let dst := fld w0 5 3
    let s1 := if usesSrc1 u cond then uopSrc x a b imm t (fld w0 8 3) else some 0
    let s2 := if usesSrc2 u then uopSrc x a b imm t (fld w0 11 3) else some 0
    let noDst := u != 17 && u != 19 && ((dst == 0 && a.isNone) || (dst == 1 && b.isNone))
    let go := fun (s : State) (t : Held') =>
      if bit w0 15 then s.commitHeldOps h a b t
      else if i = 511 then (s, .error (.trap 9 511))
      else s.runUops h p a b imm t (i + 1) f
    if (List.range 3).any (fun k => Sparse.get 0 x.uopEcc (3 * i + k) == 2) || noDst then (s, .error (.trap 9 i))
    else match s1, s2 with
      | some v1, some v2 =>
        let o := (v1 + x.uop i 1).toNat
        let page := x.uopPage p (fld w2 12 2)
        if u = 16 then (s.readMem h false page o).bind fun s v => go s (t.keep dst (bit w0 14) (aluOther v))
        else if u = 17 then
          (s.writeMem h false page o v2.toNat).bind fun s _ => go s (t.keep 2 (bit w0 14) (aluOther v2.toNat))
        else if u = 19 then
          if uopCond cond t.fl v1 then s.runUops h p a b imm t (fld w2 0 9) f else go s t
        else go s (t.keep dst (bit w0 14) (uopAlu u (x.uop i 1) v1 v2 (bit t.fl 0)))
      | _, _ => (s, .error (.trap 9 i))

/-- A customer instruction: one iteration of its sequence (R338, R341). -/
def State.doCustomer (s : State) (h : HearthId) (i : HInstr) : HRes HNext :=
  match i.form with
  | .customer k a b imm =>
    let t : Held' := { t := [0, 0, 0, 0], fl := s.hearth[h].fl, wrote := false, a := none, b := none }
    s.runUops h i.pre a b imm t (fld (s.ciEntry h k) 0 9) 64
  | _ => (s, .ok none)

/-! ## One instruction -/

/-- What an instruction does, once, for the operations that the table of R322 lists. -/
def State.hexec (s : State) (h : HearthId) (i : HInstr) : HRes HNext :=
  match i.op with
  | .ld => s.doLd h i
  | .st => s.doSt h i
  | .ldb => s.doLoadByte h i
  | .ldbs => s.doLoadByte h i
  | .stb => s.doStb h i
  | .lea => s.doLea h i
  | .neg => s.doUnary h i
  | .not => s.doUnary h i
  | .inc => s.doUnary h i
  | .dec => s.doUnary h i
  | .sxb => s.doUnary h i
  | .zxb => s.doUnary h i
  | .swab => s.doUnary h i
  | .mul => s.doMul h i
  | .mulhu => s.doMul h i
  | .mulhs => s.doMul h i
  | .divu => s.doDiv h i
  | .divs => s.doDiv h i
  | .scpy => s.doBlock h i
  | .sfil => s.doBlock h i
  | .scmp => s.doBlock h i
  | .ssrc => s.doBlock h i
  | .shl => s.doShift h i
  | .shr => s.doShift h i
  | .sar => s.doShift h i
  | .rol => s.doShift h i
  | .ror => s.doShift h i
  | .mfs => s.doMfs h i
  | .mts => s.doMts h i
  | .jmpr => s.doRegJump h i
  | .callr => s.doRegJump h i
  | .jmpfr => s.doRegJump h i
  | .callfr => s.doRegJump h i
  | .longJump => s.doRel h i
  | .jcc => s.doRel h i
  | .jmpf => s.doFar h i
  | .callf => s.doFar h i
  | .custom => s.doCustomer h i
  | .nop => (s, .ok none)
  | .ret => s.doRet h false
  | .retf => s.doRet h true
  | .rett => s.doRett h
  | .tend => s.doTend h
  | .flat => s.doFlag h 8 true
  | .wind => s.doFlag h 8 false
  | .ei => s.doFlag h 7 true
  | .di => s.doFlag h 7 false
  | .trap => (s, .ok none)
  | .post => s.doPost h i
  | .postw => s.doPost h i
  | .waitdb => s.doWaitdb h i
  | _ => s.doTwo h i

/-- An instruction retires: PC goes on to the next one (R292). -/
def State.retire (s : State) (h : HearthId) (i : HInstr) (pc : Word) (next : HNext) : State :=
  s.mapHearth h (fun x => { x with
    pc := next.getD (pc + BitVec.ofNat 16 i.len), rep := [], resume := false })

/-- What stops an instruction: the trap is taken, or the hearth stalls; a clamp has taken place (R300, R309). -/
def State.hstop (s : State) (h : HearthId) (pc : Word) (e : HStop) : State :=
  match e with
  | .trap v info => s.takeTrap h v info pc
  | .clamp => s
  | .stall x => s.mapHearth h (fun y => { y with stall := some x })

/-- Whether a repeated instruction stops after an iteration (R328). -/
def Hearth.repeatEnds (x : Hearth) (r : Rep) : Bool :=
  x.cnt == 0 ||
  (match r with
   | .rpteq => !x.flagZ
   | .rptne => x.flagZ
   | _ => false)

/-- The instruction with its repeat prefix: one iteration of it (R328). -/
def State.runInstr (s : State) (h : HearthId) (l : List Byte) (i : HInstr) : State :=
  let pc := s.hearth[h].pc
  if i.op = .trap then
    match i.form with
    | .imm v => s.takeTrap h 8 v.toNat (s.hearth[h].nextPc i)
    | _ => s
  else if i.pre.rep ≠ .once ∧ s.hearth[h].cnt = 0 then s.retire h i pc none
  else match s.hexec h i with
    | (s, .error e) => s.hstop h pc e
    | (s, .ok next) =>
      if i.pre.rep = .once then s.retire h i pc next
      else
        let s := s.mapHearth h (fun x => { x with cnt := x.cnt - 1 })
        if s.hearth[h].repeatEnds i.pre.rep then s.retire h i pc none
        else s.mapHearth h (fun x => { x with rep := l, resume := false })

/-- Decode for a hearth as it stands. -/
def State.hdec (s : State) (h : HearthId) (l : List Byte) : Except DErr HInstr :=
  hdecode s.hearth[h].flatMode s.hearth[h].tact (s.ciEntry h) l

/-- Whether a hearth begins an instruction: RUNNING and not stalled (R289). -/
def State.hearthGoes (s : State) (h : HearthId) : Bool :=
  s.hearth[h].st == .running && s.hearth[h].stall.isNone

/-- The instruction at PC, whatever it is. -/
def State.hearthRun (s : State) (h : HearthId) : State :=
  if s.hearthGoes h then
    let pc := s.hearth[h].pc
    match s.fetchInstr h with
    | (s, .error e) => s.hstop h pc e
    | (s, .ok l) => match s.hdec h l with
      | .ok i => s.runInstr h l i
      | .error .illegal => s.takeTrap h 0 0 pc
      | .error .illpfx => s.takeTrap h 1 0 pc
  else s

/-- The instruction of a hearth that the command names: it runs where that operation stands at PC. A fetch that clamps or
stalls the hearth takes place under any name. -/
def State.hearthDo (s : State) (h : HearthId) (op : HOp) : State :=
  if s.hearthGoes h then
    match s.fetchInstr h with
    | (_, .error (.trap _ _)) => s
    | (t, .error e) => t.hstop h s.hearth[h].pc e
    | (t, .ok l) => match t.hdec h l with
      | .ok i => if i.op = op then t.runInstr h l i else s
      | .error _ => s
  else s

/-- ILLEGAL_OPCODE: bytes at PC that cannot be fetched or decoded trap (R320, R336). -/
def State.hearthBad (s : State) (h : HearthId) : State :=
  if s.hearthGoes h then
    match s.fetchInstr h with
    | (_, .error _) => s.hearthRun h
    | (t, .ok l) => match t.hdec h l with
      | .ok _ => s
      | .error _ => s.hearthRun h
  else s

/-- A stalled hearth goes on: its instruction is begun again. -/
def State.hearthResume (s : State) (h : HearthId) : State :=
  (s.mapHearth h (fun x => { x with stall := none })).hearthRun h

/-- POSTW_COMPLETE: the flue that a POSTW waits for is empty (R423). -/
def State.postwDone (s : State) (h : HearthId) : State :=
  if s.hearth[h].stall = some .postw then s.hearthResume h else s

/-- WAITDB_WAKE: a flue of the wait set has become ready (R430). -/
def State.waitdbDone (s : State) (h : HearthId) : State :=
  if s.hearth[h].stall = some .waitdb then s.hearthResume h else s

/-- HEARTH_JIG_STALL_END: the jig word that a hearth waits for is ready (R249). An access made by a command of its own
ends with it; an instruction is begun again. -/
def State.jigStallEnd (s : State) (h : HearthId) : State :=
  match s.hearth[h].stall with
  | some (.jigTx j v own) =>
    if s.jig[j].txFull then s
    else if own then s.hearthResume h
    else ((s.jigTxPut true j v).1.mapHearth h (fun x => { x with stall := none })).respond (hearthMaster h) 0 false
  | some (.jigRx j own) =>
    if !s.jig[j].rxFull then s
    else if own then s.hearthResume h
    else
      let r := s.jigRxGet true j
      (r.1.mapHearth h (fun x => { x with stall := none })).respond (hearthMaster h) r.2.1 false
  | _ => s

end Sys2Proof.Machine
end

