-- ==== Sys2Proof/Machine/HearthCmds.lean ====
section
/-! DEFINITION. The commands of the hearth's instruction set (12_hearth_instruction_set.md): a hearth runs the instruction
that it fetches at PC, under the command that names its operation (R322). -/

namespace Sys2Proof.Machine

open Sys2Proof

def execMov (h : HearthId) (s : State) : Host.Outcome State Fault Refusal := .next (s.alive fun s => s.hearthDo h .mov)

def execLd (h : HearthId) (s : State) : Host.Outcome State Fault Refusal := .next (s.alive fun s => s.hearthDo h .ld)

def execSt (h : HearthId) (s : State) : Host.Outcome State Fault Refusal := .next (s.alive fun s => s.hearthDo h .st)

def execAdd (h : HearthId) (s : State) : Host.Outcome State Fault Refusal := .next (s.alive fun s => s.hearthDo h .add)

def execAdc (h : HearthId) (s : State) : Host.Outcome State Fault Refusal := .next (s.alive fun s => s.hearthDo h .adc)

def execSub (h : HearthId) (s : State) : Host.Outcome State Fault Refusal := .next (s.alive fun s => s.hearthDo h .sub)

def execSbb (h : HearthId) (s : State) : Host.Outcome State Fault Refusal := .next (s.alive fun s => s.hearthDo h .sbb)

def execCmp (h : HearthId) (s : State) : Host.Outcome State Fault Refusal := .next (s.alive fun s => s.hearthDo h .cmp)

def execAnd (h : HearthId) (s : State) : Host.Outcome State Fault Refusal := .next (s.alive fun s => s.hearthDo h .and)

def execOr (h : HearthId) (s : State) : Host.Outcome State Fault Refusal := .next (s.alive fun s => s.hearthDo h .or)

def execXor (h : HearthId) (s : State) : Host.Outcome State Fault Refusal := .next (s.alive fun s => s.hearthDo h .xor)

def execTest (h : HearthId) (s : State) : Host.Outcome State Fault Refusal :=
  .next (s.alive fun s => s.hearthDo h .test)

def execLdb (h : HearthId) (s : State) : Host.Outcome State Fault Refusal := .next (s.alive fun s => s.hearthDo h .ldb)

def execLdbs (h : HearthId) (s : State) : Host.Outcome State Fault Refusal :=
  .next (s.alive fun s => s.hearthDo h .ldbs)

def execStb (h : HearthId) (s : State) : Host.Outcome State Fault Refusal := .next (s.alive fun s => s.hearthDo h .stb)

def execLea (h : HearthId) (s : State) : Host.Outcome State Fault Refusal := .next (s.alive fun s => s.hearthDo h .lea)

def execNeg (h : HearthId) (s : State) : Host.Outcome State Fault Refusal := .next (s.alive fun s => s.hearthDo h .neg)

def execNot (h : HearthId) (s : State) : Host.Outcome State Fault Refusal := .next (s.alive fun s => s.hearthDo h .not)

def execInc (h : HearthId) (s : State) : Host.Outcome State Fault Refusal := .next (s.alive fun s => s.hearthDo h .inc)

def execDec (h : HearthId) (s : State) : Host.Outcome State Fault Refusal := .next (s.alive fun s => s.hearthDo h .dec)

def execSxb (h : HearthId) (s : State) : Host.Outcome State Fault Refusal := .next (s.alive fun s => s.hearthDo h .sxb)

def execZxb (h : HearthId) (s : State) : Host.Outcome State Fault Refusal := .next (s.alive fun s => s.hearthDo h .zxb)

def execSwab (h : HearthId) (s : State) : Host.Outcome State Fault Refusal :=
  .next (s.alive fun s => s.hearthDo h .swab)

def execMul (h : HearthId) (s : State) : Host.Outcome State Fault Refusal := .next (s.alive fun s => s.hearthDo h .mul)

def execMulhu (h : HearthId) (s : State) : Host.Outcome State Fault Refusal :=
  .next (s.alive fun s => s.hearthDo h .mulhu)

def execMulhs (h : HearthId) (s : State) : Host.Outcome State Fault Refusal :=
  .next (s.alive fun s => s.hearthDo h .mulhs)

def execDivu (h : HearthId) (s : State) : Host.Outcome State Fault Refusal :=
  .next (s.alive fun s => s.hearthDo h .divu)

def execDivs (h : HearthId) (s : State) : Host.Outcome State Fault Refusal :=
  .next (s.alive fun s => s.hearthDo h .divs)

def execScpy (h : HearthId) (s : State) : Host.Outcome State Fault Refusal :=
  .next (s.alive fun s => s.hearthDo h .scpy)

def execSfil (h : HearthId) (s : State) : Host.Outcome State Fault Refusal :=
  .next (s.alive fun s => s.hearthDo h .sfil)

def execScmp (h : HearthId) (s : State) : Host.Outcome State Fault Refusal :=
  .next (s.alive fun s => s.hearthDo h .scmp)

def execSsrc (h : HearthId) (s : State) : Host.Outcome State Fault Refusal :=
  .next (s.alive fun s => s.hearthDo h .ssrc)

def execShl (h : HearthId) (s : State) : Host.Outcome State Fault Refusal := .next (s.alive fun s => s.hearthDo h .shl)

def execShr (h : HearthId) (s : State) : Host.Outcome State Fault Refusal := .next (s.alive fun s => s.hearthDo h .shr)

def execSar (h : HearthId) (s : State) : Host.Outcome State Fault Refusal := .next (s.alive fun s => s.hearthDo h .sar)

def execRol (h : HearthId) (s : State) : Host.Outcome State Fault Refusal := .next (s.alive fun s => s.hearthDo h .rol)

def execRor (h : HearthId) (s : State) : Host.Outcome State Fault Refusal := .next (s.alive fun s => s.hearthDo h .ror)

def execMfs (h : HearthId) (s : State) : Host.Outcome State Fault Refusal := .next (s.alive fun s => s.hearthDo h .mfs)

def execMts (h : HearthId) (s : State) : Host.Outcome State Fault Refusal := .next (s.alive fun s => s.hearthDo h .mts)

def execJmpr (h : HearthId) (s : State) : Host.Outcome State Fault Refusal :=
  .next (s.alive fun s => s.hearthDo h .jmpr)

def execCallr (h : HearthId) (s : State) : Host.Outcome State Fault Refusal :=
  .next (s.alive fun s => s.hearthDo h .callr)

def execJmpfr (h : HearthId) (s : State) : Host.Outcome State Fault Refusal :=
  .next (s.alive fun s => s.hearthDo h .jmpfr)

def execCallfr (h : HearthId) (s : State) : Host.Outcome State Fault Refusal :=
  .next (s.alive fun s => s.hearthDo h .callfr)

def execLongJump (h : HearthId) (s : State) : Host.Outcome State Fault Refusal :=
  .next (s.alive fun s => s.hearthDo h .longJump)

def execJmpf (h : HearthId) (s : State) : Host.Outcome State Fault Refusal :=
  .next (s.alive fun s => s.hearthDo h .jmpf)

def execCallf (h : HearthId) (s : State) : Host.Outcome State Fault Refusal :=
  .next (s.alive fun s => s.hearthDo h .callf)

def execJcc (h : HearthId) (s : State) : Host.Outcome State Fault Refusal := .next (s.alive fun s => s.hearthDo h .jcc)

def execCustomerInstruction (h : HearthId) (s : State) : Host.Outcome State Fault Refusal :=
  .next (s.alive fun s => s.hearthDo h .custom)

def execNop (h : HearthId) (s : State) : Host.Outcome State Fault Refusal := .next (s.alive fun s => s.hearthDo h .nop)

def execRet (h : HearthId) (s : State) : Host.Outcome State Fault Refusal := .next (s.alive fun s => s.hearthDo h .ret)

def execRetf (h : HearthId) (s : State) : Host.Outcome State Fault Refusal :=
  .next (s.alive fun s => s.hearthDo h .retf)

def execRett (h : HearthId) (s : State) : Host.Outcome State Fault Refusal :=
  .next (s.alive fun s => s.hearthDo h .rett)

def execTend (h : HearthId) (s : State) : Host.Outcome State Fault Refusal :=
  .next (s.alive fun s => s.hearthDo h .tend)

def execFlat (h : HearthId) (s : State) : Host.Outcome State Fault Refusal :=
  .next (s.alive fun s => s.hearthDo h .flat)

def execWind (h : HearthId) (s : State) : Host.Outcome State Fault Refusal :=
  .next (s.alive fun s => s.hearthDo h .wind)

def execEi (h : HearthId) (s : State) : Host.Outcome State Fault Refusal := .next (s.alive fun s => s.hearthDo h .ei)

def execDi (h : HearthId) (s : State) : Host.Outcome State Fault Refusal := .next (s.alive fun s => s.hearthDo h .di)

def execTrap (h : HearthId) (s : State) : Host.Outcome State Fault Refusal :=
  .next (s.alive fun s => s.hearthDo h .trap)

def execPost (h : HearthId) (s : State) : Host.Outcome State Fault Refusal :=
  .next (s.alive fun s => s.hearthDo h .post)

def execPostw (h : HearthId) (s : State) : Host.Outcome State Fault Refusal :=
  .next (s.alive fun s => s.hearthDo h .postw)

def execPostwComplete (h : HearthId) (s : State) : Host.Outcome State Fault Refusal :=
  .next (s.alive fun s => s.postwDone h)

def execWaitdb (h : HearthId) (s : State) : Host.Outcome State Fault Refusal :=
  .next (s.alive fun s => s.hearthDo h .waitdb)

def execWaitdbWake (h : HearthId) (s : State) : Host.Outcome State Fault Refusal :=
  .next (s.alive fun s => s.waitdbDone h)

def execIllegalOpcode (h : HearthId) (s : State) : Host.Outcome State Fault Refusal :=
  .next (s.alive fun s => s.hearthBad h)

def execHearthJigStallEnd (h : HearthId) (s : State) : Host.Outcome State Fault Refusal :=
  .next (s.alive fun s => s.jigStallEnd h)

end Sys2Proof.Machine
end

