-- ==== Sys2Proof/Machine/HostReq.lean ====
section
/-! DEFINITION. The requests of the hosts (R411 to R417, R419), and the end of the waits at a bank: the wake that ends and
the handover that takes effect (R402, R407). -/

namespace Sys2Proof.Machine

open Sys2Proof

/-! ## The accesses of a host (R413, R415) -/

/-- One access of a host: an error response where the port is fenced or no longer works (R411, R419). -/
def State.hostAccess (s : State) (n : Fin 4) (q : HAcc) : State × BRes :=
  let m := hostMaster n
  if s.canAct m then
    match q.w with
    | some v => s.busWrite m q.addr q.sel v
    | none => s.busRead m q.addr
  else (s, .err)

/-- What the port keeps of an access that was answered, at H0 or H1: an error completes the whole read request with
Completer Abort and no data (R413). -/
def HostPort.tookPcie (x : HostPort) (q : HAcc) (r : Option Word) : HostPort :=
  match q.w, r with
  | some _, _ => x
  | none, some w => { x with out := x.out ++ [w &&& selMask q.sel] }
  | none, none => { x with abort := true, out := [], queue := x.queue.dropWhile (fun y => y.w.isNone && !y.first) }

/-- The same at H2 or H3: an error sets ERR, a word read with an error is 0xFFFF (R414, R415). -/
def HostPort.tookSpi (x : HostPort) (q : HAcc) (r : Option Word) : HostPort :=
  let x := { x with err := x.err || r.isNone }
  match q.w with
  | some _ => x
  | none => { x with out := x.out ++ [r.getD 0xFFFF] }

/-- An access has been answered. -/
def State.hostTook (s : State) (n : Fin 4) (q : HAcc) (r : Option Word) : State :=
  (s.mapHost n (fun x => if n.val < 2 then x.tookPcie q r else x.tookSpi q r)).respond (hostMaster n) (r.getD 0) r.isNone

/-- The answer of an access that does not wait. -/
def BRes.word? : BRes → Option Word
  | .ok w => some w
  | _ => none

/-- Whether a handover that a master has written is still held (R402). -/
def State.ownHandover (s : State) (m : Master) : Bool :=
  s.bank.banks.toList.any (fun x => match x.handover with
    | some (_, w) => w == m
    | none => false)

/-- A read request begins with nothing delivered. -/
def HostPort.begin (x : HostPort) (q : HAcc) : HostPort :=
  if q.first && q.w.isNone then { x with abort := false, out := [] } else x

/-- The waiting accesses of a host reach their targets in order, until one waits for a bank; a host's write of
BNK_b_OWNER has taken effect only with its handover (R402, R407, R413). -/
def State.hostServe (s : State) (n : Fin 4) : Nat → State
  | 0 => s
  | f + 1 =>
    match s.host[n].queue with
    | [] => s
    | q :: r =>
      if s.ownHandover (hostMaster n) then s
      else
        let t := s.mapHost n (fun x => ({ x with queue := r, waits := none }).begin q)
        match t.hostAccess n q with
        | (u, .wait b) => u.mapHost n (fun x => { x with queue := q :: x.queue, waits := some (b, u.time.beat) })
        | (u, a) => (u.hostTook n q a.word?).hostServe n f

/-- A host's accesses arrive behind those that wait; where none waits for a bank they are carried out. -/
def State.hostIssue (s : State) (n : Fin 4) (l : List HAcc) : State :=
  let s := s.mapHost n (fun x => { x with queue := x.queue ++ l })
  if s.host[n].waits.isSome then s else s.hostServe n s.host[n].queue.length

/-- A host's waiting accesses go on at a bank that has woken; its wait is counted (R398, R407). -/
def State.hostWoken (s : State) (b : Fin 64) (n : Fin 4) : State :=
  match s.host[n].waits with
  | some (c, since) =>
    if c = b then
      let s := (s.count (bnkMaster (16 + n.val) + 2) (s.time.beat - since)).mapHost n (fun x => { x with waits := none })
      s.hostServe n s.host[n].queue.length
    else s
  | none => s

/-! ## PCIe requests (R412, R413) -/

/-- The accesses of a request, ascending from the word that holds its first byte (R413, R477). -/
def accesses (a : Nat) (l : List (ByteSel × Option Word)) : List HAcc :=
  (numbered l).map (fun e => { first := e.1 == 0, addr := (a / 2 * 2 + 2 * e.1) % 0x4000000, sel := e.2.1, w := e.2.2 })

/-- HOST_READ_REQUEST: a port that does not work receives nothing (R411). -/
def State.pcieRead (s : State) (n : Fin 2) (a : Addr) (sels : List ByteSel) : State :=
  let p : Fin 4 := ⟨n.val, by omega⟩
  if s.hostWorks p then s.hostIssue p (accesses a.toNat (sels.map (fun x => (x, none)))) else s

/-- HOST_WRITE_REQUEST. -/
def State.pcieWrite (s : State) (n : Fin 2) (a : Addr) (ws : List (ByteSel × Word)) : State :=
  let p : Fin 4 := ⟨n.val, by omega⟩
  if s.hostWorks p then s.hostIssue p (accesses a.toNat (ws.map (fun x => (x.1, some x.2)))) else s

/-! ## SPI transactions (R414, R415) -/

/-- The port of H2 or H3. -/
def spiPort (n : Fin 2) : Fin 4 := ⟨2 + n.val, by omega⟩

/-- An address that a READ or WRITE may carry (R414). -/
def spiAddr (a : BitVec 32) : Bool := decide (a.toNat < 0x4000000) && a.toNat % 2 == 0

/-- A transaction that sets ERR and is ignored (R414). -/
def State.spiBad (s : State) (p : Fin 4) : State := s.mapHost p (fun x => { x with err := true })

/-- READ: its words are read in order once the writes have been carried out (R415). -/
def State.spiReadCmd (s : State) (n : Fin 2) (a : BitVec 32) (count : Nat) : State :=
  let p := spiPort n
  if !s.hostWorks p then s
  else if !spiAddr a then s.spiBad p
  else s.hostIssue p (accesses a.toNat (List.replicate count (.word, none)))

/-- The words of a WRITE are queued one by one; a word that finds 32 queued is discarded and sets ERR (R415). -/
def State.spiWords (s : State) (p : Fin 4) : List HAcc → State
  | [] => s
  | q :: r =>
    if 32 ≤ (s.host[p].queue.filter (fun x => x.w.isSome)).length then (s.spiBad p).spiWords p r
    else (s.hostIssue p [q]).spiWords p r

/-- WRITE. -/
def State.spiWriteCmd (s : State) (n : Fin 2) (a : BitVec 32) (ws : List Word) : State :=
  let p := spiPort n
  if !s.hostWorks p then s
  else if !spiAddr a then s.spiBad p
  else s.spiWords p (accesses a.toNat (ws.map (fun w => (.word, some w))))

/-- The status byte (R414). -/
def State.spiByte (s : State) (p : Fin 4) : Word :=
  let x := s.host[p]
  flag (x.queue.any (fun q => q.w.isSome)) 0 ||| flag x.err 1 ||| flag x.fenced 2 ||| flag (s.hostIrq p) 3

/-- STATUS: the byte is returned and ERR cleared (R414). -/
def State.spiStatusCmd (s : State) (n : Fin 2) : State :=
  let p := spiPort n
  if !s.hostWorks p then s
  else
    let v := s.spiByte p
    (s.mapHost p (fun x => { x with err := false, out := [v] })).respond (hostMaster p) v false

/-! ## Host resets and the link (R417, R511) -/

/-- HRESET. -/
def State.hresetCmd (s : State) (n : Fin 2) : State :=
  let p := spiPort n
  if s.hostWorks p then s.hostResetK p else s

/-- HOST_RESET: each of the three takes the link down; a port that does not work ignores it (R411, R417). -/
def State.hostResetCmd (s : State) (n : Fin 2) (c : HostResetCause) : State :=
  let p : Fin 4 := ⟨n.val, by omega⟩
  let s := if c = .perst then s.mapHost p (fun x => { x with perst := true }) else s
  if s.hostWorks p then (s.mapHost p (fun x => { x with link := false })).hostResetK p else s

/-- PCIE_LINK_UP: a working port reaches DL_Active, with PERST# high (R433, R511). -/
def State.linkTrained (s : State) (n : Fin 2) : State :=
  let p : Fin 4 := ⟨n.val, by omega⟩
  if s.hostWorks p then s.mapHost p (fun x => { x with link := true, perst := false }) else s

/-! ## The end of a wait at a bank -/

/-- A hearth that waits for a bank goes on with its instruction; its wait is counted (R398, R407). -/
def State.hearthWoken (s : State) (b : Fin 64) (h : HearthId) : State :=
  match s.hearth[h].stall with
  | some (.bank c since _) =>
    if c = b then (s.count (bnkMaster h.val + 2) (s.time.beat - since)).hearthResume h else s
  | _ => s

/-- The accesses that wait for a bank go on once it is awake. -/
def State.bankWaiters (s : State) (b : Fin 64) : State :=
  let s := (finList 12).foldl (fun (s : State) h => s.hearthWoken b h) s
  (finList 4).foldl (fun (s : State) n => s.hostWoken b n) s

/-- WAKE_COMPLETE: the wake ends at its beat and the waiting accesses proceed (R407). -/
def State.wakeDone (s : State) (b : Fin 64) : State :=
  let s := match s.bank.banks[b].waking with
    | some due => (s.until due).endWake b
    | none => s
  if s.bank.banks[b].asleep then s else s.bankWaiters b

/-- A hearth whose write of BNK_b_OWNER waits retires it (R402). -/
def State.handoverResume (s : State) (b : Fin 64) (h : HearthId) : State :=
  if s.hearth[h].stall = some (.handover b) then (s.mapHearth h (fun x => { x with resume := true })).hearthResume h else s

/-- HANDOVER_EFFECT: the new owner is in force, and the write's response returns to its master (R402). -/
def State.handoverDone (s : State) (b : Fin 64) : State :=
  let held := s.bank.banks[b].handover.isSome
  let s := s.handoverEffect b
  if held && s.bank.banks[b].handover.isNone then
    let s := (finList 12).foldl (fun (s : State) h => s.handoverResume b h) s
    (finList 4).foldl (fun (s : State) n =>
      if s.host[n].waits.isSome then s else s.hostServe n s.host[n].queue.length) s
  else s

/-! ## Commands -/

def execHandoverEffect (b : Fin 64) (s : State) : Host.Outcome State Fault Refusal :=
  .next (s.alive fun s => s.handoverDone b)

def execWakeComplete (b : Fin 64) (s : State) : Host.Outcome State Fault Refusal :=
  .next (s.alive fun s => s.wakeDone b)

def execHostReadRequest (n : Fin 2) (a : Addr) (sels : List ByteSel) (s : State) : Host.Outcome State Fault Refusal :=
  .next (s.alive fun s => s.pcieRead n a sels)

def execHostWriteRequest (n : Fin 2) (a : Addr) (ws : List (ByteSel × Word)) (s : State) :
    Host.Outcome State Fault Refusal := .next (s.alive fun s => s.pcieWrite n a ws)

def execSpiRead (n : Fin 2) (a : BitVec 32) (count : Nat) (s : State) : Host.Outcome State Fault Refusal :=
  .next (s.alive fun s => s.spiReadCmd n a count)

def execSpiWrite (n : Fin 2) (a : BitVec 32) (ws : List Word) (s : State) : Host.Outcome State Fault Refusal :=
  .next (s.alive fun s => s.spiWriteCmd n a ws)

def execSpiStatus (n : Fin 2) (s : State) : Host.Outcome State Fault Refusal :=
  .next (s.alive fun s => s.spiStatusCmd n)

def execHreset (n : Fin 2) (s : State) : Host.Outcome State Fault Refusal := .next (s.alive fun s => s.hresetCmd n)

def execHostReset (n : Fin 2) (cause : HostResetCause) (s : State) : Host.Outcome State Fault Refusal :=
  .next (s.alive fun s => s.hostResetCmd n cause)

def execPcieLinkUp (n : Fin 2) (s : State) : Host.Outcome State Fault Refusal :=
  .next (s.alive fun s => s.linkTrained n)

end Sys2Proof.Machine
end

