-- ==== Sys2Proof/Machine/Loader.lean ====
section
/-! DEFINITION. The boot sequence (17_kindling_and_startup.md): reset, sensing, attempts, the loading of an image section
by section, its verification, START, RUN, and the feed. -/

namespace Sys2Proof.Machine

open Sys2Proof

/-! ## Reset (R434, R435, R453, R498, R499) -/

/-- Fuses that a reset cuts off while they burn (R453). -/
def State.cutFuses (s : State) : Fuses :=
  let f := match s.kdl.burn with
    | some b => s.kdl.fuses.cutBurn s.free b
    | none => s.kdl.fuses
  if s.kdl.advTarget.isSome && Config.burnt (256 * s.free + 255) then { f with count := f.count + 1 } else f

/-- PORST# low: every part of the device is in reset; the fuses, and what stands outside the device, stay (R434). -/
def State.porst (s : State) : State :=
  let r := State.reset
  { r with
    pending := s.pending, resp := s.resp, free := s.free + 1, gp := s.gp
    kdl := { Kindling.reset with up := false, fuses := s.cutFuses } }

/-- Reset release: the straps are latched, SENSE runs, the beat counter reads 0 (R34, R434, R435). -/
def State.resetRelease (s : State) (straps : BitVec 7) : State :=
  if s.kdl.up then s else s.mapKdl (fun k => { k with up := true, straps := straps })

/-! ## The course of a boot (R438, R440) -/

/-- SENSE_DONE: the fuses are sensed, bank memory and signal states are zero; the first attempt begins, or FEED, or HALT
(R435, R437, R438, R440). -/
def State.senseDone (s : State) : State :=
  if s.kdl.st == .sense && s.kdl.up then
    let s := s.until (if s.kdl.boot = 0 then 65536 else 131072)
    let s := s.mapKdl (fun k => { k with sensed := true })
    if s.kdl.boot = 0 then s.beginAttempt .a
    else if s.kdl.boot = 1 ∧ s.kdl.hosten0 then s.enterFeed
    else s.mapKdl (fun k => { k with st := .halt })
  else s

/-- Bytes `o` to `o + n - 1` of the image. -/
def Kindling.bytes (k : Kindling) (o n : Nat) : List Byte := (k.stream.drop o).take n
def Kindling.field (k : Kindling) (o n : Nat) : Nat := ofBytes (k.bytes o n)

/-- Fields of the header (R445). -/
def Kindling.imageLen (k : Kindling) : Nat := k.field 8 4
def Kindling.sectOfs (k : Kindling) : Nat := k.field 28 4
def Kindling.sectCnt (k : Kindling) : Nat := k.field 32 2

/-- The checks of the header: the failure code, 0 for none (R439, R445). -/
def Kindling.headerCode (k : Kindling) : Nat :=
  if !(k.field 0 4 == 0x4C444B46 && k.field 4 2 == 1 && k.field 6 2 == 256 && k.field 26 2 == 0x6412) then 2
  else if !(k.imageLen % 64 == 0 && decide (1024 ≤ k.imageLen) && decide (k.imageLen ≤ 16777216) &&
      k.sectOfs % 16 == 0 && decide (256 ≤ k.sectOfs) && decide (1 ≤ k.sectCnt) && decide (k.sectCnt ≤ 4096)) then 4
  else 0

/-- 256 bytes of a header as read. -/
def header256 (l : List Byte) : List Byte := (List.range 256).map (fun i => nthD l i 0)

/-- FLASH_ATTEMPT: XSPI_RST#, the header in 1S, its checks, and the comparison with the re-read in 8D (R442). -/
def State.flashAttempt (s : State) (h1 h8 : List Byte) : State :=
  if s.kdl.st == .load && s.kdl.stream.isEmpty then
    let s := s.elapse (8192 + 131072 + 267264)
    let a := header256 h1
    let b := header256 h8
    let t := s.mapKdl (fun k => { k with stream := a })
    if a.all (fun x => x == 0xFF) || a.all (fun x => x == 0) then s.kdlFail 1 0
    else if t.kdl.headerCode ≠ 0 then s.kdlFail t.kdl.headerCode 0
    else if a ≠ b then s.kdlFail 3 0
    else t
  else s

/-! ## The section table (R446, R448) -/

/-- A section table entry. -/
structure Sect where
  type : Nat
  arg : Nat
  target : Nat
  offset : Nat
  len : Nat
  deriving DecidableEq, Repr

def Kindling.section' (k : Kindling) (i : Nat) : Sect :=
  let o := k.sectOfs + 16 * i
  { type := k.field o 2, arg := k.field (o + 2) 2, target := k.field (o + 4) 4, offset := k.field (o + 8) 4,
    len := k.field (o + 12) 4 }

/-- The unit of a section type in bytes. -/
def sectUnit (type : Nat) : Nat :=
  match type with
  | 2 => 8
  | 3 => 2
  | 4 => 6
  | 5 => 16
  | 6 => 32
  | 7 => 32
  | 9 => 8
  | _ => 1

/-- A section whose length is whole and whose target lies in its space. A ring store has 16 KiB in each buffer, a CAN
store 4 KiB (R189, R221). -/
def Sect.ok (x : Sect) : Bool :=
  x.len % sectUnit x.type == 0 &&
  (match x.type with
   | 1 => x.arg == 0 && decide (x.target + x.len ≤ 0x1000000)
   | 2 => x.arg == 0 && x.target == 0
   | 3 => decide (x.arg < 12) && x.target % 2 == 0 && decide (x.target + x.len ≤ 16384)
   | 4 => decide (x.arg < 12) && decide (x.target + x.len / 6 ≤ 512)
   | 5 => x.arg == 0 && decide (x.target + x.len / 16 ≤ 262144)
   | 6 => x.arg == 0 && decide (x.target + x.len / 32 ≤ 4095)
   | 7 => x.arg == 0 && decide (x.target + x.len / 32 ≤ 1024)
   | 8 => decide (x.arg < 8) && decide (x.target + x.len ≤ if x.arg < 2 then 16384 else 4096)
   | 9 => x.arg == 0 && x.target == 0
   | _ => false)

/-- Sections in rising order of OFFSET without overlap. -/
def sectionsRise : List Sect → Bool
  | a :: b :: r => decide (a.offset < b.offset) && decide (a.offset + a.len ≤ b.offset) && sectionsRise (b :: r)
  | _ => true

/-- The sections of the image. -/
def Kindling.sections (k : Kindling) : List Sect := (List.range k.sectCnt).map k.section'

/-- Whether the section table is valid (R448). -/
def Kindling.tableValid (k : Kindling) : Bool :=
  let l := k.sections
  let tableEnd := k.sectOfs + 16 * k.sectCnt
  (l.filter (fun x => x.type == 9)).length == 1 && (k.section' (k.sectCnt - 1)).type == 9 && sectionsRise l &&
  l.all (fun x => x.ok && decide (tableEnd ≤ x.offset) && decide (x.offset + x.len + 64 ≤ k.imageLen)) &&
  decide (tableEnd + 64 ≤ k.imageLen)

/-! ## Register records (R447, R449) -/

/-- The start list (R447). -/
def startReg (off : Nat) : Bool :=
  off == 0x40000 || off == 0xA0F00 || off == 0xB0000 || off == 0x20000 ||
  (0x80000 ≤ off && off < 0x80800 && off % 0x40 == 0) || off == 0x60100 || off == 0x60200 ||
  (0x70000 ≤ off && off < 0x73000 && off % 0x800 == 0) || (0x50000 ≤ off && off < 0x52C00 && off % 0x400 == 0) ||
  (0xD0600 ≤ off && off < 0xD0680 && off % 32 == 0) || (0x90000 ≤ off && off < 0x91800 && off % 0x200 == 0)

/-- A register record: the offset from 0x300_0000 and the value, none where its content is invalid. -/
def recordOf (l : List Byte) : Option (Nat × Word) :=
  let a := ofBytes (l.take 4)
  if a % 2 = 0 ∧ 0x3000000 ≤ a ∧ a < 0x3100000 ∧ a / 65536 ≠ 0x30E ∧ ofBytes (l.drop 6) = 0 then
    some (a - 0x3000000, BitVec.ofNat 16 (ofBytes ((l.drop 4).take 2)))
  else none

/-- The refusal events of the blocks: register and bits (R449). -/
def refusalRegs : List (Nat × Word) :=
  [(0x10004, 0x0004), (0x20004, 0x01E0), (0x30004, 0x000B), (0x40004, 0x0030), (0xB0004, 0x1000), (0xC0500, 0x0010),
   (0xF0004, 0x1040)] ++
  (List.range 6).map (fun c => (0x70004 + 0x800 * c, 0x2000)) ++
  (List.range 32).map (fun j => (0x80004 + 0x40 * j, 0x1020)) ++
  (List.range 12).map (fun h => (0x90004 + 0x200 * h, 0x0040)) ++
  (List.range 12).map (fun x => (0xA0004 + 0x100 * x, 0x0220)) ++
  (List.range 6).map (fun g => (0xA0C0C + 0x20 * g, 0x0018))

/-- Whether a refusal event has been raised between two states. -/
def refusedBetween (s t : State) : Bool := refusalRegs.any (fun r => t.reg r.1 &&& ~~~(s.reg r.1) &&& r.2 != 0)

/-- A flue configuration keeps R421: sender and receiver are hearths or hosts, and they differ. -/
def flueOk (off : Nat) (v : Word) : Bool :=
  let party := fun n => decide (n < 12) || (decide (16 ≤ n) && decide (n < 20))
  !(0xD0000 ≤ off && off < 0xD0400 && off % 16 == 0) || !bit v 10 ||
  (party (fld v 0 5) && party (fld v 5 5) && fld v 0 5 != fld v 5 5)

/-- One register record written as master 15; the flag tells that no block refused it (R447, R449). -/
def State.putRecord (s : State) (off : Nat) (v : Word) : State × Bool :=
  let t := (s.busWrite 15 (0x3000000 + off) .word v).1
  (t, !refusedBetween s t && flueOk off v)

/-- The records of a REG section, until one fails. -/
def State.putRecords (s : State) : List (List Byte) → State × Bool
  | [] => (s, true)
  | l :: r =>
    match recordOf l with
    | some (off, v) =>
      if startReg off then (s, false)
      else match s.putRecord off v with
        | (s, true) => s.putRecords r
        | (s, false) => (s, false)
    | none => (s, false)

/-! ## Sections into their targets (R446) -/

/-- 16-bit words of bytes, low byte first. -/
def bytesWords (l : List Byte) : List Word := (pieces 2 l.length l).map (fun p => BitVec.ofNat 16 (ofBytes p))

/-- Zeros in a table of marks, for `n` words with fresh codes. -/
def freshCode (marks : Sparse Nat) (k n : Nat) : Sparse Nat := Sparse.setAll 0 marks k (List.replicate n 0)

/-- Load a section; the flag tells that its content is valid (R446, R449). -/
def State.putSection (s : State) (x : Sect) (l : List Byte) : State × Bool :=
  let w := bytesWords l
  match x.type with
  | 1 => (s.mapBanks (fun b => { b with
      mem := Memory.setBytes b.mem x.target l
      ecc := b.ecc.filter (fun e => decide (e.1 + 1 < x.target) || decide (x.target + x.len ≤ e.1)) }), true)
  | 2 => s.putRecords (pieces 8 l.length l)
  | 3 =>
    match finOf 12 x.arg with
    | some h => (s.mapHearth h (fun y => { y with
        bench := Sparse.setAll 0 y.bench (x.target / 2) w, benchEcc := freshCode y.benchEcc (x.target / 2) w.length }), true)
    | none => (s, false)
  | 4 =>
    match finOf 12 x.arg with
    | some h =>
      if (pieces 3 w.length w).all (fun u => uopOk (nthD u 0 0) (nthD u 2 0)) then
        (s.mapHearth h (fun y => { y with
          uops := Sparse.setAll 0 y.uops (3 * x.target) w, uopEcc := freshCode y.uopEcc (3 * x.target) w.length }), true)
      else (s, false)
    | none => (s, false)
  | 5 => (s.mapJnr (fun j => { j with
      dsc := Sparse.setAll 0 j.dsc (8 * x.target) w, dscEcc := freshCode j.dscEcc (8 * x.target) w.length }), true)
  | 6 => (s.mapJnr (fun j => { j with
      prm := Sparse.setAll 0 j.prm (16 * x.target) w, prmEcc := freshCode j.prmEcc (16 * x.target) w.length }), true)
  | 7 => (s.mapJnr (fun j => { j with
      img := Sparse.setAll 0 j.img (16 * x.target) w, imgEcc := freshCode j.imgEcc (16 * x.target) w.length }), true)
  | 8 =>
    let half := if x.arg < 2 then 16384 else 4096
    ((s.setStoreBytes x.arg x.target l).setStoreBytes x.arg (half + x.target) l, true)
  | _ => (s, (pieces 8 l.length l).all (fun r => match recordOf r with
      | some (off, _) => startReg off
      | none => false))

/-- Whether sections are being loaded: LOAD, or FEED with a stream begun (R437, R455). -/
def State.loading (s : State) : Bool :=
  (s.kdl.st == .load || (s.kdl.st == .feed && s.kdl.begun)) && decide (256 ≤ s.kdl.stream.length)

/-- Bytes read from flash join the image; those of a fed image have come by chunks (R442, R455). -/
def State.readBytes (s : State) (l : List Byte) : State :=
  if s.kdl.st == .load then s.mapKdl (fun k => { k with stream := k.stream ++ l }) else s

/-- The section table is checked once it has been read whole (R448). -/
def State.checkTable (s : State) : State :=
  if !s.kdl.tableOk && decide (s.kdl.sectOfs + 16 * s.kdl.sectCnt ≤ s.kdl.stream.length) then
    if s.kdl.tableValid then s.mapKdl (fun k => { k with tableOk := true }) else s.kdlFail 5 0
  else s

/-- SECTION_LOADED: the next section is loaded once its bytes have been read (R438, R446, R448, R449). -/
def State.sectionLoaded (s : State) (l : List Byte) : State :=
  if s.loading then
    let s := (s.readBytes l).checkTable
    if s.loading && s.kdl.tableOk && decide (s.kdl.sect < s.kdl.sectCnt) then
      let x := s.kdl.section' s.kdl.sect
      if x.offset + x.len ≤ s.kdl.stream.length then
        match s.putSection x (s.kdl.bytes x.offset x.len) with
        | (s, true) => s.mapKdl (fun k => { k with sect := k.sect + 1 })
        | (s, false) => s.kdlFail 6 s.kdl.sect
      else s
    else s
  else s

/-! ## VERIFY (R449, R451) -/

/-- The descriptors of every run of every mode keep R105. -/
def State.runsOk (s : State) : Bool :=
  (List.range 8).all (fun m => [false, true].all (fun out =>
    (List.range (s.runCount m out)).all (fun k => s.descOk (s.desc (s.runFirst m out + k)))))

/-- The START records as read. -/
def Kindling.startRecords (k : Kindling) : List (List Byte) :=
  let x := k.section' (k.sectCnt - 1)
  pieces 8 x.len (k.bytes x.offset x.len)

/-- The modes of MODES pass their checks, and the image uses the mode in which it starts ticks (R445, R449). -/
def State.modesOk (s : State) : Bool :=
  let modes := s.kdl.field 34 1
  (List.range 8).all (fun m => !modes.testBit m || s.modeOk m) &&
  s.kdl.startRecords.all (fun r => match recordOf r with
    | some (off, v) => off != 0x20000 || modes.testBit (fld v 1 3)
    | none => true)

/-- LOAD_COMPLETE: the last byte has been read; the descriptor and mode checks are made (R437, R449). -/
def State.loadComplete (s : State) (l : List Byte) : State :=
  if s.loading then
    let s := (s.readBytes l).checkTable
    if s.loading && s.kdl.tableOk && s.kdl.sect == s.kdl.sectCnt && decide (s.kdl.imageLen ≤ s.kdl.stream.length) then
      let s := s.mapKdl (fun k => { k with st := .verify, ready := false })
      if !s.runsOk then s.kdlFail 6 0
      else if !s.modesOk then s.kdlFail 0xA 0
      else s
    else s
  else s

/-- The digest over the image without its signature (R451). -/
def Kindling.digest (k : Kindling) : List Byte := sha256 (k.bytes 0 (k.imageLen - 64))

/-- KEY_SLOT (R445). -/
def Kindling.imageSlot (k : Kindling) : Fin 4 := (BitVec.ofNat 2 (k.field 14 2)).toFin

/-- The checks of R451 in order: the failure code, 0 for none. -/
def Kindling.verifyCode (k : Kindling) : Nat :=
  let slot := k.imageSlot
  if !ecdsaOk (k.bytes 128 64) k.digest (k.bytes (k.imageLen - 64) 64) then 7
  else if !k.fuses.secure then 0
  else if k.fuses.slots[slot] != some (sha256 (k.bytes 128 64)) || k.fuses.revoked[slot] then 8
  else if k.field 12 2 < k.fuses.count ∨ 64 < k.field 12 2 then 9
  else 0

/-- SIGNATURE_CHECK_DONE (R451). -/
def State.signatureDone (s : State) : State :=
  if s.kdl.st == .verify then
    let c := s.kdl.verifyCode
    if c = 0 then s.mapKdl (fun k => { k with st := .start, verified := true, starts := 0 }) else s.kdlFail c 0
  else s

/-! ## START and RUN (R426, R438, R441, R467) -/

/-- START_RECORD: the next record of the START section is written; one that is refused fails the attempt (R441). -/
def State.startRecord (s : State) : State :=
  if s.kdl.st == .start then
    match s.kdl.startRecords[s.kdl.starts]? with
    | some r =>
      match recordOf r with
      | some (off, v) =>
        match s.putRecord off v with
        | (s, true) => s.mapKdl (fun k => { k with starts := k.starts + 1, bootBeat := s.time.beat })
        | (s, false) => s.kdlFail 0xC (s.kdl.sectCnt - 1)
      | none => s.kdlFail 0xC (s.kdl.sectCnt - 1)
    | none => s
  else s

/-- The registers that re-plans start from, as the image loaded them (R463). -/
def State.loadedRegs (s : State) : Sparse Word :=
  ((List.range 8).flatMap (fun m => modeOff m :: (kerfOffs m).map (fun e => e.1))).foldl
    (fun l off => Sparse.set 0 l off (s.reg off)) []

/-- SUP_HOST: a host, or none (R445, R467). -/
def supHostOf (n : Nat) : Nat := if 16 ≤ n ∧ n < 20 then n else 0x1F

/-- KINDLING_RUN: every START record has been applied; the device runs from the image, every epoch is 0 (R426, R438). -/
def State.kindlingRun (s : State) : State :=
  if s.kdl.st == .start && s.kdl.starts == s.kdl.startRecords.length then
    let l := s.loadedRegs
    let s := { s with epoch := Vector.replicate 16 0 }
    s.mapKdl (fun k => { k with
      st := .run, slot := k.attempt, attempt := none, version := BitVec.ofNat 16 (k.field 12 2)
      build := Vector.ofFn (fun i => BitVec.ofNat 16 (k.field (16 + 2 * i.val) 2))
      supHost := supHostOf (k.field 24 2 % 32), keySlot := k.imageSlot.val, loaded := l, stream := [] })
  else s

/-! ## The feed (R455) -/

/-- FEED_CHUNK_CONSUMED: the chunk joins the stream, its header is checked once it has come, READY sets. -/
def State.chunkConsumed (s : State) : State :=
  match s.kdl.chunk with
  | some n =>
    if s.kdl.st == .feed then
      let before := s.kdl.stream.length
      let s := s.mapKdl (fun k => { k with
        stream := k.stream ++ (List.range n).map (fun i => Sparse.get 0 k.window i), window := [], chunk := none
        ready := true, readyBeat := s.time.beat })
      if before < 256 ∧ 256 ≤ s.kdl.stream.length ∧ s.kdl.headerCode ≠ 0 then s.kdlFail s.kdl.headerCode 0 else s
    else s
  | none => s

/-- FEED_TIMEOUT: no chunk within 2^24 beats of READY setting, once the stream has begun. -/
def State.feedTimeout (s : State) : State :=
  if s.kdl.st == .feed && s.kdl.begun && s.kdl.ready then
    (s.until (s.kdl.readyBeat + 16777216)).kdlFail 0xB 0
  else s

/-! ## Commands -/

def execPorst (s : State) : Host.Outcome State Fault Refusal := .next s.porst
def execResetRelease (straps : BitVec 7) (s : State) : Host.Outcome State Fault Refusal := .next (s.resetRelease straps)
def execSupplyMonitorTrip (s : State) : Host.Outcome State Fault Refusal := .next s.porst
def execSenseDone (s : State) : Host.Outcome State Fault Refusal := .next (s.alive fun s => s.senseDone)
def execFlashAttempt (hdr1s hdr8d : List Byte) (s : State) : Host.Outcome State Fault Refusal :=
  .next (s.alive fun s => s.flashAttempt hdr1s hdr8d)
def execSectionLoaded (bytes : List Byte) (s : State) : Host.Outcome State Fault Refusal :=
  .next (s.alive fun s => s.sectionLoaded bytes)
def execLoadComplete (bytes : List Byte) (s : State) : Host.Outcome State Fault Refusal :=
  .next (s.alive fun s => s.loadComplete bytes)
def execSignatureCheckDone (s : State) : Host.Outcome State Fault Refusal := .next (s.alive fun s => s.signatureDone)
def execStartRecord (s : State) : Host.Outcome State Fault Refusal := .next (s.alive fun s => s.startRecord)
def execKindlingRun (s : State) : Host.Outcome State Fault Refusal := .next (s.alive fun s => s.kindlingRun)
def execFeedChunkConsumed (s : State) : Host.Outcome State Fault Refusal := .next (s.alive fun s => s.chunkConsumed)
def execFeedTimeout (s : State) : Host.Outcome State Fault Refusal := .next (s.alive fun s => s.feedTimeout)

end Sys2Proof.Machine
end

