-- ==== Sys2Proof/Machine/Dispatch.lean ====
section
/-! DEFINITION. The meaning of every command: one arm per row of spec/opcode_table.json. -/

namespace Sys2Proof.Machine

open Sys2Proof

/-- The effect of a command on everything but the queue. -/
def exec (i : Instr) (s : State) : Host.Outcome State Fault Refusal :=
  match i with
  | .registerWrite m sel a v => Sys2Proof.Machine.execRegisterWrite m sel a v s
  | .pairLoRead m a => Sys2Proof.Machine.execPairLoRead m a s
  | .pairLoWrite m a v => Sys2Proof.Machine.execPairLoWrite m a v s
  | .pairHiWrite m a v => Sys2Proof.Machine.execPairHiWrite m a v s
  | .readClear m a => Sys2Proof.Machine.execReadClear m a s
  | .tickStart => Sys2Proof.Machine.execTickStart s
  | .strike => Sys2Proof.Machine.execStrike s
  | .timCtrlSet m => Sys2Proof.Machine.execTimCtrlSet m s
  | .integClr m => Sys2Proof.Machine.execIntegClr m s
  | .srvEn m en => Sys2Proof.Machine.execSrvEn m en s
  | .srvSrc m src => Sys2Proof.Machine.execSrvSrc m src s
  | .timSrvESubmit m v => Sys2Proof.Machine.execTimSrvESubmit m v s
  | .holdoverEntry => Sys2Proof.Machine.execHoldoverEntry s
  | .sdsGate per => Sys2Proof.Machine.execSdsGate per s
  | .canClkSpan cycles => Sys2Proof.Machine.execCanClkSpan cycles s
  | .tsiEdge k rising sub => Sys2Proof.Machine.execTsiEdge k rising sub s
  | .tsiS0Read m k => Sys2Proof.Machine.execTsiS0Read m k s
  | .tsiEnClear m k => Sys2Proof.Machine.execTsiEnClear m k s
  | .tsoPpsEdge j => Sys2Proof.Machine.execTsoPpsEdge j s
  | .tsoPulseEnd j => Sys2Proof.Machine.execTsoPulseEnd j s
  | .tsoToggle j => Sys2Proof.Machine.execTsoToggle j s
  | .tsoPush m j v => Sys2Proof.Machine.execTsoPush m j v s
  | .tsoModeChange m j mode => Sys2Proof.Machine.execTsoModeChange m j mode s
  | .timCnv m v => Sys2Proof.Machine.execTimCnv m v s
  | .joinInComplete => Sys2Proof.Machine.execJoinInComplete s
  | .jinExpiry => Sys2Proof.Machine.execJinExpiry s
  | .joinOutStart => Sys2Proof.Machine.execJoinOutStart s
  | .joinMove => Sys2Proof.Machine.execJoinMove s
  | .joutExpiry => Sys2Proof.Machine.execJoutExpiry s
  | .sealingDeadline => Sys2Proof.Machine.execSealingDeadline s
  | .budgetExpiry h => Sys2Proof.Machine.execBudgetExpiry h s
  | .tckSeal m v => Sys2Proof.Machine.execTckSeal m v s
  | .tckModeReq m v => Sys2Proof.Machine.execTckModeReq m v s
  | .tckCtrlRun m mode => Sys2Proof.Machine.execTckCtrlRun m mode s
  | .tckCtrlStop m => Sys2Proof.Machine.execTckCtrlStop m s
  | .jnrPost m v => Sys2Proof.Machine.execJnrPost m v s
  | .jnrPostLen m v => Sys2Proof.Machine.execJnrPostLen m v s
  | .jnrDscRead m => Sys2Proof.Machine.execJnrDscRead m s
  | .jnrDscWrite m => Sys2Proof.Machine.execJnrDscWrite m s
  | .jnrImgRead m => Sys2Proof.Machine.execJnrImgRead m s
  | .jnrImgWrite m => Sys2Proof.Machine.execJnrImgWrite m s
  | .jnrPrmRead m => Sys2Proof.Machine.execJnrPrmRead m s
  | .jnrPrmWrite m => Sys2Proof.Machine.execJnrPrmWrite m s
  | .forwardingDecision p => Sys2Proof.Machine.execForwardingDecision p s
  | .frameVerdict p tail => Sys2Proof.Machine.execFrameVerdict p tail s
  | .captureRecord n => Sys2Proof.Machine.execCaptureRecord n s
  | .egressFrameStart p => Sys2Proof.Machine.execEgressFrameStart p s
  | .egressFrameEnd p => Sys2Proof.Machine.execEgressFrameEnd p s
  | .txUnderrun p => Sys2Proof.Machine.execTxUnderrun p s
  | .gateListEntry p => Sys2Proof.Machine.execGateListEntry p s
  | .pauseExpiry p => Sys2Proof.Machine.execPauseExpiry p s
  | .ageingSweep => Sys2Proof.Machine.execAgeingSweep s
  | .swfMtRead m => Sys2Proof.Machine.execSwfMtRead m s
  | .swfMtWrite m => Sys2Proof.Machine.execSwfMtWrite m s
  | .swfMtInsert m => Sys2Proof.Machine.execSwfMtInsert m s
  | .swfMtDelete m => Sys2Proof.Machine.execSwfMtDelete m s
  | .swfMtSearch m => Sys2Proof.Machine.execSwfMtSearch m s
  | .swfVlRead m => Sys2Proof.Machine.execSwfVlRead m s
  | .swfVlWrite m => Sys2Proof.Machine.execSwfVlWrite m s
  | .swfRlRead m => Sys2Proof.Machine.execSwfRlRead m s
  | .swfRlWrite m => Sys2Proof.Machine.execSwfRlWrite m s
  | .swfGclRead m => Sys2Proof.Machine.execSwfGclRead m s
  | .swfGclWrite m => Sys2Proof.Machine.execSwfGclWrite m s
  | .swfStageCommit => Sys2Proof.Machine.execSwfStageCommit s
  | .swfResWrite m p v => Sys2Proof.Machine.execSwfResWrite m p v s
  | .swfMirSizeWrite m n v => Sys2Proof.Machine.execSwfMirSizeWrite m n v s
  | .swfMirRdWrite m n v => Sys2Proof.Machine.execSwfMirRdWrite m n v s
  | .linkUp p half rate => Sys2Proof.Machine.execLinkUp p half rate s
  | .linkDown p => Sys2Proof.Machine.execLinkDown p s
  | .p10RxRecord => Sys2Proof.Machine.execP10RxRecord s
  | .macRxrdWrite m g v => Sys2Proof.Machine.execMacRxrdWrite m g v s
  | .macTxwrWrite m g v => Sys2Proof.Machine.execMacTxwrWrite m g v s
  | .txDescriptor g => Sys2Proof.Machine.execTxDescriptor g s
  | .macTsRead m g => Sys2Proof.Machine.execMacTsRead m g s
  | .macSdsWrite m p v => Sys2Proof.Machine.execMacSdsWrite m p v s
  | .ctleStep p => Sys2Proof.Machine.execCtleStep p s
  | .macGroupCfgWrite m g tx v => Sys2Proof.Machine.execMacGroupCfgWrite m g tx v s
  | .slotLaunch c slot => Sys2Proof.Machine.execSlotLaunch c slot s
  | .frameReturn c f => Sys2Proof.Machine.execFrameReturn c f s
  | .dataFrame c lane f => Sys2Proof.Machine.execDataFrame c lane f s
  | .claim c lane f => Sys2Proof.Machine.execClaim c lane f s
  | .surveyLaunch c => Sys2Proof.Machine.execSurveyLaunch c s
  | .surveyPassage c lane f => Sys2Proof.Machine.execSurveyPassage c lane f s
  | .surveyResult c lane f => Sys2Proof.Machine.execSurveyResult c lane f s
  | .laneDown c lane => Sys2Proof.Machine.execLaneDown c lane s
  | .laneUp c lane => Sys2Proof.Machine.execLaneUp c lane s
  | .foldNotice c lane node st => Sys2Proof.Machine.execFoldNotice c lane node st s
  | .foldNoticeSend c => Sys2Proof.Machine.execFoldNoticeSend c s
  | .listenTimeout c => Sys2Proof.Machine.execListenTimeout c s
  | .claimRetry c => Sys2Proof.Machine.execClaimRetry c s
  | .headerTimeout c => Sys2Proof.Machine.execHeaderTimeout c s
  | .keyTimeout c => Sys2Proof.Machine.execKeyTimeout c s
  | .autojoin c => Sys2Proof.Machine.execAutojoin c s
  | .ringApertureWrite m sel c off v => Sys2Proof.Machine.execRingApertureWrite m sel c off v s
  | .rngEn m c en => Sys2Proof.Machine.execRngEn m c en s
  | .rngSurvey m c => Sys2Proof.Machine.execRngSurvey m c s
  | .rngAbandon m c => Sys2Proof.Machine.execRngAbandon m c s
  | .canFrameValid c f => Sys2Proof.Machine.execCanFrameValid c f s
  | .canCommit c b => Sys2Proof.Machine.execCanCommit c b s
  | .canTxEnd c r => Sys2Proof.Machine.execCanTxEnd c r s
  | .canBusError c dtec drec => Sys2Proof.Machine.execCanBusError c dtec drec s
  | .busOffRecovery c => Sys2Proof.Machine.execBusOffRecovery c s
  | .integrationDone c => Sys2Proof.Machine.execIntegrationDone c s
  | .canEnable m c init => Sys2Proof.Machine.execCanEnable m c init s
  | .canDisable m c => Sys2Proof.Machine.execCanDisable m c s
  | .canInitSet m c => Sys2Proof.Machine.execCanInitSet m c s
  | .canInitRelease m c => Sys2Proof.Machine.execCanInitRelease m c s
  | .canTxreq m c v => Sys2Proof.Machine.execCanTxreq m c v s
  | .canTxcan m c v => Sys2Proof.Machine.execCanTxcan m c v s
  | .canFifoPop m c f => Sys2Proof.Machine.execCanFifoPop m c f s
  | .canHpClear m c v => Sys2Proof.Machine.execCanHpClear m c v s
  | .canWindowOpen c w => Sys2Proof.Machine.execCanWindowOpen c w s
  | .canWindowClose c w => Sys2Proof.Machine.execCanWindowClose c w s
  | .refMessage c => Sys2Proof.Machine.execRefMessage c s
  | .refTimeout c => Sys2Proof.Machine.execRefTimeout c s
  | .canMxRead m c => Sys2Proof.Machine.execCanMxRead m c s
  | .canMxWrite m c => Sys2Proof.Machine.execCanMxWrite m c s
  | .canApertureWrite m sel c off v => Sys2Proof.Machine.execCanApertureWrite m sel c off v s
  | .jigGoto j gp => Sys2Proof.Machine.execJigGoto j gp s
  | .jigLoop j => Sys2Proof.Machine.execJigLoop j s
  | .jigHold j gp => Sys2Proof.Machine.execJigHold j gp s
  | .jigHoldRelease j gp => Sys2Proof.Machine.execJigHoldRelease j gp s
  | .jigDrive j => Sys2Proof.Machine.execJigDrive j s
  | .jigSend j => Sys2Proof.Machine.execJigSend j s
  | .jigTake j samples => Sys2Proof.Machine.execJigTake j samples s
  | .paceStep j gp => Sys2Proof.Machine.execPaceStep j gp s
  | .jigLoad j => Sys2Proof.Machine.execJigLoad j s
  | .jigStore j => Sys2Proof.Machine.execJigStore j s
  | .jigWordStallEnd j => Sys2Proof.Machine.execJigWordStallEnd j s
  | .jigDelay j => Sys2Proof.Machine.execJigDelay j s
  | .jigDelayEnd j => Sys2Proof.Machine.execJigDelayEnd j s
  | .jigAt j => Sys2Proof.Machine.execJigAt j s
  | .jigAtTarget j => Sys2Proof.Machine.execJigAtTarget j s
  | .jigPace j => Sys2Proof.Machine.execJigPace j s
  | .jigLdi j => Sys2Proof.Machine.execJigLdi j s
  | .jigXfr j gp => Sys2Proof.Machine.execJigXfr j gp s
  | .jigEvt j => Sys2Proof.Machine.execJigEvt j s
  | .jigNop j => Sys2Proof.Machine.execJigNop j s
  | .jigHalt j => Sys2Proof.Machine.execJigHalt j s
  | .jigIllegal j => Sys2Proof.Machine.execJigIllegal j s
  | .jigTxWrite m j v => Sys2Proof.Machine.execJigTxWrite m j v s
  | .jigTxnbWrite m j v => Sys2Proof.Machine.execJigTxnbWrite m j v s
  | .jigRxRead m j => Sys2Proof.Machine.execJigRxRead m j s
  | .jigRxnbRead m j => Sys2Proof.Machine.execJigRxnbRead m j s
  | .hearthJigStallEnd h => Sys2Proof.Machine.execHearthJigStallEnd h s
  | .jigInject m j v => Sys2Proof.Machine.execJigInject m j v s
  | .jigForce m j v => Sys2Proof.Machine.execJigForce m j v s
  | .jigEnable m j => Sys2Proof.Machine.execJigEnable m j s
  | .jigDisable m j => Sys2Proof.Machine.execJigDisable m j s
  | .jigRst m j => Sys2Proof.Machine.execJigRst m j s
  | .jigAt3Write m j v => Sys2Proof.Machine.execJigAt3Write m j v s
  | .jigImemWrite m j k v => Sys2Proof.Machine.execJigImemWrite m j k v s
  | .jigGate j => Sys2Proof.Machine.execJigGate j s
  | .hearthRun m h => Sys2Proof.Machine.execHearthRun m h s
  | .hearthStop m h => Sys2Proof.Machine.execHearthStop m h s
  | .watchdogExpiry h => Sys2Proof.Machine.execWatchdogExpiry h s
  | .hrtWdgKick m h v => Sys2Proof.Machine.execHrtWdgKick m h v s
  | .interrupt h => Sys2Proof.Machine.execInterrupt h s
  | .hrtRegData m h wr => Sys2Proof.Machine.execHrtRegData m h wr s
  | .hrtBenchData m h wr => Sys2Proof.Machine.execHrtBenchData m h wr s
  | .ucRead m h => Sys2Proof.Machine.execUcRead m h s
  | .ucWrite m h => Sys2Proof.Machine.execUcWrite m h s
  | .ciEntryWrite m h k v => Sys2Proof.Machine.execCiEntryWrite m h k v s
  | .mov h => Sys2Proof.Machine.execMov h s
  | .ld h => Sys2Proof.Machine.execLd h s
  | .st h => Sys2Proof.Machine.execSt h s
  | .add h => Sys2Proof.Machine.execAdd h s
  | .adc h => Sys2Proof.Machine.execAdc h s
  | .sub h => Sys2Proof.Machine.execSub h s
  | .sbb h => Sys2Proof.Machine.execSbb h s
  | .cmp h => Sys2Proof.Machine.execCmp h s
  | .and h => Sys2Proof.Machine.execAnd h s
  | .or h => Sys2Proof.Machine.execOr h s
  | .xor h => Sys2Proof.Machine.execXor h s
  | .test h => Sys2Proof.Machine.execTest h s
  | .ldb h => Sys2Proof.Machine.execLdb h s
  | .ldbs h => Sys2Proof.Machine.execLdbs h s
  | .stb h => Sys2Proof.Machine.execStb h s
  | .lea h => Sys2Proof.Machine.execLea h s
  | .neg h => Sys2Proof.Machine.execNeg h s
  | .not h => Sys2Proof.Machine.execNot h s
  | .inc h => Sys2Proof.Machine.execInc h s
  | .dec h => Sys2Proof.Machine.execDec h s
  | .sxb h => Sys2Proof.Machine.execSxb h s
  | .zxb h => Sys2Proof.Machine.execZxb h s
  | .swab h => Sys2Proof.Machine.execSwab h s
  | .mul h => Sys2Proof.Machine.execMul h s
  | .mulhu h => Sys2Proof.Machine.execMulhu h s
  | .mulhs h => Sys2Proof.Machine.execMulhs h s
  | .divu h => Sys2Proof.Machine.execDivu h s
  | .divs h => Sys2Proof.Machine.execDivs h s
  | .scpy h => Sys2Proof.Machine.execScpy h s
  | .sfil h => Sys2Proof.Machine.execSfil h s
  | .scmp h => Sys2Proof.Machine.execScmp h s
  | .ssrc h => Sys2Proof.Machine.execSsrc h s
  | .shl h => Sys2Proof.Machine.execShl h s
  | .shr h => Sys2Proof.Machine.execShr h s
  | .sar h => Sys2Proof.Machine.execSar h s
  | .rol h => Sys2Proof.Machine.execRol h s
  | .ror h => Sys2Proof.Machine.execRor h s
  | .mfs h => Sys2Proof.Machine.execMfs h s
  | .mts h => Sys2Proof.Machine.execMts h s
  | .jmpr h => Sys2Proof.Machine.execJmpr h s
  | .callr h => Sys2Proof.Machine.execCallr h s
  | .jmpfr h => Sys2Proof.Machine.execJmpfr h s
  | .callfr h => Sys2Proof.Machine.execCallfr h s
  | .longJump h => Sys2Proof.Machine.execLongJump h s
  | .jmpf h => Sys2Proof.Machine.execJmpf h s
  | .callf h => Sys2Proof.Machine.execCallf h s
  | .jcc h => Sys2Proof.Machine.execJcc h s
  | .customerInstruction h => Sys2Proof.Machine.execCustomerInstruction h s
  | .nop h => Sys2Proof.Machine.execNop h s
  | .ret h => Sys2Proof.Machine.execRet h s
  | .retf h => Sys2Proof.Machine.execRetf h s
  | .rett h => Sys2Proof.Machine.execRett h s
  | .tend h => Sys2Proof.Machine.execTend h s
  | .flat h => Sys2Proof.Machine.execFlat h s
  | .wind h => Sys2Proof.Machine.execWind h s
  | .ei h => Sys2Proof.Machine.execEi h s
  | .di h => Sys2Proof.Machine.execDi h s
  | .trap h => Sys2Proof.Machine.execTrap h s
  | .post h => Sys2Proof.Machine.execPost h s
  | .postw h => Sys2Proof.Machine.execPostw h s
  | .postwComplete h => Sys2Proof.Machine.execPostwComplete h s
  | .waitdb h => Sys2Proof.Machine.execWaitdb h s
  | .waitdbWake h => Sys2Proof.Machine.execWaitdbWake h s
  | .illegalOpcode h => Sys2Proof.Machine.execIllegalOpcode h s
  | .motionUpdate => Sys2Proof.Machine.execMotionUpdate s
  | .converterSlot c sample => Sys2Proof.Machine.execConverterSlot c sample s
  | .encoderEdge x a b idx => Sys2Proof.Machine.execEncoderEdge x a b idx s
  | .externalStep x dir => Sys2Proof.Machine.execExternalStep x dir s
  | .coarseStep x => Sys2Proof.Machine.execCoarseStep x s
  | .microstep x => Sys2Proof.Machine.execMicrostep x s
  | .inputRecognised k level => Sys2Proof.Machine.execInputRecognised k level s
  | .fioTsRead m => Sys2Proof.Machine.execFioTsRead m s
  | .fieldLatch rb => Sys2Proof.Machine.execFieldLatch rb s
  | .fieldLinkLoss => Sys2Proof.Machine.execFieldLinkLoss s
  | .vfSample mv => Sys2Proof.Machine.execVfSample mv s
  | .cutOff => Sys2Proof.Machine.execCutOff s
  | .cutoffRank rank => Sys2Proof.Machine.execCutoffRank rank s
  | .overload j => Sys2Proof.Machine.execOverload j s
  | .channelOvertemp j => Sys2Proof.Machine.execChannelOvertemp j s
  | .dieOvertemp => Sys2Proof.Machine.execDieOvertemp s
  | .dieOtClear => Sys2Proof.Machine.execDieOtClear s
  | .openLoadOn j => Sys2Proof.Machine.execOpenLoadOn j s
  | .openLoadOff j => Sys2Proof.Machine.execOpenLoadOff j s
  | .stuckHigh j => Sys2Proof.Machine.execStuckHigh j s
  | .inputOpenWire k => Sys2Proof.Machine.execInputOpenWire k s
  | .fioOutRetry m v gone => Sys2Proof.Machine.execFioOutRetry m v gone s
  | .fioOutRearm m v => Sys2Proof.Machine.execFioOutRearm m v s
  | .fioCtrlEn m en => Sys2Proof.Machine.execFioCtrlEn m en s
  | .bnkOwnerWrite m b v => Sys2Proof.Machine.execBnkOwnerWrite m b v s
  | .handoverEffect b => Sys2Proof.Machine.execHandoverEffect b s
  | .emberRequest m b => Sys2Proof.Machine.execEmberRequest m b s
  | .emberEntry b => Sys2Proof.Machine.execEmberEntry b s
  | .emberWake m b => Sys2Proof.Machine.execEmberWake m b s
  | .wakeComplete b => Sys2Proof.Machine.execWakeComplete b s
  | .eccWriteback b => Sys2Proof.Machine.execEccWriteback b s
  | .hostReadRequest n a sels => Sys2Proof.Machine.execHostReadRequest n a sels s
  | .hostWriteRequest n a ws => Sys2Proof.Machine.execHostWriteRequest n a ws s
  | .spiRead n a count => Sys2Proof.Machine.execSpiRead n a count s
  | .spiWrite n a ws => Sys2Proof.Machine.execSpiWrite n a ws s
  | .spiStatus n => Sys2Proof.Machine.execSpiStatus n s
  | .hreset n => Sys2Proof.Machine.execHreset n s
  | .hostReset n cause => Sys2Proof.Machine.execHostReset n cause s
  | .pcieLinkUp n => Sys2Proof.Machine.execPcieLinkUp n s
  | .hostWdgExpiry n => Sys2Proof.Machine.execHostWdgExpiry n s
  | .hostWdgKick m n v => Sys2Proof.Machine.execHostWdgKick m n v s
  | .hostWdgTmoWrite m n v => Sys2Proof.Machine.execHostWdgTmoWrite m n v s
  | .irqAck m n v => Sys2Proof.Machine.execIrqAck m n v s
  | .fluP0Write m f v => Sys2Proof.Machine.execFluP0Write m f v s
  | .fluP1Write m f v => Sys2Proof.Machine.execFluP1Write m f v s
  | .fluN2Read m f => Sys2Proof.Machine.execFluN2Read m f s
  | .porst => Sys2Proof.Machine.execPorst s
  | .resetRelease straps => Sys2Proof.Machine.execResetRelease straps s
  | .supplyMonitorTrip => Sys2Proof.Machine.execSupplyMonitorTrip s
  | .senseDone => Sys2Proof.Machine.execSenseDone s
  | .flashAttempt hdr1s hdr8d => Sys2Proof.Machine.execFlashAttempt hdr1s hdr8d s
  | .sectionLoaded bytes => Sys2Proof.Machine.execSectionLoaded bytes s
  | .loadComplete bytes => Sys2Proof.Machine.execLoadComplete bytes s
  | .signatureCheckDone => Sys2Proof.Machine.execSignatureCheckDone s
  | .startRecord => Sys2Proof.Machine.execStartRecord s
  | .kindlingRun => Sys2Proof.Machine.execKindlingRun s
  | .feedChunk m v => Sys2Proof.Machine.execFeedChunk m v s
  | .feedWindowWrite m sel off v => Sys2Proof.Machine.execFeedWindowWrite m sel off v s
  | .feedRestart m v => Sys2Proof.Machine.execFeedRestart m v s
  | .feedChunkConsumed => Sys2Proof.Machine.execFeedChunkConsumed s
  | .feedTimeout => Sys2Proof.Machine.execFeedTimeout s
  | .xspiCommand m v => Sys2Proof.Machine.execXspiCommand m v s
  | .xspiCommandDone bytes => Sys2Proof.Machine.execXspiCommandDone bytes s
  | .kdlAdvKey m v => Sys2Proof.Machine.execKdlAdvKey m v s
  | .kdlAdv m v => Sys2Proof.Machine.execKdlAdv m v s
  | .versionFuseBlown => Sys2Proof.Machine.execVersionFuseBlown s
  | .fprogBurn m v => Sys2Proof.Machine.execFprogBurn m v s
  | .fprogDone => Sys2Proof.Machine.execFprogDone s
  | .sensorUpdate r => Sys2Proof.Machine.execSensorUpdate r s
  | .seasonAdvance t8 => Sys2Proof.Machine.execSeasonAdvance t8 s
  | .replanStart nor => Sys2Proof.Machine.execReplanStart nor s
  | .replan m nor => Sys2Proof.Machine.execReplan m nor s
  | .avsStepSettled ack r => Sys2Proof.Machine.execAvsStepSettled ack r s
  | .eyeRemeasure eye => Sys2Proof.Machine.execEyeRemeasure eye s
  | .srecRestore m v => Sys2Proof.Machine.execSrecRestore m v s
  | .avsEnable m en ack => Sys2Proof.Machine.execAvsEnable m en ack s
  | .unclamp m v => Sys2Proof.Machine.execUnclamp m v s
  | .clogRead m => Sys2Proof.Machine.execClogRead m s
  | .fieldLinkRestored => Sys2Proof.Machine.execFieldLinkRestored s
  | .ingressCell p first express sub ui bytes => Sys2Proof.Machine.execIngressCell p first express sub ui bytes s
  | .giantFrame p => Sys2Proof.Machine.execGiantFrame p s

end Sys2Proof.Machine
end

