-- ==== Sys2Proof/Safety.lean ====
section
/-! DEFINITION. What counts as a state and a run in good order, in the terms that claims use: the canonical forms of the
stores, and a step that goes on. -/

namespace Sys2Proof.Machine

open Sys2Proof

/-- Bank memory and its code marks stand in their canonical form: addresses rise, nothing is listed at its default. -/
abbrev State.memWf (s : State) : Prop := Memory.wf s.bank.mem ∧ Sparse.wf 0 s.bank.ecc

/-- A step that goes on: it neither faults nor refuses. -/
def State.goesOn (s : State) : Prop := ∃ t, step s = .next t

/-! ## The premises of the claims -/

/-- A write command of a master reaches the register at an offset: the device is out of reset, the master can act and
holds the right (R289, R419, R434, R489). -/
abbrev State.writes (s : State) (m : Master) (off : Nat) : Prop :=
  s.kdl.up = true ∧ s.canAct m = true ∧ s.mayAccess m off true = true

/-- A read command of a master reaches the register at an offset. -/
abbrev State.reads (s : State) (m : Master) (off : Nat) : Prop :=
  s.kdl.up = true ∧ s.canAct m = true ∧ s.mayAccess m off false = true

/-- The device is out of reset (R434). -/
abbrev State.on (s : State) : Prop := s.kdl.up = true

/-- A jig is about to execute an instruction word: it runs and is not stalled, and the word comes from an injection or
from PC (R241, R247, R255). -/
abbrev State.jigRuns (s : State) (j : JigId) (w : Word) : Prop :=
  s.kdl.up = true ∧ s.jig[j].running = true ∧ s.jig[j].stall = none ∧ s.jigWord j = w

/-- Accesses of one kind by a master to `n` bytes from `a` on are all served at once: the banks permit them and are
awake, the words hold no marked error, and nothing has written them in this beat (R399, R404, R407, R409). -/
abbrev State.bankServes (s : State) (m : Master) (k : BKind) (a n : Nat) : Prop :=
  (∀ w ∈ s.bank.beatW, w.beat ≠ s.time.beat) ∧ ∀ i, i < n → s.bankPermits m (bankIdx (a + i)) k = true ∧
    s.bank.banks[bankIdx (a + i)].asleep = false ∧ Sparse.get 0 s.bank.ecc ((a + i) / 2 * 2) = 0

/-! ## Hearth instructions -/

/-- The command that names an operation of a hearth (R322). -/
def hearthCmd (h : HearthId) (op : HOp) : Instr :=
  match op with
  | .mov => .mov h
  | .ld => .ld h
  | .st => .st h
  | .add => .add h
  | .adc => .adc h
  | .sub => .sub h
  | .sbb => .sbb h
  | .cmp => .cmp h
  | .and => .and h
  | .or => .or h
  | .xor => .xor h
  | .test => .test h
  | .ldb => .ldb h
  | .ldbs => .ldbs h
  | .stb => .stb h
  | .lea => .lea h
  | .neg => .neg h
  | .not => .not h
  | .inc => .inc h
  | .dec => .dec h
  | .sxb => .sxb h
  | .zxb => .zxb h
  | .swab => .swab h
  | .mul => .mul h
  | .mulhu => .mulhu h
  | .mulhs => .mulhs h
  | .divu => .divu h
  | .divs => .divs h
  | .scpy => .scpy h
  | .sfil => .sfil h
  | .scmp => .scmp h
  | .ssrc => .ssrc h
  | .shl => .shl h
  | .shr => .shr h
  | .sar => .sar h
  | .rol => .rol h
  | .ror => .ror h
  | .mfs => .mfs h
  | .mts => .mts h
  | .jmpr => .jmpr h
  | .callr => .callr h
  | .jmpfr => .jmpfr h
  | .callfr => .callfr h
  | .longJump => .longJump h
  | .jmpf => .jmpf h
  | .callf => .callf h
  | .jcc => .jcc h
  | .custom => .customerInstruction h
  | .nop => .nop h
  | .ret => .ret h
  | .retf => .retf h
  | .rett => .rett h
  | .tend => .tend h
  | .flat => .flat h
  | .wind => .wind h
  | .ei => .ei h
  | .di => .di h
  | .trap => .trap h
  | .post => .post h
  | .postw => .postw h
  | .waitdb => .waitdb h

/-- A hearth is about to execute an instruction: it runs and is not stalled, its bytes `l` are fetched at PC, which leaves
`u`, and they are the instruction `i` (R292, R336). -/
abbrev State.hearthAt (s : State) (h : HearthId) (l : List Byte) (u : State) (i : HInstr) : Prop :=
  s.kdl.up = true ∧ s.hearth[h].st = .running ∧ s.hearth[h].stall = none ∧ s.fetchInstr h = (u, .ok l) ∧ u.hdec h l = .ok i

/-- An instruction executes: it is not repeated, or CNT is not 0 (R328). -/
abbrev HInstr.iterates (i : HInstr) (x : Hearth) : Prop := i.pre.rep = .once ∨ x.cnt ≠ 0

/-- A state after an instruction that leaves its hearth as `y` but for PC and CNT: PC passes it, unless it is repeated and
goes on with its next iteration (R292, R328). -/
def State.ran (u : State) (h : HearthId) (l : List Byte) (i : HInstr) (y : Hearth) : State :=
  let once := decide (i.pre.rep = .once)
  let cnt := if once then y.cnt else y.cnt - 1
  let more := !once && cnt != 0 && !(i.pre.rep == .rpteq && !bit y.fl 1) && !(i.pre.rep == .rptne && bit y.fl 1)
  { u with hearth := u.hearth.set h { y with
    cnt := cnt, pc := if more then y.pc else y.pc + BitVec.ofNat 16 i.len, rep := if more then l else [], resume := false } }

/-- The operands of an instruction of the two-operand group, `d` the destination's and `e` the source's; a memory operand
is read, which leaves `v` (R321, R330). -/
abbrev State.operands (u : State) (h : HearthId) (i : HInstr) (d e : Nat) (v : State) : Prop :=
  let x := u.hearth[h]
  let w := i.pre.wide
  match i.form with
  | .rr a b => v = u ∧ d = x.operand w a ∧ e = x.operand w b
  | .ri a imm => v = u ∧ d = x.operand w a ∧
    e = if w && imm.msb then imm.toNat + 0xFFFF0000 else imm.toNat
  | .mem r dir sp ptr am k =>
    u.readMem h w (x.memAddr i.pre sp ptr am k).1 (x.memAddr i.pre sp ptr am k).2 = (v, .ok (if dir then d else e)) ∧
      (if dir then e else d) = x.operand w r
  | _ => False

/-- The value `r` goes to the destination of such an instruction of a hearth that began it as `x`, which leaves `y`
(R321, R330). -/
abbrev State.delivers (v : State) (h : HearthId) (i : HInstr) (x : Hearth) (r : Nat) (y : State) : Prop :=
  let w := i.pre.wide
  match i.form with
  | .rr a _ => y = { v with hearth := v.hearth.set h (v.hearth[h].setOperand w a r) }
  | .ri a _ => y = { v with hearth := v.hearth.set h (v.hearth[h].setOperand w a r) }
  | .mem a false _ _ _ _ => y = { v with hearth := v.hearth.set h (v.hearth[h].setOperand w a r) }
  | .mem _ true sp ptr am k =>
    v.writeMem h w (x.memAddr i.pre sp ptr am k).1 (x.memAddr i.pre sp ptr am k).2 r = (y, .ok ())
  | _ => False

/-- Flags after an operation that writes C, Z, N and V: V also sets OVS, the other bits stay (R307, R324). -/
abbrev flagsSet (old new : Word) (c z n v : Bool) : Prop :=
  bit new 0 = c ∧ bit new 1 = z ∧ bit new 2 = n ∧ bit new 3 = v ∧ bit new 5 = (v || bit old 5) ∧
    ∀ k, k < 16 → k ≠ 0 → k ≠ 1 → k ≠ 2 → k ≠ 3 → k ≠ 5 → bit new k = bit old k

end Sys2Proof.Machine
end

