-- ==== Sys2Proof/WellFormed.lean ====
section
/-! DEFINITION. The commands that the device can be given: the shapes of what arrives from outside, beyond what the operand
types say. A command of another shape has a meaning too; it stands for nothing that the spec lets happen. -/

namespace Sys2Proof

/-- A register's address: even, from 0x300_0000 to 0x30F_FFFF (R475, R477). -/
def Addr.isReg (a : Addr) : Bool := decide (0x3000000 ≤ a.toNat) && decide (a.toNat < 0x3100000) && a.toNat % 2 == 0

/-- The data bytes of a DLC (R220). -/
def canBytes (fdf : Bool) (dlc : Nat) : Nat :=
  if dlc ≤ 8 then dlc
  else if !fdf then 8
  else [12, 16, 20, 24, 32, 48, 64].getD (dlc - 9) 0

/-- A CAN frame as the bus can carry it: an identifier of its width, no remote frame of the FD format, no rate switch of
the classical one, and as many data bytes as the DLC says (R211, R220). -/
def CanFrame.wf (f : CanFrame) : Bool :=
  (f.ide || decide (f.id.toNat < 2048)) && !(f.rtr && f.fdf) && (f.fdf || !f.brs) &&
  f.data.length == (if f.rtr then 0 else canBytes f.fdf f.dlc.toNat)

/-- A ring frame as the line can carry it: 16 header bytes, and one CRC for each segment of up to 1,024 bytes (R178). -/
def RingWire.wf (f : RingWire) : Bool :=
  f.header.length == 16 && f.crcs.length == (f.payload.length + 1023) / 1024

/-- A set of readings of all sensors (R458). -/
def SensorReadings.wf (r : SensorReadings) : Bool :=
  r.slack.length == 44 && r.osc.length == 8 && r.temp.length == 6 && r.eyes.length == 14 && r.ron.length == 16

/-- The shape of a command. -/
def Instr.wf : Instr → Bool
  | .registerWrite _ _ a _ => a.isReg
  | .pairLoRead _ a => a.isReg
  | .pairLoWrite _ a _ => a.isReg
  | .pairHiWrite _ a _ => a.isReg
  | .readClear _ a => a.isReg
  | .frameReturn _ f => f.wf
  | .dataFrame _ _ f => f.wf
  | .claim _ _ f => f.wf
  | .surveyPassage _ _ f => f.wf
  | .surveyResult _ _ f => f.wf
  | .canFrameValid _ f => f.wf
  | .hostReadRequest _ a l => a.toNat % 2 == 0 && !l.isEmpty && decide (l.length ≤ 256)
  | .hostWriteRequest _ a l => a.toNat % 2 == 0 && !l.isEmpty && decide (l.length ≤ 128)
  | .flashAttempt a b => a.length == 256 && b.length == 256
  | .xspiCommandDone l => decide (l.length ≤ 64)
  | .sensorUpdate r => r.wf
  | .avsStepSettled _ r => r.wf
  | .ingressCell _ _ _ _ _ l => !l.isEmpty && decide (l.length ≤ 64)
  | _ => true

end Sys2Proof
end

