-- ==== Sys2Proof/Certificates/Slice0/Obligations.lean ====
section
/-! DEFINITION. The statements about the model, one Prop each. A statement names the commands that it is about. The
premise `s.writes m off` says that the write of master m reaches the register at that offset, `s.reads m off` the same
of a read, `s.on` that the device is out of reset. A conclusion of the form `t = { s with … }` is the frame: every part
of the state that the braces do not name is as before. -/

open Sys2Proof Sys2Proof.Machine

/-! ## Time unit (02_timebase.md) -/

/-- R39, R41, R58, R43 to R45: writes of TIM_CTRL and TIM_SRV_E2, and the entry into holdover. -/
def Obligations.ServoCommands : Prop :=
  (∀ (m : Master) (s : State), s.writes m 0x10000 → s.tick.running = false →
    ∃ t, exec (.timCtrlSet m) s = .next t ∧ t.time.beat = s.time.beat + 1 ∧
      t.time.todx = ofWords [s.reg 0x10020, s.reg 0x10022, s.reg 0x10024, s.reg 0x10026, s.reg 0x10028] * 2 ^ 45 ∧
      t.reg 0x10000 = s.reg 0x10000 &&& 0xFF ∧ (∀ off, off ≠ 0x10000 → t.reg off = s.reg off) ∧
      t.time.integ = s.time.integ ∧
      t = { s with time := t.time, regs := t.regs, host := t.host, ssn := t.ssn, resp := t.resp }) ∧
  (∀ (m : Master) (s : State), s.writes m 0x10000 → s.tick.running = true →
    ∃ t, exec (.timCtrlSet m) s = .next t ∧ t.time.beat = s.time.beat ∧ t.time.todx = s.time.todx ∧
      t.reg 0x10004 = s.reg 0x10004 ||| 4 ∧
      (∀ off, off ≠ 0x10000 → off ≠ 0x10004 → t.reg off = s.reg off) ∧
      t = { s with time := t.time, regs := t.regs, fresh := t.fresh, resp := t.resp }) ∧
  (∀ (m : Master) (s : State), s.writes m 0x10000 →
    ∃ t, exec (.integClr m) s = .next t ∧ t.time.integ = 0 ∧
      (s.tick.running = true → t.time.adj = s.time.adj ∧ t.time.adjNew = some 0) ∧
      (s.tick.running = false → t.time.adj = 0 ∧ t.time.adjNew = none) ∧
      t.time.beat = s.time.beat ∧ t.time.todx = s.time.todx ∧
      (∀ off, off ≠ 0x10000 → t.reg off = s.reg off) ∧
      t = { s with time := t.time, regs := t.regs, resp := t.resp }) ∧
  (∀ (m : Master) (en : Bool) (s : State), s.writes m 0x10000 →
    ∃ t, exec (.srvEn m en) s = .next t ∧ bit (t.reg 0x10000) 0 = en ∧
      (∀ i, 1 ≤ i → i < 8 → bit (t.reg 0x10000) i = bit (s.reg 0x10000) i) ∧
      (en = true → bit (s.reg 0x10000) 0 = false → t.time.holdFrom = s.time.beat) ∧
      (en = false → t.time.hold = false ∧ (s.tick.running = false → t.time.adj = s.time.integ) ∧
        (s.tick.running = true → t.time.adjNew = some s.time.integ)) ∧
      t.time.integ = s.time.integ ∧ t.time.todx = s.time.todx ∧
      (∀ off, off ≠ 0x10000 → t.reg off = s.reg off) ∧
      t = { s with time := t.time, regs := t.regs, resp := t.resp }) ∧
  (∀ (m : Master) (src : BitVec 3) (s : State), s.writes m 0x10000 →
    ∃ t, exec (.srvSrc m src) s = .next t ∧ fld (t.reg 0x10000) 1 3 = src.toNat ∧
      bit (t.reg 0x10000) 0 = bit (s.reg 0x10000) 0 ∧ fld (t.reg 0x10000) 4 4 = fld (s.reg 0x10000) 4 4 ∧
      (fld (s.reg 0x10000) 1 3 ≠ src.toNat → t.time.holdFrom = s.time.beat) ∧
      (src.toNat = 0 ∨ 5 ≤ src.toNat → t.time.hold = false ∧ (s.tick.running = false → t.time.adj = s.time.integ)) ∧
      t.time.integ = s.time.integ ∧ t.time.todx = s.time.todx ∧
      (∀ off, off ≠ 0x10000 → t.reg off = s.reg off) ∧
      t = { s with time := t.time, regs := t.regs, resp := t.resp }) ∧
  (∀ (m : Master) (v : Word) (s : State), s.writes m 0x10064 → bit (s.reg 0x10000) 0 = true →
    fld (s.reg 0x10000) 1 3 = 1 →
    let e0 := asInt (ofWords [s.reg 0x10060, s.reg 0x10062, v]) 48
    let e := max (-2147483648) (min 2147483647 e0)
    let i0 := s.time.integ + e * (s.reg 0x1005C).toNat * 2 ^ fld (s.reg 0x1005E) 8 5 / 65536
    let integ := max (-2147483648) (min 2147483647 i0)
    let a0 := integ + e * (s.reg 0x1005A).toNat * 2 ^ fld (s.reg 0x1005E) 0 5 / 65536
    let adj := max (-2147483648) (min 2147483647 a0)
    ∃ t, exec (.timSrvESubmit m v) s = .next t ∧ t.time.integ = integ ∧
      (s.tick.running = true → t.time.adj = s.time.adj ∧ t.time.adjNew = some adj) ∧
      (s.tick.running = false → t.time.adj = adj) ∧ (t.time.adjSat = true ↔ adj ≠ a0) ∧
      t.time.hold = false ∧ t.time.holdFrom = s.time.beat ∧ t.time.todx = s.time.todx ∧
      (e ≠ e0 → bit (t.reg 0x10004) 5 = true) ∧
      (e.natAbs < (s.reg 0x10068).toNat → (t.time.locked = true ↔ s.time.locked = true ∨ 7 ≤ s.time.good)) ∧
      ((s.reg 0x10068).toNat ≤ e.natAbs → (t.time.locked = true ↔ s.time.locked = true ∧ s.time.bad < 3) ∧
        (s.time.locked = true → 3 ≤ s.time.bad → bit (t.reg 0x10004) 0 = true)) ∧
      (∀ off, off ≠ 0x10004 → t.reg off = s.reg off) ∧
      t = { s with time := t.time, regs := t.regs, fresh := t.fresh, resp := t.resp }) ∧
  (∀ s : State, s.on → bit (s.reg 0x10000) 0 = true → 1 ≤ fld (s.reg 0x10000) 1 3 → fld (s.reg 0x10000) 1 3 ≤ 4 →
    s.time.hold = false →
    ∃ t, exec .holdoverEntry s = .next t ∧
      t.time.beat = max s.time.beat (s.time.holdFrom + max 1 (s.reg 0x10066).toNat * 524288) ∧
      t.time.hold = true ∧ t.time.locked = false ∧ t.time.holdBeat = t.time.beat ∧
      bit (t.reg 0x10004) 1 = true ∧ (s.time.locked = true → bit (t.reg 0x10004) 0 = true) ∧
      (s.tick.running = false → t.time.adj = s.time.integ) ∧
      (s.tick.running = true → t.time.adj = s.time.adj ∧ t.time.adjNew = some s.time.integ) ∧
      (∀ off, off ≠ 0x10004 → t.reg off = s.reg off) ∧
      t = { s with time := t.time, regs := t.regs, fresh := t.fresh, host := t.host, ssn := t.ssn })

/-- R51, R52, R54, R55, R58: the end of a gate and of a span, and a conversion. -/
def Obligations.ClockChecksAndConversion : Prop :=
  (∀ (per : BitVec 32) (s : State), s.on →
    ∃ t, exec (.sdsGate per) s = .next t ∧ t.time.beat = max s.time.beat (s.time.sdsBeat + 524288) ∧
      t.time.sdsPer = per ∧ t.time.sdsBeat = t.time.beat ∧
      (t.time.sdsOk = true ↔ 2 ^ 48 ≤ per.toNat * 156265625 ∧ per.toNat * 156234375 ≤ 2 ^ 48) ∧
      bit (t.reg 0x10004) 3 = (bit (s.reg 0x10004) 3 || !t.time.sdsOk) ∧
      (∀ off, off ≠ 0x10004 → t.reg off = s.reg off) ∧
      t = { s with time := t.time, regs := t.regs, fresh := t.fresh, host := t.host, ssn := t.ssn }) ∧
  (∀ (cycles : Nat) (s : State), s.on →
    ∃ t, exec (.canClkSpan cycles) s = .next t ∧ t.time.beat = max s.time.beat (s.time.canSpanBeat + 524288) ∧
      t.time.todx = s.time.todx + (s.time.canSpanBeat + 524288 - s.time.beat) * s.time.rate ∧
      (t.time.canOk = true ↔ cycles = 78125) ∧ t.time.canSpanBeat = t.time.beat ∧
      t.time.canSpanTod = BitVec.ofNat 80 (t.time.todx / 2 ^ 45) ∧
      bit (t.reg 0x10004) 4 = (bit (s.reg 0x10004) 4 || decide (cycles ≠ 78125)) ∧
      (∀ c : CanId, s.time.canOk = true → cycles ≠ 78125 → s.can[c].st ≠ .off → s.can[c].st ≠ .init →
        t.can[c].st = .suspended ∧ t.can[c].tx = none) ∧
      (∀ c : CanId, cycles = 78125 → s.can[c].st = .suspended → t.can[c].st = .integrating) ∧
      (∀ c : CanId, s.can[c].st = .off ∨ s.can[c].st = .init → t.can[c] = s.can[c]) ∧
      t = { s with
        time := t.time, can := t.can, regs := t.regs, fresh := t.fresh, host := t.host, ssn := t.ssn }) ∧
  (∀ (m : Master) (v : Word) (s : State), s.writes m 0x1007A →
    ∃ t, exec (.timCnv m v) s = .next t ∧ t.reg 0x1007A = v ∧
      (t.reg 0x10078 = match s.hold[m] with
        | some (o, w) => if o = 0x10078 then w else s.reg 0x10078
        | none => s.reg 0x10078) ∧
      (let f := (t.reg 0x10078).toNat + 65536 * v.toNat
       let ns := (2 * (f * 1953125) + 8388608 - (if (f * 1953125 / 8388608) % 2 = 0 then 1 else 0)) / 16777216
       (ns < 1000000000 → t.time.cnvNs = BitVec.ofNat 32 ns) ∧
       (1000000000 ≤ ns → t.time.cnvNs = 0x80000000) ∧
       (256 * t.time.cnvRes - 2 * ((f * 1953125 : Nat) - (ns * 8388608 : Nat) : Int)).natAbs ≤ 128 ∧
       -32768 ≤ t.time.cnvRes ∧ t.time.cnvRes ≤ 32768) ∧
      t.hold[m] = none ∧ (∀ off, off ≠ 0x10078 → off ≠ 0x1007A → t.reg off = s.reg off) ∧
      t = { s with time := t.time, regs := t.regs, hold := t.hold, resp := t.resp })

/-- R56: edges and reads of a timestamp input, and the clearing of its EN. The stamp of an edge at sliver `sub` is time of
day there. -/
def Obligations.TimestampInputs : Prop :=
  (∀ (i : Fin 16) (rising : Bool) (sub : Fin 8) (s : State), s.on → bit (s.reg (0x10080 + 0x10 * i.val)) 0 = true →
    bit (s.reg (0x10080 + 0x10 * i.val)) (if rising then 1 else 2) = true →
    let stamp : Stamp := { tod := BitVec.ofNat 80 ((s.time.todx + sub.val * s.time.rate / 8) / 2 ^ 45), rising := rising }
    let pps := rising && bit (s.reg 0x10000) 0 && fld (s.reg 0x10000) 1 3 == 4 && fld (s.reg 0x10000) 4 4 == i.val
    ∃ t, exec (.tsiEdge i rising sub) s = .next t ∧ t.time.tsi[i].pin = rising ∧
      (s.time.tsi[i].fifo.length < 4 → t.time.tsi[i].fifo = s.time.tsi[i].fifo ++ [stamp] ∧
        t.time.tsi[i].ovf = s.time.tsi[i].ovf ∧ bit (t.reg 0x10004) 6 = bit (s.reg 0x10004) 6) ∧
      (4 ≤ s.time.tsi[i].fifo.length → t.time.tsi[i].fifo = s.time.tsi[i].fifo ∧ t.time.tsi[i].ovf = true ∧
        bit (t.reg 0x10004) 6 = true) ∧
      (∀ k : Fin 16, k ≠ i → t.time.tsi[k] = s.time.tsi[k]) ∧
      (pps = false → t.time = { s.time with tsi := t.time.tsi }) ∧
      (pps = true → t.time.holdFrom = s.time.beat ∧ t.time.hold = false ∧
        (let f : Int := (stamp.tod.toNat % 2 ^ 32 : Nat)
         let e := if f < 2 ^ 31 then -f else 2 ^ 32 - f
         t.time.integ = max (-2147483648) (min 2147483647 (s.time.integ +
           max (-2147483648) (min 2147483647 e) * (s.reg 0x1005C).toNat * 2 ^ fld (s.reg 0x1005E) 8 5 / 65536)))) ∧
      (∀ off, off ≠ 0x10004 → t.reg off = s.reg off) ∧
      t = { s with time := t.time, regs := t.regs, fresh := t.fresh }) ∧
  (∀ (m : Master) (i : Fin 16) (s : State), s.reads m (0x10084 + 0x10 * i.val) →
    ∃ t, exec (.tsiS0Read m i) s = .next t ∧
      (∀ st ∈ s.time.tsi[i].fifo.head?, t.resp[m] = { value := wordOf st.tod.toNat 0, error := false }) ∧
      (∀ st ∈ s.time.tsi[i].fifo.head?, ∀ k, 1 ≤ k → k < 5 →
        t.latched m (0x10084 + 0x10 * i.val + 2 * k) 0 = wordOf st.tod.toNat k) ∧
      (s.time.tsi[i].fifo = [] → t.resp[m] = { value := 0, error := false }) ∧
      t.time = { s.time with tsi := s.time.tsi.set i { s.time.tsi[i] with fifo := s.time.tsi[i].fifo.drop 1 } } ∧
      (∀ k : Master, k ≠ m → t.resp[k] = s.resp[k]) ∧
      t = { s with time := t.time, latch := t.latch, resp := t.resp }) ∧
  (∀ (m : Master) (i : Fin 16) (s : State), s.writes m (0x10080 + 0x10 * i.val) →
    ∃ t, exec (.tsiEnClear m i) s = .next t ∧ t.time.tsi[i].fifo = [] ∧
      t.reg (0x10080 + 0x10 * i.val) = s.reg (0x10080 + 0x10 * i.val) &&& 6 ∧
      (∀ k : Fin 16, k ≠ i → t.time.tsi[k] = s.time.tsi[k]) ∧
      (∀ off, off ≠ 0x10080 + 0x10 * i.val → t.reg off = s.reg off) ∧
      t = { s with time := { s.time with tsi := t.time.tsi }, regs := t.regs, resp := t.resp })

/-- R57: the timed outputs. The premise on ADJ keeps time of day moving, as the limits of R43 do. -/
def Obligations.TimedOutputs : Prop :=
  (∀ (j : Fin 4) (s : State), s.on → fld (s.reg (0x10200 + 0x10 * j.val)) 0 3 = 3 → -2147483648 ≤ s.time.adj →
    let x0 := (s.time.todx + 2 ^ 77 - 1) / 2 ^ 77 * 2 ^ 77
    let x := if s.time.tso[j].pulse = some s.time.beat ∧ x0 < s.time.todx + s.time.rate then x0 + 2 ^ 77 else x0
    ∃ t, exec (.tsoPpsEdge j) s = .next t ∧ t.time.tso[j].pin = .high ∧ t.time.tso[j].pulse = some t.time.beat ∧
      t.time.todx ≤ x ∧ x < t.time.todx + s.time.rate ∧
      t.time.todx = s.time.todx + (t.time.beat - s.time.beat) * s.time.rate ∧ s.time.beat ≤ t.time.beat ∧
      (∀ k : Fin 4, k ≠ j → t.time.tso[k] = s.time.tso[k]) ∧
      t = { s with time := t.time, host := t.host, ssn := t.ssn }) ∧
  (∀ (j : Fin 4) (b : Nat) (s : State), s.on → s.time.tso[j].pulse = some b →
    let c := s.reg (0x10200 + 0x10 * j.val)
    let width := if fld c 0 3 = 3 then max 1 (fld c 3 10) * 524288 else 4096
    ∃ t, exec (.tsoPulseEnd j) s = .next t ∧ t.time.beat = max s.time.beat (b + width) ∧
      t.time.tso = s.time.tso.set j { s.time.tso[j] with pin := .low, pulse := none } ∧
      t = { s with time := t.time, host := t.host, ssn := t.ssn }) ∧
  (∀ (j : Fin 4) (h : BitVec 80) (r : List (BitVec 80)) (s : State), s.on → s.time.tso[j].queue = h :: r →
    h.toNat < s.time.todx / 2 ^ 45 % 2 ^ 80 →
    ∃ t, exec (.tsoToggle j) s = .next t ∧
      t.time = { s.time with tso := s.time.tso.set j { s.time.tso[j] with queue := r, miss := true } } ∧
      t.reg 0x10004 = s.reg 0x10004 ||| 128 ∧ (∀ off, off ≠ 0x10004 → t.reg off = s.reg off) ∧
      t = { s with time := t.time, regs := t.regs, fresh := t.fresh }) ∧
  (∀ (j : Fin 4) (h : BitVec 80) (r : List (BitVec 80)) (s : State), s.on → s.time.tso[j].queue = h :: r →
    s.time.todx / 2 ^ 45 % 2 ^ 80 ≤ h.toNat → -2147483648 ≤ s.time.adj →
    ∃ t, exec (.tsoToggle j) s = .next t ∧
      t.time.tso = s.time.tso.set j { s.time.tso[j] with
        queue := r, pin := if s.time.tso[j].pin = .high then .low else .high } ∧
      s.time.beat ≤ t.time.beat ∧ t.time.todx = s.time.todx + (t.time.beat - s.time.beat) * s.time.rate ∧
      (let x := (s.time.todx / 2 ^ 125 * 2 ^ 80 + h.toNat) * 2 ^ 45
       x < t.time.todx + s.time.rate ∧ (s.time.beat < t.time.beat → t.time.todx ≤ x)) ∧
      t = { s with time := t.time, host := t.host, ssn := t.ssn }) ∧
  (∀ (m : Master) (j : Fin 4) (v : Word) (s : State), s.writes m (0x1020C + 0x10 * j.val) →
    fld (s.reg (0x10200 + 0x10 * j.val)) 0 3 = 6 →
    let o := 0x10204 + 0x10 * j.val
    let x := ofWords [s.reg o, s.reg (o + 2), s.reg (o + 4), s.reg (o + 6), v]
    ∃ t, exec (.tsoPush m j v) s = .next t ∧
      (s.time.tso[j].queue.length < 4 →
        t.time.tso = s.time.tso.set j { s.time.tso[j] with queue := s.time.tso[j].queue ++ [BitVec.ofNat 80 x] }) ∧
      (4 ≤ s.time.tso[j].queue.length → t.time.tso = s.time.tso.set j { s.time.tso[j] with full := true }) ∧
      t = { s with time := { s.time with tso := t.time.tso }, fresh := t.fresh, resp := t.resp }) ∧
  (∀ (m : Master) (j : Fin 4) (mode : BitVec 3) (s : State), s.writes m (0x10200 + 0x10 * j.val) →
    let c := s.reg (0x10200 + 0x10 * j.val)
    ∃ t, exec (.tsoModeChange m j mode) s = .next t ∧ fld (t.reg (0x10200 + 0x10 * j.val)) 0 3 = mode.toNat ∧
      fld (t.reg (0x10200 + 0x10 * j.val)) 3 10 = fld c 3 10 ∧
      (fld c 0 3 = mode.toNat → t.time = s.time) ∧
      (fld c 0 3 ≠ mode.toNat → t.time.tso = s.time.tso.set j { s.time.tso[j] with
        queue := [], pulse := none
        pin := if mode = 0 ∨ mode = 7 then .hiZ else if mode = 2 then .high
          else if mode = 6 ∧ s.time.tso[j].pin ≠ .hiZ then s.time.tso[j].pin else .low }) ∧
      (∀ off, off ≠ 0x10200 + 0x10 * j.val → t.reg off = s.reg off) ∧
      t = { s with time := { s.time with tso := t.time.tso }, regs := t.regs, resp := t.resp })
/-! ## Tick controller (03_tick_and_strike.md) -/

/-- R38, R60 to R62, R66, R85, R88, R90: tick starts, the strike, and the writes of TCK_CTRL. -/
def Obligations.TickAndStrike : Prop :=
  (∀ s : State, s.on → s.tick.running = true → bit (s.reg 0x20000) 0 = true →
    ∃ t, exec .tickStart s = .next t ∧ t.time.beat = max s.time.beat (s.tick.tBeat + s.tick.pk) ∧
      t.tick.running = true ∧ t.tick.tBeat = t.time.beat ∧ t.tick.first = false ∧ t.tick.struck = false ∧
      t.tick.sealClosed = false ∧ t.jnr.inDone = false ∧ t.jnr.outStarted = false ∧
      t.time.adj = s.time.adjNew.getD s.time.adj ∧ t.time.adjNew = none ∧ bit (t.reg 0x20004) 0 = true ∧
      (s.tick.req = none → t.tick.mode = s.tick.mode ∧ t.tick.req = none) ∧
      t = { s with
        time := t.time, tick := t.tick, jnr := t.jnr, swf := t.swf, ring := t.ring, can := t.can, jig := t.jig,
        hearth := t.hearth, mot := t.mot, gp := t.gp, host := t.host, ssn := t.ssn, regs := t.regs, fresh := t.fresh }) ∧
  (∀ s : State, s.on → s.tick.running = true → bit (s.reg 0x20000) 0 = false →
    ∃ t, exec .tickStart s = .next t ∧ t.time.beat = max s.time.beat (s.tick.tBeat + s.tick.pk) ∧
      t.tick.running = false ∧ t.tick.req = none ∧ t.tick.tick = s.tick.tick ∧
      bit (t.reg 0x20004) 0 = bit (s.reg 0x20004) 0 ∧
      (s.tick.req ≠ none → bit (t.reg 0x20004) 5 = true) ∧
      t = { s with
        time := t.time, tick := t.tick, ring := t.ring, jig := t.jig, host := t.host, ssn := t.ssn, regs := t.regs,
        fresh := t.fresh }) ∧
  (∀ (b : Nat) (m : Fin 8) (s : State), s.on → s.tick.running = false → s.tick.starting = some (b, m) →
    bit (s.reg 0x20000) 0 = true →
    ∃ t, exec .tickStart s = .next t ∧ b ≤ t.time.beat ∧ t.tick.running = true ∧ t.tick.first = true ∧
      t.tick.tBeat = t.time.beat ∧ t.tick.mode = m ∧ t.tick.struck = false ∧ bit (t.reg 0x20004) 0 = true ∧
      t = { s with
        time := t.time, tick := t.tick, jnr := t.jnr, swf := t.swf, ring := t.ring, can := t.can, jig := t.jig,
        hearth := t.hearth, mot := t.mot, gp := t.gp, host := t.host, ssn := t.ssn, regs := t.regs, fresh := t.fresh }) ∧
  (∀ s : State, s.on → s.tick.running = true → s.tick.struck = false →
    ∃ t, exec .strike s = .next t ∧ t.time.beat = max s.time.beat (s.tick.tBeat + s.tick.lPrime) ∧
      t.tick.struck = true ∧ t.jnr.side = !s.jnr.side ∧ bit (t.reg 0x20004) 1 = true ∧ t.tick.tick = s.tick.tick ∧
      t.jnr.run.isSome = true ∧ (∀ r ∈ t.jnr.run, r.out = false ∧ r.start = t.time.beat ∧ r.expired = false) ∧
      t.mac = s.mac ∧ t.swf = s.swf ∧ t.flue = s.flue ∧ t.epoch = s.epoch ∧ t.kdl = s.kdl ∧ t.hold = s.hold ∧
      t.latch = s.latch ∧ t.hearth = s.hearth ∧ t.pending = s.pending) ∧
  (∀ (m : Master) (mode : BitVec 3) (s : State), s.writes m 0x20000 → s.tick.running = false →
    ∃ t, exec (.tckCtrlRun m mode) s = .next t ∧ t.reg 0x20000 = 1 + 2 * mode.zeroExtend 16 ∧
      (s.modeOk mode.toNat = true → t.tick = { s.tick with starting := some (s.time.beat + 8192, mode.toFin) }) ∧
      (s.modeOk mode.toNat = false → t.tick = s.tick ∧ bit (t.reg 0x20004) 7 = true) ∧
      (∀ off, off ≠ 0x20000 → off ≠ 0x20004 → t.reg off = s.reg off) ∧
      t = { s with tick := t.tick, regs := t.regs, fresh := t.fresh, resp := t.resp }) ∧
  (∀ (m : Master) (s : State), s.writes m 0x20000 →
    exec (.tckCtrlStop m) s = .next ((s.setReg 0x20000 (s.reg 0x20000 &&& 0xE)).respond m 0 false))

/-- R64 to R66, R74, R77: the phases of a tick and the expiry of budgets. An overrun of index x sets bit x of
TCK_OVR_FLAG and OVR of TCK_EVENT, and counts in TCK_OVR_CNTx, saturating. -/
def Obligations.PhasesAndOverruns : Prop :=
  (∀ (r : JRun) (s : State), s.on → s.jnr.run = some r → r.out = false → r.next = r.stop →
    ∃ t, exec .joinInComplete s = .next t ∧ t.jnr = { s.jnr with run := none, inDone := true } ∧
      t.time.beat = s.time.beat + 1 ∧ t.tick.workBeat = max s.tick.workBeat (s.time.beat + 1) ∧
      (s.time.beat - r.start < 2 ^ 32 → t.pair 0x200B0 = max (s.pair 0x200B0) (s.time.beat - r.start)) ∧
      (∀ h : HearthId, s.hearth[h].st ≠ .idle → t.hearth[h] = s.hearth[h] ∧ t.tick.tasks[h] = s.tick.tasks[h]) ∧
      t = { s with
        time := t.time, tick := t.tick, jnr := t.jnr, hearth := t.hearth, host := t.host, ssn := t.ssn, regs := t.regs,
        fresh := t.fresh }) ∧
  (∀ (r : JRun) (s : State), s.on → s.jnr.run = some r → r.out = false → r.expired = false →
    let budget := s.pair (0x20108 + 0x20 * s.tick.mode.val)
    ∃ t, exec .jinExpiry s = .next t ∧ t.time.beat = max s.time.beat (r.start + budget) ∧
      t.jnr = { s.jnr with run := some { r with expired := true } } ∧
      t.reg 0x20060 = s.reg 0x20060 ||| 0x1000 ∧ t.reg 0x20004 = s.reg 0x20004 ||| 4 ∧
      (t.reg 0x20058).toNat = min 65535 ((s.reg 0x20058).toNat + 1) ∧
      (∀ off, off ≠ 0x20060 → off ≠ 0x20004 → off ≠ 0x20058 → t.reg off = s.reg off) ∧
      t = { s with
        time := t.time, jnr := t.jnr, host := t.host, ssn := t.ssn, regs := t.regs, fresh := t.fresh }) ∧
  (∀ (r : JRun) (s : State), s.on → s.jnr.run = some r → r.out = true → r.expired = false →
    let budget := s.pair (0x2010C + 0x20 * s.tick.mode.val)
    ∃ t, exec .joutExpiry s = .next t ∧ t.time.beat = max s.time.beat (r.start + budget) ∧
      t.jnr = { s.jnr with run := some { r with expired := true } } ∧
      t.reg 0x20060 = s.reg 0x20060 ||| 0x2000 ∧ t.reg 0x20004 = s.reg 0x20004 ||| 4 ∧
      (t.reg 0x2005A).toNat = min 65535 ((s.reg 0x2005A).toNat + 1) ∧
      (∀ off, off ≠ 0x20060 → off ≠ 0x20004 → off ≠ 0x2005A → t.reg off = s.reg off) ∧
      t = { s with
        time := t.time, jnr := t.jnr, host := t.host, ssn := t.ssn, regs := t.regs, fresh := t.fresh }) ∧
  (∀ s : State, s.on → s.tick.running = true → s.jnr.inDone = true → s.jnr.outStarted = false → s.jnr.run = none →
    ∃ t, exec .joinOutStart s = .next t ∧ t.jnr.outStarted = true ∧ s.time.beat ≤ t.time.beat ∧
      s.tick.workBeat ≤ t.time.beat ∧ t.jnr.inDone = true ∧
      (∀ r ∈ t.jnr.run, r.out = true ∧ r.start = t.time.beat) ∧
      t.hearth = s.hearth ∧ t.mac = s.mac ∧ t.swf = s.swf ∧ t.ring = s.ring ∧ t.can = s.can ∧ t.fio = s.fio ∧
      t.mot = s.mot ∧ t.flue = s.flue ∧ t.kdl = s.kdl ∧ t.pending = s.pending) ∧
  (∀ s : State, s.on → s.tick.running = true → s.tick.sealClosed = false →
    ∃ t, exec .sealingDeadline s = .next t ∧ t.time.beat = max s.time.beat s.deadline ∧ t.tick.sealClosed = true ∧
      (∀ r ∈ t.jnr.run, r.out = false) ∧ t.tick.mode = s.tick.mode ∧ t.tick.tick = s.tick.tick ∧
      (∀ h : HearthId, t.hearth[h].phys = s.hearth[h].phys ∧ t.hearth[h].pc = s.hearth[h].pc) ∧
      t.mac = s.mac ∧ t.swf = s.swf ∧ t.ring = s.ring ∧ t.can = s.can ∧ t.fio = s.fio ∧ t.flue = s.flue ∧
      t.kdl = s.kdl ∧ t.pending = s.pending) ∧
  (∀ (h : HearthId) (k : Task) (s : State), s.on → s.tick.tasks[h] = some k → k.overrun = false →
    ∃ t, exec (.budgetExpiry h) s = .next t ∧ t.time.beat = max s.time.beat (k.release + k.budget) ∧
      t.tick = { s.tick with
        tasks := s.tick.tasks.set h (if k.ended then none else some { k with overrun := true }) } ∧
      bit (t.reg 0x20060) h.val = true ∧ bit (t.reg 0x20004) 2 = true ∧
      (t.reg (0x20040 + 2 * h.val)).toNat = min 65535 ((s.reg (0x20040 + 2 * h.val)).toNat + 1) ∧
      (∀ off, off ≠ 0x20060 → off ≠ 0x20004 → off ≠ 0x20040 + 2 * h.val → t.reg off = s.reg off) ∧
      t = { s with
        time := t.time, tick := t.tick, host := t.host, ssn := t.ssn, regs := t.regs, fresh := t.fresh })

/-- R69, R71, R81 to R83: a seal and a request for a local switch. -/
def Obligations.SealsAndRequests : Prop :=
  (∀ (m : Master) (v : Word) (s : State), s.writes m 0x20020 →
    let i := v.toNat % 1024
    s.imgUnc i = false → s.imgProducer i = m.val → (s.image i).sealed = false → s.tick.running = true →
    (s.tick.first = false ∨ s.tick.struck = true) → s.tick.sealClosed = false → s.time.beat < s.deadline →
    s.inOverrun m = false →
    ∃ t, exec (.tckSeal m v) s = .next t ∧ (t.image i).sealed = true ∧
      (s.imgLocal i = false → (t.image i).sealedSide = s.jnr.side) ∧ (t.image i).latched = (s.image i).latched ∧
      (∀ k, k ≠ i → t.image k = s.image k) ∧
      t = { s with tick := { s.tick with images := t.tick.images }, resp := t.resp }) ∧
  (∀ (m : Master) (v : Word) (s : State), s.writes m 0x20020 →
    let i := v.toNat % 1024
    s.imgUnc i = false → s.imgProducer i ≠ m.val ∨ (s.image i).sealed = true ∨ s.time.beat ≥ s.deadline →
    exec (.tckSeal m v) s = .next ((s.raise 0x20004 6).respond m 0 false)) ∧
  (∀ (m : Master) (v : Word) (s : State), s.writes m 0x20008 → bit v 11 = false → s.tick.running = true →
    s.tick.req = none → (∀ c : ChanId, s.ring[c].vreq = false) → 2 ≤ fld v 3 8 → s.modeOk (fld v 0 3) = true →
    ∃ t, exec (.tckModeReq m v) s = .next t ∧
      t = ({ s with tick := { s.tick with
        req := some { mode := Fin.ofNat 8 (fld v 0 3), commit := some (s.tick.tick + fld v 3 8) } } } : State).respond m 0 false) ∧
  (∀ (m : Master) (v : Word) (s : State), s.writes m 0x20008 → bit v 11 = false →
    s.tick.running = false ∨ s.tick.req ≠ none ∨ fld v 3 8 < 2 →
    exec (.tckModeReq m v) s = .next ((s.raise 0x20004 5).respond m 0 false))
/-! ## Joiner (04_signal_joiner.md) -/

/-- R95, R104, R107 to R112: a join-in move of little-endian fields that lie in one word each, from a fresh intake image
to a delivery image, both in banks of the joiner, whose tables and words hold no marked error: the sink field takes the
converted value of the source field, and the quality word says VALID. The conversion is the subject of
`ConversionOfIntegers` and `FloatSinksAreFinite`. -/
def Obligations.JoinMoveCarriesOneField : Prop :=
  ∀ (r : JRun) (s : State), s.on → s.jnr.run = some r → r.out = false → r.next < r.stop →
    s.jnr.dscEcc = [] → s.jnr.imgEcc = [] → s.jnr.prmEcc = [] → s.jnr.sigEcc = [] → s.bank.ecc = [] → s.bank.beatW = [] →
    let d := s.desc r.next
    let i := d.srcImg
    let k := d.dstImg
    let p := s.param d.param
    let sa := s.imgBase i (!s.jnr.side) + d.srcBit / 16 * 2
    let da := s.imgBase k s.jnr.side + d.dstBit / 16 * 2
    d.en = true → d.out = false → k ∉ r.done → d.srcBe = false → d.dstBe = false → d.qidx = 0xFFF →
    d.srcBit % 16 + d.srcW ≤ 16 → d.dstBit % 16 + d.dstW ≤ 16 → s.isIntake i = true →
    s.imgLocal i = false → s.imgLocal k = false → (s.jimage i).snap.fresh = true →
    (s.jimage i).snap.lost = false → (s.jimage i).snap.supplyInv = false → d.srcBit + d.srcW ≤ 8 * (s.jimage i).snap.len →
    s.imgBase i (!s.jnr.side) % 2 = 0 → s.imgBase k s.jnr.side % 2 = 0 → sa < 0x1000000 → da < 0x1000000 →
    s.bankOwner (bankIdx sa) = 12 → s.bankOwner (bankIdx da) = 12 → s.bank.banks[bankIdx sa].asleep = false →
    s.bank.banks[bankIdx da].asleep = false → s.forceOf r.next = none →
    (s.jimage i).age ≤ 254 → d.ageMax = 255 ∨ (s.jimage i).age ≤ d.ageMax →
    let raw := fld (Memory.word s.bank.mem sa) (d.srcBit % 16) d.srcW
    isFlt d.srcFmt = false ∨ fltBad d.srcFmt raw = false →
    let y := (convertMove d p raw (s.sig r.next)).1
    ∃ t, exec .joinMove s = .next t ∧
      Memory.word t.bank.mem da = setFld (Memory.word s.bank.mem da) (d.dstBit % 16) d.dstW y ∧
      (∀ a, a ≠ da → a ≠ da + 1 → Memory.byte t.bank.mem a = Memory.byte s.bank.mem a) ∧
      bit (t.sig r.next).quality 0 = true ∧ bit (t.sig r.next).quality 1 = false ∧
      bit (t.sig r.next).quality 4 = false ∧ fld (t.sig r.next).quality 8 8 = (s.jimage i).age ∧
      (t.sig r.next).wrote = true ∧ (∀ n, n ≠ r.next → t.sig n = s.sig n) ∧
      (∀ q ∈ t.jnr.run, r.next < q.next ∧ q.stop = r.stop ∧ q.out = false) ∧ t.jnr.run.isSome = true ∧
      t = { s with jnr := { s.jnr with run := t.jnr.run, sig := t.jnr.sig }, bank := t.bank }

/-- R107, R114: the value that a move between integer and boolean formats writes. -/
def Obligations.ConversionOfIntegers : Prop :=
  (∀ (d : Desc) (p : Param) (raw : Nat) (h : SigState), d.srcFmt ≤ 1 → d.dstFmt ≤ 1 → d.edge = 0 → 1 ≤ d.srcW →
    1 ≤ d.dstW → d.srcW ≤ 64 → d.dstW ≤ 64 → raw < 2 ^ d.srcW → p.limLo ≤ p.limHi →
    let x0 : Int := if d.srcFmt = 1 ∧ 2 ^ (d.srcW - 1) ≤ raw then (raw : Int) - 2 ^ d.srcW else raw
    let x1 := if d.scale then x0 * p.factor / 2 ^ p.shift + p.offset else x0
    let x2 := if d.limit then min (max x1 p.limLo) p.limHi else x1
    let lo : Int := if d.dstFmt = 1 then -2 ^ (d.dstW - 1) else 0
    let hi : Int := if d.dstFmt = 1 then 2 ^ (d.dstW - 1) - 1 else 2 ^ d.dstW - 1
    x0 * p.factor ≤ 2 ^ 94 → -(2 ^ 94) ≤ x0 * p.factor → p.offset.natAbs ≤ 2 ^ 31 →
    (convertMove d p raw h).1 = ((min (max x2 lo) hi) % 2 ^ d.dstW).toNat ∧
      ((convertMove d p raw h).2.1 = true ↔ x2 ≠ x1 ∨ min (max x2 lo) hi ≠ x2) ∧ (convertMove d p raw h).2.2 = h) ∧
  (∀ (d : Desc) (p : Param) (raw : Nat) (h : SigState), d.srcFmt = 2 → d.dstFmt ≤ 2 → d.edge = 0 → d.scale = false →
    d.limit = false → 2 ≤ d.dstW → (convertMove d p raw h).1 = if raw = 0 then 0 else 1) ∧
  (∀ (d : Desc) (p : Param) (raw : Nat) (h : SigState), d.srcFmt = 0 → d.edge ≠ 0 → d.dstFmt = 0 →
    let level := decide (raw ≠ 0)
    let rose := d.edge.testBit 0 && !h.last && level
    let fell := d.edge.testBit 1 && h.last && !level
    (convertMove d p raw h).1 = (if h.lastKnown && (rose || fell) then 1 else 0) ∧
      (convertMove d p raw h).2.2 = { h with last := level, lastKnown := true }) ∧
  (∀ (d : Desc) (p : Param) (raw : Nat) (h : SigState), d.srcFmt = 5 →
    convertMove d p raw h = (raw % 2 ^ d.dstW, false, h))

/-- R107: "A float sink never receives NaN or infinity from this path." The exponent field of what an integer becomes is
never all ones, for both float formats, every binary point and every value. -/
def Obligations.FloatSinksAreFinite : Prop :=
  ∀ (fmt fbits : Nat) (x : Int), fmt = 3 ∨ fmt = 4 → fltBad fmt (intToFlt fmt fbits x).1 = false ∧
    (intToFlt fmt fbits x).1 < 2 ^ (if fmt = 3 then 16 else 32)

/-- R99, R119: posts, POST_LEN, and reads and writes of the tables through their staging registers. -/
def Obligations.PostsAndStaging : Prop :=
  (∀ (m : Master) (v : Word) (s : State), s.writes m 0x30008 →
    exec (.jnrPostLen m v) s = .next
      (({ s with jnr := { s.jnr with postLen := s.jnr.postLen.set m v } } : State).respond m 0 false)) ∧
  (∀ (m : Master) (v : Word) (s : State), s.writes m 0x3000A →
    let i := v.toNat % 1024
    let len := if s.jnr.postLen[m] = 0 then 32768 else s.jnr.postLen[m].toNat
    s.imgUnc i = false → s.isIntake i = true → s.imgLocal i = false → s.imgProducer i = m.val → len ≤ s.imgLen i →
    bit v 10 = s.jnr.side →
    ∃ t, exec (.jnrPost m v) s = .next t ∧
      (t.jimage i).filling = { fresh := !bit v 11, lost := bit v 11, supplyInv := bit v 12, len := len } ∧
      (t.jimage i).snap = (s.jimage i).snap ∧ (t.jimage i).age = (s.jimage i).age ∧
      (∀ k, k ≠ i → t.jimage k = s.jimage k) ∧
      t = { s with jnr := { s.jnr with images := t.jnr.images }, resp := t.resp }) ∧
  (∀ (m : Master) (v : Word) (s : State), s.writes m 0x3000A → s.imgProducer (v.toNat % 1024) ≠ m.val →
    exec (.jnrPost m v) s = .next ((s.raise 0x30004 3).respond m 0 false)) ∧
  (∀ (m : Master) (s : State), s.writes m 0x30014 →
    let i := s.pair 0x30010 % 262144
    (∀ k, k < 8 → Sparse.get 0 s.jnr.dscEcc (8 * i + k) = 0) →
    ∃ t, exec (.jnrDscRead m) s = .next t ∧
      (∀ k, k < 8 → t.reg (0x30020 + 2 * k) = Sparse.get 0 s.jnr.dsc (8 * i + k)) ∧
      (∀ off, off < 0x30020 ∨ 0x30030 ≤ off → t.reg off = s.reg off) ∧ t = { s with regs := t.regs, resp := t.resp }) ∧
  (∀ (m : Master) (s : State), s.writes m 0x30042 →
    let i := fld (s.reg 0x30040) 0 10
    (∀ k, k < 16 → Sparse.get 0 s.jnr.imgEcc (16 * i + k) = 0) →
    ∃ t, exec (.jnrImgRead m) s = .next t ∧
      (∀ k, k < 16 → t.reg (0x30060 + 2 * k) = Sparse.get 0 s.jnr.img (16 * i + k)) ∧
      (∀ off, off < 0x30060 ∨ 0x30080 ≤ off → t.reg off = s.reg off) ∧ t = { s with regs := t.regs, resp := t.resp }) ∧
  (∀ (m : Master) (s : State), s.writes m 0x30082 →
    let i := fld (s.reg 0x30080) 0 12
    i ≠ 4095 → (∀ k, k < 16 → Sparse.get 0 s.jnr.prmEcc (16 * i + k) = 0) →
    ∃ t, exec (.jnrPrmRead m) s = .next t ∧
      (∀ k, k < 16 → t.reg (0x300A0 + 2 * k) = Sparse.get 0 s.jnr.prm (16 * i + k)) ∧
      (∀ off, off < 0x300A0 ∨ 0x300C0 ≤ off → t.reg off = s.reg off) ∧ t = { s with regs := t.regs, resp := t.resp }) ∧
  (∀ (m : Master) (s : State), s.writes m 0x30014 → s.jnr.heldDsc = none →
    let w := (List.range 8).map (fun k => s.reg (0x30020 + 2 * k))
    let d := descOf w
    d.en = false ∨ (s.imgUnc d.srcImg = false ∧ s.imgUnc d.dstImg = false ∧ s.descOk d = true) →
    exec (.jnrDscWrite m) s = .next (({ s with jnr := { s.jnr with
      heldDsc := some { idx := s.pair 0x30010 % 262144, words := w } } } : State).respond m 0 false)) ∧
  (∀ (m : Master) (s : State), s.writes m 0x30042 → s.jnr.heldImg = none →
    exec (.jnrImgWrite m) s = .next (({ s with jnr := { s.jnr with
      heldImg := some { idx := fld (s.reg 0x30040) 0 10
                        words := (List.range 16).map (fun k => s.reg (0x30060 + 2 * k)) } } } : State).respond m 0 false)) ∧
  (∀ (m : Master) (s : State), s.writes m 0x30082 → s.jnr.heldPrm = none → fld (s.reg 0x30080) 0 12 ≠ 4095 →
    exec (.jnrPrmWrite m) s = .next (({ s with jnr := { s.jnr with
      heldPrm := some { idx := fld (s.reg 0x30080) 0 12
                        words := (List.range 16).map (fun k => s.reg (0x300A0 + 2 * k)) } } } : State).respond m 0 false)) ∧
  (∀ (m : Master) (s : State), s.writes m 0x30042 → s.jnr.heldImg ≠ none →
    exec (.jnrImgWrite m) s = .next ((s.raise 0x30004 1).respond m 0 false))
/-! ## Switch fabric (05_switch_fabric.md) -/

/-- R126 to R130, R135, R140, R141: cells arrive, a frame is decided and gets its verdict. -/
def Obligations.FramesArriveAndAreDecided : Prop :=
  (∀ (p : PortId) (express : Bool) (sub : Fin 8) (ui : Nat) (l : List Byte) (s : State), s.on → bit (s.reg 0x40000) 0 = true →
    p.val < 10 → s.mac.ports[p].up = true → bit (s.reg (macOff p.val)) 6 = true →
    let ex := express || !s.preempts p
    (∀ g ∈ s.swf.frames, g.ingress = p → g.verdict = none → g.express ≠ ex) →
    let res := (s.reg (swfPort p.val + 0xA)).toNat
    let own := decide (s.swf.resUsed[p] < res)
    own = true ∨ 0 < s.poolFree →
    ∃ t, exec (.ingressCell p true express sub ui l) s = .next t ∧
      t.swf.frames.length = s.swf.frames.length + 1 ∧ t.swf.nextId = s.swf.nextId + 1 ∧ t.swf.free = s.swf.free - 1 ∧
      t.swf.resUsed = (if own then s.swf.resUsed.set p (s.swf.resUsed[p] + 1) else s.swf.resUsed) ∧
      (∀ g ∈ t.swf.frames.getLast?, g.id = s.swf.nextId ∧ g.ingress = p ∧ g.express = ex ∧ g.bytes = l.take 64 ∧
        g.res = res ∧ g.cellsRes = b2n own ∧ g.cellsPool = b2n (!own) ∧ g.dec = none ∧ g.verdict = none) ∧
      t.reg (macOff p.val + 2) = (s.reg (macOff p.val + 2) ||| (if 22 ≤ l.length then 1 else 0)) ∧
      (∀ off, off ≠ macOff p.val + 2 → t.reg off = s.reg off) ∧
      t = { s with swf := t.swf, regs := t.regs, fresh := t.fresh }) ∧
  (∀ (p : PortId) (express : Bool) (sub : Fin 8) (ui : Nat) (l : List Byte) (f : Frame) (s : State), s.on →
    bit (s.reg 0x40000) 0 = true → p.val < 10 → s.mac.ports[p].up = true → bit (s.reg (macOff p.val)) 6 = true →
    let ex := express || !s.preempts p
    s.swf.frames.find? (fun g => g.ingress == p && g.verdict.isNone && g.express == ex) = some f →
    let own := decide (s.swf.resUsed[p] < f.res)
    own = true ∨ 0 < s.poolFree →
    let more := l.take 64
    let room := s.maxLen p.val - f.bytes.length
    ∃ t, exec (.ingressCell p false express sub ui l) s = .next t ∧ t.swf.free = s.swf.free - 1 ∧
      t.swf.frames = s.swf.frames.map (fun g => if g.id = f.id then { g with
        bytes := f.bytes ++ more.take room, oversize := g.oversize || decide (room < more.length)
        cellsRes := g.cellsRes + b2n own, cellsPool := g.cellsPool + b2n (!own) } else g) ∧
      (∀ off, off ≠ macOff p.val + 2 → t.reg off = s.reg off) ∧
      t = { s with swf := t.swf, regs := t.regs, fresh := t.fresh }) ∧
  (∀ (p : PortId) (express : Bool) (sub : Fin 8) (ui : Nat) (l : List Byte) (f : Frame) (s : State), s.on →
    bit (s.reg 0x40000) 0 = true → p.val < 10 → s.mac.ports[p].up = true → bit (s.reg (macOff p.val)) 6 = true →
    let ex := express || !s.preempts p
    s.swf.frames.find? (fun g => g.ingress == p && g.verdict.isNone && g.express == ex) = some f →
    f.res ≤ s.swf.resUsed[p] → s.poolFree = 0 → f.dec = none →
    ∃ t, exec (.ingressCell p false express sub ui l) s = .next t ∧ bit (t.reg 0x40004) 0 = true ∧
      bit (t.reg (macOff p.val + 2)) 1 = true ∧ bit (t.reg (macOff p.val + 2)) 2 = true ∧
      (∀ g ∈ t.swf.frames, g.id ≠ f.id) ∧
      t = { s with swf := t.swf, regs := t.regs, fresh := t.fresh }) ∧
  (∀ (p : PortId) (f : Frame) (s : State), s.on →
    s.swf.frames.find? (fun g => g.ingress == p && g.verdict.isNone && g.dec.isNone && decide (22 ≤ g.bytes.length)) = some f →
    let h := hdrOf f.bytes
    let vid := if h.tagged && h.tci % 4096 != 0 then h.tci % 4096 else fld (s.reg (swfPort p.val + 2)) 0 12
    let member := vid ≠ 4095 ∧ bit (nthD (s.vlEntry vid) 0 0) 11 = true ∧
      (bit (s.reg (swfPort p.val)) 1 = false ∨ bit (nthD (s.vlEntry vid) 0 0) p.val = true)
    ∃ t, exec (.forwardingDecision p) s = .next t ∧ t.swf.frames.length = s.swf.frames.length ∧
      (∀ g ∈ t.swf.frames, g.id = f.id → g.dec.isSome = true) ∧
      (∀ g ∈ t.swf.frames, g.id = f.id → ∀ d ∈ g.dec, g.needs = d.egress ∧ d.vid = BitVec.ofNat 12 vid ∧
        d.tagged = h.tagged ∧ d.consumed = decide (h.etype = 0x8808) ∧
        d.trapped = (decide (h.etype ≠ 0x8808) && linkLocal h.da) ∧
        (d.consumed = true → d.egress = [] ∧ d.drop = some 0x1C) ∧
        (d.trapped = true → d.egress = [10] ∧ d.drop = none ∨ d.egress = [] ∧ d.drop = some 0x18) ∧
        (d.consumed = false → d.trapped = false → ¬member → d.egress = [] ∧ d.drop = some 0x15) ∧
        (d.trapped = false → ∀ e ∈ d.egress, e ≠ f.ingress.val ∧ bit (nthD (s.vlEntry vid) 0 0) e = true) ∧
        (∀ e ∈ d.cut, e ∈ d.egress)) ∧
      (∀ g ∈ s.swf.frames, g.id ≠ f.id → g ∈ t.swf.frames) ∧
      t = { s with swf := t.swf, mac := t.mac, regs := t.regs, fresh := t.fresh }) ∧
  (∀ (p : PortId) (tail : TailInfo) (f : Frame) (d : Decision) (s : State), s.on → p.val < 10 →
    (s.swf.frames.filter (fun g => g.ingress == p && g.verdict.isNone)).getLast? = some f →
    s.swf.frames.find? (fun g => g.id == f.id) = some f →
    f.dec = some d → d.drop = none → d.consumed = false → f.oversize = false →
    tail.reassembly = false → tail.code = false → tail.ecc = none → 64 ≤ f.bytes.length →
    f.bytes.drop (f.bytes.length - 4) = fcsBytes (f.bytes.take (f.bytes.length - 4)) →
    f.bytes.drop (f.bytes.length - 4) ≠ stompBytes (f.bytes.take (f.bytes.length - 4)) →
    ∃ t, exec (.frameVerdict p tail) s = .next t ∧
      (∀ e : PortId, d.egress.contains e.val = true → d.cut.contains e.val = false → f.id ∈ t.swf.ports[e].queues[d.queue]) ∧
      (∀ e : PortId, t.swf.ports[e].sending = s.swf.ports[e].sending ∧ t.swf.ports[e].handed = s.swf.ports[e].handed) ∧
      (∀ off, off ≠ 0x40004 → t.reg off = s.reg off) ∧
      t = { s with swf := t.swf, regs := t.regs, fresh := t.fresh }) ∧
  (∀ (p : PortId) (tail : TailInfo) (f : Frame) (d : Decision) (s : State), s.on → p.val < 10 →
    (s.swf.frames.filter (fun g => g.ingress == p && g.verdict.isNone)).getLast? = some f →
    s.swf.frames.find? (fun g => g.id == f.id) = some f →
    f.dec = some d → d.drop = none → d.consumed = false → f.oversize = false →
    tail.reassembly = false → tail.code = false → tail.ecc = none → 22 ≤ f.bytes.length →
    f.bytes.drop (f.bytes.length - 4) ≠ fcsBytes (f.bytes.take (f.bytes.length - 4)) →
    f.bytes.drop (f.bytes.length - 4) ≠ stompBytes (f.bytes.take (f.bytes.length - 4)) →
    ∃ t, exec (.frameVerdict p tail) s = .next t ∧ bit (t.reg (macOff p.val + 2)) 1 = true ∧
      t.swf.mt = s.swf.mt ∧
      (d.cut ≠ [] → bit (t.reg (0x40020 + 2 * p.val)) 0 = true ∧ bit (t.reg 0x40004) 1 = true) ∧
      (d.cut = [] → t.reg (0x40020 + 2 * p.val) = s.reg (0x40020 + 2 * p.val)) ∧
      t = { s with swf := t.swf, regs := t.regs, fresh := t.fresh }) ∧
  (∀ (p : PortId) (f : Frame) (d : Decision) (s : State), s.on →
    s.swf.frames.find? (fun g => g.ingress == p && g.verdict.isNone && g.oversize) = some f →
    f.dec = some d → d.drop = none →
    ∃ t, exec (.giantFrame p) s = .next t ∧ bit (t.reg (macOff p.val + 2)) 1 = true ∧ t.swf.mt = s.swf.mt ∧
      (d.cut ≠ [] → bit (t.reg (0x40020 + 2 * p.val)) 3 = true ∧ bit (t.reg 0x40004) 1 = true) ∧
      (f.opts = none → t.mac = s.mac) ∧ t.mac.ports = s.mac.ports ∧
      t = { s with swf := t.swf, mac := t.mac, regs := t.regs, fresh := t.fresh })

/-- R126, R139, R143, R144, R146, R148, R170: frames leave, gate lists advance, a pause ends. -/
def Obligations.FramesLeave : Prop :=
  (∀ (p : PortId) (q : Fin 8) (id : Nat) (s : State), s.on →
    p.val = 10 ∨ (s.mac.ports[p].up = true ∧ bit (s.reg (macOff p.val)) 5 = true) →
    s.swf.ports[p].handed = [] → s.swf.ports[p].sending = none → s.paused p = false → s.eligible p q = some id →
    (∀ k : Fin 8, q < k → s.eligible p k = none) →
    ∃ t, exec (.egressFrameStart p) s = .next t ∧ t.swf.ports[p].sending = some id ∧
      t.swf.ports[p].queues = s.swf.ports[p].queues.set q (s.swf.ports[p].queues[q].drop 1) ∧
      t.swf.ports[p].delivered = false ∧ t.swf.ports[p].preempted = s.swf.ports[p].preempted ∧
      (p.val = 10 → t.swf.ports[p].startTod = s.time.stamp 0) ∧
      (∀ e : PortId, e ≠ p → t.swf.ports[e] = s.swf.ports[e]) ∧ t.swf.frames = s.swf.frames ∧
      t = { s with
        swf := { s.swf with ports := t.swf.ports }, mac := { s.mac with groups := t.mac.groups }, regs := t.regs,
        fresh := t.fresh }) ∧
  (∀ (p : PortId) (id : Nat) (r : List Nat) (s : State), s.on →
    p.val = 10 ∨ (s.mac.ports[p].up = true ∧ bit (s.reg (macOff p.val)) 5 = true) →
    s.swf.ports[p].handed = id :: r → s.swf.ports[p].sending = none →
    ∃ t, exec (.egressFrameStart p) s = .next t ∧ t.swf.ports[p].sending = some id ∧ t.swf.ports[p].handed = r ∧
      t.swf.ports[p].queues = s.swf.ports[p].queues ∧ (∀ e : PortId, e ≠ p → t.swf.ports[e] = s.swf.ports[e]) ∧
      t = { s with
        swf := { s.swf with ports := t.swf.ports }, mac := { s.mac with groups := t.mac.groups }, regs := t.regs,
        fresh := t.fresh }) ∧
  (∀ (p : PortId) (id v : Nat) (f : Frame) (s : State), s.on → p.val < 10 → s.swf.ports[p].sending = some id →
    s.frame? id = some f → f.verdict = some v →
    let body := s.egressBody f p.val s.swf.ports[p].startTod
    let tail := if v < 0x20 then fcsBytes body else stompBytes body
    ∃ t, exec (.egressFrameEnd p) s = .next t ∧
      t.swf.ports = s.swf.ports.set p { s.swf.ports[p] with sending := none, wire := body ++ tail } ∧
      t.reg (macOff p.val + 2) = s.reg (macOff p.val + 2) ||| 8 ||| (if v < 0x20 then 0 else 64) ∧
      (f.needs = [p.val] → t.frame? f.id = none ∧ t.swf.free = s.swf.free + f.cellsRes + f.cellsPool) ∧
      (∀ off, off ≠ macOff p.val + 2 → t.reg off = s.reg off) ∧
      t = { s with swf := t.swf, regs := t.regs, fresh := t.fresh }) ∧
  (∀ (p : PortId) (id : Nat) (f : Frame) (s : State), s.on → p.val < 10 → s.swf.ports[p].sending = some id →
    s.frame? id = some f → f.verdict = none → f.ingress.val = 10 →
    let body := s.egressBody f p.val s.swf.ports[p].startTod
    ∃ t, exec (.txUnderrun p) s = .next t ∧
      t.swf.ports = s.swf.ports.set p { s.swf.ports[p] with sending := none, wire := body ++ stompBytes body } ∧
      t.reg (macOff p.val + 2) = s.reg (macOff p.val + 2) ||| 16 ||| 64 ∧
      (∀ off, off ≠ macOff p.val + 2 → t.reg off = s.reg off) ∧
      t = { s with swf := t.swf, regs := t.regs, fresh := t.fresh }) ∧
  (∀ (p : PortId) (s : State), s.on → s.tick.running = true → p.val < 10 →
    let x := s.swf.ports[p]
    let g := s.gate p.val s.tick.mode.val x.gateIdx
    g.last = false → x.gateIdx < 63 → x.gateFrom + g.dur < s.tick.tBeat + s.tick.pk →
    ∃ t, exec (.gateListEntry p) s = .next t ∧ t.time.beat = max s.time.beat (x.gateFrom + g.dur) ∧
      t.swf.ports[p].gateIdx = x.gateIdx + 1 ∧ t.swf.ports[p].gateFrom = x.gateFrom + g.dur ∧
      t.swf.ports[p].queues = x.queues ∧ (∀ e : PortId, e ≠ p → t.swf.ports[e] = s.swf.ports[e]) ∧
      t = { s with time := t.time, swf := { s.swf with ports := t.swf.ports }, host := t.host, ssn := t.ssn }) ∧
  (∀ (p : PortId) (e : Nat) (s : State), s.on → s.swf.ports[p].pauseEnd = some e →
    ∃ t, exec (.pauseExpiry p) s = .next t ∧ t.time.beat = max s.time.beat e ∧ t.paused p = false ∧
      t.swf = { s.swf with ports := s.swf.ports.set p { s.swf.ports[p] with pauseEnd := none } } ∧
      t = { s with time := t.time, swf := t.swf, host := t.host, ssn := t.ssn })

/-- R133, R156: the tables of the fabric through their staging registers, the ageing sweep. A write waits until its
commit and then takes effect whole. -/
def Obligations.SwitchTables : Prop :=
  (∀ (m : Master) (s : State), s.writes m 0x40202 → s.swf.staged = none →
    let e := fld (s.reg 0x40200) 0 14
    ∃ t, exec (.swfMtRead m) s = .next t ∧ (∀ k, k < 5 → t.reg (0x40210 + 2 * k) = nthD (s.mtEntry e) k 0) ∧
      (∀ off, off < 0x40210 ∨ 0x4021A ≤ off → t.reg off = s.reg off) ∧ t = { s with regs := t.regs, resp := t.resp }) ∧
  (∀ (m : Master) (s : State), s.writes m 0x40202 → s.swf.staged = none →
    let w := s.mtStage
    let one := (mtType w ≠ 1 ∧ mtType w ≠ 2) ∨ (portsOf (fld (nthD w 4 0) 0 11)).length = 1
    (one → exec (.swfMtWrite m) s = .next (({ s with swf := { s.swf with
      staged := some (.mt (fld (s.reg 0x40200) 0 14) w) } } : State).respond m 0 false)) ∧
      (¬one → exec (.swfMtWrite m) s = .next ((s.raise 0x40004 5).respond m 0 false))) ∧
  (∀ (m : Master) (e : Nat) (s : State), s.writes m 0x40202 → s.swf.staged = none →
    let w := s.mtStage
    let vid := fld (s.reg 0x40216) 0 12
    let addr := ofWords [s.reg 0x40210, s.reg 0x40212, s.reg 0x40214]
    s.mtEmpty vid addr = some e → (mtType w ≠ 1 ∧ mtType w ≠ 2) ∨ (portsOf (fld (nthD w 4 0) 0 11)).length = 1 →
    e / 4 = mtBucket vid addr ∧ mtType (s.mtEntry e) = 0 ∧
    ∃ t, exec (.swfMtInsert m) s = .next t ∧ t.reg 0x40200 = BitVec.ofNat 16 e ∧
      (∀ off, off ≠ 0x40200 → t.reg off = s.reg off) ∧
      t = { s with swf := { s.swf with staged := some (.mt e w) }, regs := t.regs, resp := t.resp }) ∧
  (∀ (m : Master) (s : State), s.writes m 0x40202 → s.swf.staged = none →
    let vid := fld (s.reg 0x40216) 0 12
    let addr := ofWords [s.reg 0x40210, s.reg 0x40212, s.reg 0x40214]
    s.mtEmpty vid addr = none → exec (.swfMtInsert m) s = .next ((s.raise 0x40004 5).respond m 0 false)) ∧
  (∀ (m : Master) (e : Nat) (s : State), s.writes m 0x40202 → s.swf.staged = none →
    let vid := fld (s.reg 0x40216) 0 12
    let addr := ofWords [s.reg 0x40210, s.reg 0x40212, s.reg 0x40214]
    s.mtFind vid addr = some e →
    e / 4 = mtBucket vid addr ∧ mtMatches (s.mtEntry e) vid addr = true ∧
      exec (.swfMtDelete m) s = .next (({ s with swf := { s.swf with
        staged := some (.mt e [0, 0, 0, 0, 0]) } } : State).respond m 0 false) ∧
      exec (.swfMtSearch m) s = .next ((s.setReg 0x40200 (BitVec.ofNat 16 e)).respond m 0 false)) ∧
  (∀ (m : Master) (s : State), s.writes m 0x40202 → s.swf.staged = none →
    let vid := fld (s.reg 0x40216) 0 12
    let addr := ofWords [s.reg 0x40210, s.reg 0x40212, s.reg 0x40214]
    s.mtFind vid addr = none →
    exec (.swfMtDelete m) s = .next (s.respond m 0 false) ∧
      exec (.swfMtSearch m) s = .next ((s.setReg 0x40216 (s.reg 0x40216 ||| 0x8000)).respond m 0 false)) ∧
  (∀ (m : Master) (s : State), s.writes m 0x40222 → s.swf.staged = none →
    let v := fld (s.reg 0x40220) 0 12
    let held : State := { s with swf := { s.swf with staged := some (.vl v [s.reg 0x40224 &&& 0x1FFF, s.reg 0x40226 &&& 0x7FF]) } }
    exec (.swfVlRead m) s = .next (((s.setReg 0x40224 (nthD (s.vlEntry v) 0 0)).setReg 0x40226
        (nthD (s.vlEntry v) 1 0)).respond m 0 false) ∧
      exec (.swfVlWrite m) s = .next (held.respond m 0 false)) ∧
  (∀ (m : Master) (s : State), s.writes m 0x40242 → s.swf.staged = none →
    let r := fld (s.reg 0x40240) 0 8
    ∃ t, exec (.swfRlRead m) s = .next t ∧ (∀ k, k < 16 → t.reg (0x40260 + 2 * k) = nthD (s.rlEntry r) k 0) ∧
      (∀ off, off < 0x40260 ∨ 0x40280 ≤ off → t.reg off = s.reg off) ∧ t = { s with regs := t.regs, resp := t.resp }) ∧
  (∀ (m : Master) (s : State), s.writes m 0x40242 → s.swf.staged = none →
    let w := (List.range 16).map (fun k => s.reg (0x40260 + 2 * k))
    exec (.swfRlWrite m) s = .next (({ s with swf := { s.swf with
      staged := some (.rl (fld (s.reg 0x40240) 0 8) w) } } : State).respond m 0 false)) ∧
  (∀ (m : Master) (s : State), s.writes m 0x40282 → s.swf.staged = none → fld (s.reg 0x40280) 0 4 < 10 →
    let g := s.gate (fld (s.reg 0x40280) 0 4) (fld (s.reg 0x40280) 4 3) (fld (s.reg 0x40280) 7 6)
    g.dur < 2 ^ 32 →
    ∃ t, exec (.swfGclRead m) s = .next t ∧ fld (t.reg 0x40284) 0 8 = g.gates.toNat ∧ bit (t.reg 0x40284) 8 = g.last ∧
      t.pair 0x40286 = g.dur ∧ (∀ off, off < 0x40284 ∨ 0x4028A ≤ off → t.reg off = s.reg off) ∧
      t = { s with regs := t.regs, resp := t.resp }) ∧
  (∀ (m : Master) (s : State), s.writes m 0x40282 → s.swf.staged = none → fld (s.reg 0x40280) 0 4 < 10 →
    let p := fld (s.reg 0x40280) 0 4
    let md := fld (s.reg 0x40280) 4 3
    s.tick.running = false ∨ (s.tick.mode.val ≠ md ∧ (∀ r ∈ s.tick.req, r.mode.val ≠ md)) →
    ∃ t, exec (.swfGclWrite m) s = .next t ∧
      t.swf = { s.swf with staged := some (.gcl ((p * 8 + md) * 64 + fld (s.reg 0x40280) 7 6)
        { gates := BitVec.ofNat 8 (fld (s.reg 0x40284) 0 8), last := bit (s.reg 0x40284) 8, dur := s.pair 0x40286 }) } ∧
      t = { s with swf := t.swf, resp := t.resp }) ∧
  (∀ (m : Master) (s : State), s.writes m 0x40282 → s.inRun = true → s.tick.running = true → fld (s.reg 0x40280) 0 4 < 10 →
    s.tick.mode.val = fld (s.reg 0x40280) 4 3 →
    exec (.swfGclWrite m) s = .next ((s.raise 0x20004 8).respond m 0 false)) ∧
  (∀ (m : Master) (x : Stage) (s : State), s.writes m 0x40202 → s.writes m 0x40222 → s.writes m 0x40242 → s.swf.staged = some x →
    let t := (s.raise 0x40004 4).respond m 0 false
    exec (.swfMtRead m) s = .next t ∧ exec (.swfMtWrite m) s = .next t ∧ exec (.swfMtInsert m) s = .next t ∧
      exec (.swfMtDelete m) s = .next t ∧ exec (.swfMtSearch m) s = .next t ∧ exec (.swfVlRead m) s = .next t ∧
      exec (.swfVlWrite m) s = .next t ∧ exec (.swfRlRead m) s = .next t ∧ exec (.swfRlWrite m) s = .next t) ∧
  (∀ (e : Nat) (w : List Word) (s : State), s.on → s.swf.staged = some (.mt e w) → w.length = 5 →
    ∃ t, exec .swfStageCommit s = .next t ∧ t.swf.staged = none ∧ t.mtEntry e = w ∧
      (∀ k, k ≠ e → t.mtEntry k = s.mtEntry k) ∧
      t = { s with swf := { s.swf with
        staged := none, mt := t.swf.mt, tableEcc := t.swf.tableEcc, committed := some (s.time.beat, e) } }) ∧
  (∀ (v : Nat) (w : List Word) (s : State), s.on → s.swf.staged = some (.vl v w) → w.length = 2 →
    ∃ t, exec .swfStageCommit s = .next t ∧ t.swf.staged = none ∧ t.vlEntry v = w ∧
      (∀ k, k ≠ v → t.vlEntry k = s.vlEntry k) ∧
      t = { s with swf := { s.swf with staged := none, vl := t.swf.vl, tableEcc := t.swf.tableEcc } }) ∧
  (∀ (r : Nat) (w : List Word) (s : State), s.on → s.swf.staged = some (.rl r w) → w.length = 16 →
    ∃ t, exec .swfStageCommit s = .next t ∧ t.swf.staged = none ∧ t.rlEntry r = w ∧
      (∀ k, k ≠ r → t.rlEntry k = s.rlEntry k) ∧
      t = { s with swf := { s.swf with staged := none, rl := t.swf.rl, tableEcc := t.swf.tableEcc } }) ∧
  (∀ (p md i : Nat) (g : Gate) (s : State), s.on → s.swf.staged = some (.gcl ((p * 8 + md) * 64 + i) g) →
    ∃ t, exec .swfStageCommit s = .next t ∧ t.swf.staged = none ∧ t.gate p md i = g ∧
      t = { s with swf := { s.swf with staged := none, gcl := t.swf.gcl } }) ∧
  (∀ s : State, s.on → (s.reg 0x4000C).toNat ≠ 0 → s.swf.tableEcc = [] → Sparse.wf 0 s.swf.mt →
    ∃ t, exec .ageingSweep s = .next t ∧ s.time.beat ≤ t.time.beat ∧
      (∀ e, mtType (s.mtEntry e) = 1 → bit (nthD (s.mtEntry e) 3 0) 14 = true →
        t.mtEntry e = (s.mtEntry e).set 3 (nthD (s.mtEntry e) 3 0 &&& 0xBFFF)) ∧
      (∀ e, mtType (s.mtEntry e) = 1 → bit (nthD (s.mtEntry e) 3 0) 14 = false → t.mtEntry e = [0, 0, 0, 0, 0]) ∧
      (∀ e, mtType (s.mtEntry e) ≠ 1 → t.mtEntry e = s.mtEntry e) ∧
      t = { s with
        time := t.time, swf := { s.swf with mt := t.swf.mt, lastSweep := t.swf.lastSweep }, host := t.host, ssn := t.ssn })

/-- R127, R152, R156: the limit on reserves, and the ring of a mirror session. A full ring loses the record and counts it. -/
def Obligations.ReservesAndMirrorRings : Prop :=
  (∀ (m : Master) (p : PortId) (v : Word) (s : State), s.writes m (swfPort p.val + 0xA) →
    let o := swfPort p.val + 0xA
    let sum := ((List.range 11).map (fun k => if k = p.val then v.toNat else (s.reg (swfPort k + 0xA)).toNat)).foldl (· + ·) 0
    (sum ≤ 16384 → exec (.swfResWrite m p v) s = .next ((s.setReg o v).respond m 0 false)) ∧
      (16384 < sum → exec (.swfResWrite m p v) s = .next ((s.raise 0x40004 5).respond m 0 false))) ∧
  (∀ (m : Master) (n : Fin 4) (v : Word) (s : State), s.writes m (mirOff n.val + 8) → 4 ≤ fld v 0 4 → fld v 0 4 ≤ 11 →
    ∃ t, exec (.swfMirSizeWrite m n v) s = .next t ∧ t.reg (mirOff n.val + 8) = v &&& 0xF ∧
      t.swf = { s.swf with mirrors := s.swf.mirrors.set n { s.swf.mirrors[n] with wr := 0, rd := 0 } } ∧
      (∀ off, off ≠ mirOff n.val + 8 → t.reg off = s.reg off) ∧
      t = { s with swf := t.swf, regs := t.regs, resp := t.resp }) ∧
  (∀ (m : Master) (n : Fin 4) (v : Word) (s : State), s.writes m (mirOff n.val + 0xC) →
    let x := s.swf.mirrors[n]
    let ok := (x.wr - v).toNat ≤ 2 ^ fld (s.reg (mirOff n.val + 8)) 0 4
    (ok → exec (.swfMirRdWrite m n v) s = .next (({ s with swf := { s.swf with
      mirrors := s.swf.mirrors.set n { x with rd := v } } } : State).respond m 0 false)) ∧
      (¬ok → exec (.swfMirRdWrite m n v) s = .next (s.respond m 0 false))) ∧
  (∀ (n : Fin 4) (r : CapRec) (q : List CapRec) (s : State), s.on → s.swf.mirrors[n].queue = r :: q →
    let x := s.swf.mirrors[n]
    (x.wr - x.rd).toNat = 2 ^ fld (s.reg (mirOff n.val + 8)) 0 4 →
    ∃ t, exec (.captureRecord n) s = .next t ∧ t.swf.mirrors[n].queue = q ∧ t.swf.mirrors[n].wr = x.wr ∧
      t.swf.mirrors[n].lost.toNat = min 65535 (x.lost.toNat + 1) ∧ bit (t.reg 0x40004) 3 = true ∧
      t = { s with swf := { s.swf with mirrors := t.swf.mirrors }, regs := t.regs, fresh := t.fresh }) ∧
  (∀ (n : Fin 4) (r : CapRec) (q : List CapRec) (s : State), s.on → s.swf.mirrors[n].queue = r :: q → r.bytes.length = 128 →
    let x := s.swf.mirrors[n]
    let size := 2 ^ fld (s.reg (mirOff n.val + 8)) 0 4
    let a : Nat := s.pair (mirOff n.val + 4) % 2 ^ 26 + 128 * (x.wr.toNat % size)
    let b := bankIdx a
    size < 65536 → (x.wr - x.rd).toNat ≠ size → a % 128 = 0 → a < 0x1000000 → s.bankOwner b = 14 →
    s.bank.banks[b].asleep = false → s.bank.beatW = [] →
    ∃ t, exec (.captureRecord n) s = .next t ∧ Memory.bytes t.bank.mem a 128 = r.bytes ∧
      (∀ c, c < a ∨ a + 128 ≤ c → Memory.byte t.bank.mem c = Memory.byte s.bank.mem c) ∧
      t.swf.mirrors[n] = { x with queue := q, wr := x.wr + 1 } ∧ t.regs = s.regs ∧
      t = { s with swf := { s.swf with mirrors := t.swf.mirrors }, bank := t.bank })
/-! ## MACs and endpoint groups (06_ethernet_macs.md) -/

/-- R157 to R160: a link comes up and is lost, the equaliser moves one code at a time. -/
def Obligations.LinksAndLanes : Prop :=
  (∀ (p : PortId) (half : Bool) (rate : BitVec 4) (s : State), s.on → s.macMode p.val ≠ 0 →
    let mode := s.macMode p.val
    let an := bit (s.reg (macOff p.val)) 4 = true ∧ mode ≠ 1 ∧ mode ≠ 9
    (an → if mode ≤ 5 then 2 ≤ rate.toNat ∧ rate.toNat ≤ 5 else 6 ≤ rate.toNat ∧ rate.toNat ≤ 8) →
    ∃ t, exec (.linkUp p half rate) s = .next t ∧ (t.mac.ports[p].up = false ↔ an ∧ half = true) ∧
      (an → t.mac.ports[p].rate = rate ∧ t.mac.ports[p].half = half) ∧
      (¬an → t.mac.ports[p].rate = BitVec.ofNat 4 mode ∧ t.mac.ports[p].half = false) ∧
      t.mac.ports[p].ctle = s.mac.ports[p].ctle ∧ (∀ e : PortId, e ≠ p → t.mac.ports[e] = s.mac.ports[e]) ∧
      t = { s with mac := { s.mac with ports := t.mac.ports } }) ∧
  (∀ (p : PortId) (s : State), s.on → p.val < 10 →
    ∃ t, exec (.linkDown p) s = .next t ∧
      t.mac.ports = s.mac.ports.set p { s.mac.ports[p] with up := false, pcsSync := false, anDone := false } ∧
      t.swf.ports[p].sending = none ∧ t.swf.ports[p].preempted = none ∧ t.swf.ports[p].handed = [] ∧
      (∀ f ∈ t.swf.frames, f.ingress = p → f.verdict.isSome = true) ∧
      ((∀ f ∈ s.swf.frames, f.ingress ≠ p ∨ f.verdict.isSome = true) → t.regs = s.regs) ∧
      t = { s with swf := t.swf, mac := t.mac, regs := t.regs, fresh := t.fresh }) ∧
  (∀ (m : Master) (p : PortId) (v : Word) (s : State), s.writes m (macOff p.val + 6) →
    ∃ t, exec (.macSdsWrite m p v) s = .next t ∧ t.reg (macOff p.val + 6) = v &&& 0x7FFF ∧
      t.mac.ports[p].ctleTarget = fld v 11 4 ∧ t.mac.ports[p].ctle = s.mac.ports[p].ctle ∧
      t.mac.ports[p].up = s.mac.ports[p].up ∧ (∀ e : PortId, e ≠ p → t.mac.ports[e] = s.mac.ports[e]) ∧
      (∀ off, off ≠ macOff p.val + 6 → t.reg off = s.reg off) ∧
      t = { s with mac := { s.mac with ports := t.mac.ports }, regs := t.regs, resp := t.resp }) ∧
  (∀ (p : PortId) (s : State), s.on → s.mac.ports[p].ctle ≠ s.mac.ports[p].ctleTarget →
    let x := s.mac.ports[p]
    ∃ t, exec (.ctleStep p) s = .next t ∧ t.time.beat = max s.time.beat (x.ctleBeat + 1024) ∧
      t.mac.ports = s.mac.ports.set p { x with
        ctle := if x.ctle < x.ctleTarget then x.ctle + 1 else x.ctle - 1, ctleBeat := t.time.beat } ∧
      t = { s with time := t.time, mac := { s.mac with ports := t.mac.ports }, host := t.host, ssn := t.ssn })

/-- R161 to R166, R169, R172, R174: the rings of the endpoint groups, with the record that P10 delivers to the only group
that accepts a frame, and the frame that a plain descriptor gives. -/
def Obligations.EndpointGroups : Prop :=
  (∀ (m : Master) (g : Fin 16) (v : Word) (s : State), s.writes m (grpOff g.val + 8) →
    let x := s.mac.groups[g]
    let ok := (v - x.rxrd).toNat ≤ (x.rxwr - x.rxrd).toNat
    (ok → exec (.macRxrdWrite m g v) s = .next (({ s with mac := { s.mac with
      groups := s.mac.groups.set g { x with rxrd := v } } } : State).respond m 0 false)) ∧
      (¬ok → exec (.macRxrdWrite m g v) s = .next (s.respond m 0 false))) ∧
  (∀ (m : Master) (g : Fin 16) (v : Word) (s : State), s.writes m (grpOff g.val + 0x10) →
    let x := s.mac.groups[g]
    let ok := (v - x.txrd).toNat ≤ 2 ^ fld (s.reg (grpOff g.val + 0xE)) 0 4
    (ok → exec (.macTxwrWrite m g v) s = .next (({ s with mac := { s.mac with
      groups := s.mac.groups.set g { x with txwr := v } } } : State).respond m 0 false)) ∧
      (¬ok → exec (.macTxwrWrite m g v) s = .next (s.respond m 0 false))) ∧
  (∀ (m : Master) (g : Fin 16) (v : Word) (s : State), s.writes m (grpOff g.val) →
    exec (.macGroupCfgWrite m g false v) s = .next ((({ s with mac := { s.mac with
      groups := s.mac.groups.set g { s.mac.groups[g] with rxwr := 0, rxrd := 0 } } } : State).setReg (grpOff g.val) v).respond m 0 false)) ∧
  (∀ (m : Master) (g : Fin 16) (v : Word) (s : State), s.writes m (grpOff g.val + 0xE) →
    exec (.macGroupCfgWrite m g true v) s = .next ((({ s with mac := { s.mac with
      groups := s.mac.groups.set g { s.mac.groups[g] with txwr := 0, txrd := 0 } } } : State).setReg (grpOff g.val + 0xE)
        (v &&& 0xF)).respond m 0 false)) ∧
  (∀ (m : Master) (g : Fin 16) (e : TsEntry) (r : List TsEntry) (s : State), s.reads m (grpOff g.val + 0x1A) →
    s.mac.groups[g].ts = e :: r →
    ∃ t, exec (.macTsRead m g) s = .next t ∧ t.resp[m] = { value := wordOf e.tod.toNat 0, error := false } ∧
      (∀ k, k < 5 → k ≠ 0 → t.latched m (grpOff g.val + 0x1A + 2 * k) 0 = wordOf e.tod.toNat k) ∧
      fld (t.latched m (grpOff g.val + 0x18) 0) 3 10 = e.desc % 1024 ∧
      t.mac = { s.mac with groups := s.mac.groups.set g { s.mac.groups[g] with ts := r } } ∧
      t = { s with mac := t.mac, latch := t.latch, resp := t.resp }) ∧
  (∀ (g : Fin 16) (f : Frame) (id v : Nat) (d : Decision) (s : State), s.on → s.swf.ports[(10 : PortId)].sending = some id →
    s.frame? id = some f → f.verdict = some v → f.dec = some d → s.swf.ports[(10 : PortId)].delivered = false → v < 256 →
    let body := s.egressBody f 10 0
    let n := body.length
    let x := s.mac.groups[g]
    let a : Nat := s.pair (grpOff g.val + 2) % 2 ^ 26 + s.grpSlot g.val * (x.rxwr.toNat % s.grpRxSize g.val)
    (∀ k : Fin 16, s.grpAccepts k.val (hdrOf body).da d.vid.toNat d.trapped = decide (k = g)) →
    (x.rxwr - x.rxrd).toNat ≠ s.grpRxSize g.val % 65536 → n + 32 ≤ s.grpSlot g.val → a % 2 = 0 → a + 32 + n ≤ 0x1000000 →
    s.bankServes 13 .write a (32 + n) →
    ∃ t, exec .p10RxRecord s = .next t ∧ Memory.bytes t.bank.mem (a + 32) n = body ∧
      Memory.word t.bank.mem a = BitVec.ofNat 16 (1 + (if v < 2 then 2 else 0) + (if d.trapped then 4 else 0) +
        8 * f.ingress.val + 256 * v) ∧
      (Memory.word t.bank.mem (a + 2)).toNat = n % 65536 ∧ ofBytes (Memory.bytes t.bank.mem (a + 4) 10) = f.stamp.toNat ∧
      (∀ c, c < a ∨ a + 32 + n ≤ c → Memory.byte t.bank.mem c = Memory.byte s.bank.mem c) ∧
      t.mac = { s.mac with groups := s.mac.groups.set g { x with rxwr := x.rxwr + 1 } } ∧
      bit (t.reg (grpOff g.val + 0x14)) 0 = true ∧ bit (t.reg (macOff 10 + 2)) 3 = true ∧
      t.swf.ports[(10 : PortId)].delivered = true ∧
      t = { s with swf := t.swf, mac := t.mac, bank := t.bank, regs := t.regs, fresh := t.fresh }) ∧
  (∀ (g : Fin 16) (f : Frame) (id v : Nat) (d : Decision) (s : State), s.on → s.swf.ports[(10 : PortId)].sending = some id →
    s.frame? id = some f → f.verdict = some v → f.dec = some d → s.swf.ports[(10 : PortId)].delivered = false →
    let body := s.egressBody f 10 0
    let x := s.mac.groups[g]
    (∀ k : Fin 16, s.grpAccepts k.val (hdrOf body).da d.vid.toNat d.trapped = decide (k = g)) →
    (x.rxwr - x.rxrd).toNat = s.grpRxSize g.val ∨ s.grpSlot g.val < body.length + 32 → s.grpRxSize g.val < 65536 →
    ∃ t, exec .p10RxRecord s = .next t ∧ bit (t.reg (grpOff g.val + 0x14)) 3 = true ∧ bit (t.reg (macOff 10 + 2)) 2 = true ∧
      t.mac = s.mac ∧ t.bank = s.bank ∧ t = { s with swf := t.swf, regs := t.regs, fresh := t.fresh }) ∧
  (∀ (g : Fin 16) (s : State), s.on → bit (s.reg (grpOff g.val)) 0 = true →
    let x := s.mac.groups[g]
    let i := x.txrd.toNat % 2 ^ fld (s.reg (grpOff g.val + 0xE)) 0 4
    let a : Nat := s.pair (grpOff g.val + 0xA) % 2 ^ 26 + 16 * i
    let l := Memory.bytes s.bank.mem a 16
    let addr := ofBytes (l.take 4) % 2 ^ 26
    let len := ofBytes ((l.drop 4).take 2) + 65536 * (ofBytes ((l.drop 6).take 2) % 2)
    let flags := ofBytes ((l.drop 6).take 2) / 2 % 16
    let body := Memory.bytes s.bank.mem addr len
    let pad := body ++ List.replicate (60 - len) 0
    x.txwr ≠ x.txrd → flags = 0 → 14 ≤ len → max len 60 + 4 ≤ s.maxLen 10 → addr + len ≤ 0x1000000 → a + 16 ≤ 0x1000000 →
    s.bankServes 13 .read a 16 → s.bankServes 13 .read addr len → bit (s.reg 0x40000) 0 = true → 144 < s.poolFree →
    ∃ t, exec (.txDescriptor g) s = .next t ∧ t.mac.groups[g] = { x with txrd := x.txrd + 1 } ∧
      bit (t.reg (grpOff g.val + 0x14)) 1 = true ∧ t.bank = s.bank ∧ t.swf.frames.length = s.swf.frames.length + 1 ∧
      (∀ f ∈ t.swf.frames.getLast?, f.bytes = pad ++ fcsBytes pad ∧ f.ingress.val = 10 ∧ f.verdict = none ∧
        f.cellsRes + f.cellsPool = ceilDiv (pad.length + 4) 64) ∧
      t = { s with
        swf := t.swf, mac := { s.mac with groups := t.mac.groups }, regs := t.regs, fresh := t.fresh }) ∧
  (∀ (g : Fin 16) (s : State), s.on → bit (s.reg (grpOff g.val)) 0 = true →
    let x := s.mac.groups[g]
    let i := x.txrd.toNat % 2 ^ fld (s.reg (grpOff g.val + 0xE)) 0 4
    let a : Nat := s.pair (grpOff g.val + 0xA) % 2 ^ 26 + 16 * i
    let l := Memory.bytes s.bank.mem a 16
    let len := ofBytes ((l.drop 4).take 2) + 65536 * (ofBytes ((l.drop 6).take 2) % 2)
    x.txwr ≠ x.txrd → len < 14 → a + 16 ≤ 0x1000000 → s.bankServes 13 .read a 16 →
    ∃ t, exec (.txDescriptor g) s = .next t ∧ t.mac.groups[g] = { x with txrd := x.txrd + 1 } ∧
      bit (t.reg (grpOff g.val + 0x14)) 2 = true ∧ t.swf = s.swf ∧ t.bank = s.bank ∧
      t = { s with mac := { s.mac with groups := t.mac.groups }, regs := t.regs, fresh := t.fresh })
/-! ## Rierver ring (07_rierver_ring.md) -/

/-- R177, R193, R198, R199, R201 to R204: the states of a channel. -/
def Obligations.RingStates : Prop :=
  (∀ (m : Master) (c : ChanId) (s : State), s.writes m (ringOff c.val) → bit (s.reg (ringOff c.val)) 0 = false →
    ∃ t, exec (.rngEn m c true) s = .next t ∧ t.ring[c].st = .listen ∧ t.ring[c].inUp = false ∧ t.ring[c].outUp = false ∧
      t.ring[c].frameBeat = s.time.beat ∧ bit (t.reg (ringOff c.val)) 0 = true ∧
      (∀ off, off ≠ ringOff c.val → t.reg off = s.reg off) ∧ (∀ d : ChanId, d ≠ c → t.ring[d] = s.ring[d]) ∧
      t = { s with ring := t.ring, regs := t.regs, resp := t.resp }) ∧
  (∀ (m : Master) (c : ChanId) (s : State), s.writes m (ringOff c.val) → bit (s.reg (ringOff c.val)) 0 = true →
    ∃ t, exec (.rngEn m c false) s = .next t ∧ t.ring[c].st = .off ∧ t.ring[c].inUp = false ∧ t.ring[c].outUp = false ∧
      t.ring[c].folding = false ∧ t.ring[c].store = s.ring[c].store ∧ t.ring[c].dlyF = s.ring[c].dlyF ∧
      bit (t.reg (ringOff c.val)) 0 = false ∧ (∀ off, off ≠ ringOff c.val → t.reg off = s.reg off) ∧
      (∀ d : ChanId, d ≠ c → t.ring[d] = s.ring[d]) ∧ t = { s with ring := t.ring, regs := t.regs, resp := t.resp }) ∧
  (∀ (m : Master) (c : ChanId) (s : State), s.writes m (ringOff c.val) → s.ring[c].st = .master →
    bit (s.reg (ringOff c.val)) 0 = true →
    ∃ t, exec (.rngSurvey m c) s = .next t ∧ t.ring[c] = { s.ring[c] with
        surveyDue := some (s.tick.tick + 1), sent := [], notice := none } ∧
      (∀ off, off ≠ ringOff c.val → t.reg off = s.reg off) ∧ (∀ d : ChanId, d ≠ c → t.ring[d] = s.ring[d]) ∧
      t = { s with ring := t.ring, regs := t.regs, resp := t.resp }) ∧
  (∀ (m : Master) (c : ChanId) (s : State), s.writes m (ringOff c.val) → s.ring[c].st = .master →
    bit (s.reg (ringOff c.val)) 0 = true →
    ∃ t, exec (.rngAbandon m c) s = .next t ∧ t.ring[c] = { s.ring[c] with abandon := true, sent := [], notice := none } ∧
      (∀ off, off ≠ ringOff c.val → t.reg off = s.reg off) ∧ (∀ d : ChanId, d ≠ c → t.ring[d] = s.ring[d]) ∧
      t = { s with ring := t.ring, regs := t.regs, resp := t.resp }) ∧
  (∀ (c : ChanId) (lane : Lane) (s : State), s.on → s.ring[c].st ≠ .off → s.ring[c].laneUp lane = true →
    ∃ t, exec (.laneDown c lane) s = .next t ∧ t.ring[c].laneUp lane = false ∧
      t.ring[c].laneUp (otherLane lane) = s.ring[c].laneUp (otherLane lane) ∧ bit (t.reg (ringOff c.val + 4)) 6 = true ∧
      (s.ring[c].st = .master → t.ring[c].folded = true ∧ bit (t.reg (ringOff c.val + 4)) 7 = (bit (s.reg (ringOff c.val + 4)) 7 || !s.ring[c].folded)) ∧
      t.ring[c].st = s.ring[c].st ∧ (∀ off, off ≠ ringOff c.val + 4 → t.reg off = s.reg off) ∧
      (∀ d : ChanId, d ≠ c → t.ring[d] = s.ring[d]) ∧ t = { s with ring := t.ring, regs := t.regs, fresh := t.fresh }) ∧
  (∀ (c : ChanId) (lane : Lane) (s : State), s.on → s.ring[c].st ≠ .off → s.ring[c].laneUp lane = false →
    ∃ t, exec (.laneUp c lane) s = .next t ∧ t.ring[c].laneUp lane = true ∧ t.ring[c].st = s.ring[c].st ∧
      (s.ring[c].st = .master → s.ring[c].folded = true → s.ring[c].healTick = none →
        t.ring[c].healTick = some (s.tick.tick + 1)) ∧
      (∀ d : ChanId, d ≠ c → t.ring[d] = s.ring[d]) ∧ t = { s with ring := t.ring }) ∧
  (∀ (c : ChanId) (lane : Lane) (node st : Byte) (s : State), s.on → s.ring[c].st = .master → s.ring[c].laneUp lane = true →
    ∃ t, exec (.foldNotice c lane node st) s = .next t ∧ t.ring[c].folded = true ∧
      (lane = .out → t.ring[c].foldFwd = node ∧ t.ring[c].foldRev = s.ring[c].foldRev) ∧
      (lane = .inn → t.ring[c].foldRev = node ∧ t.ring[c].foldFwd = s.ring[c].foldFwd) ∧
      (s.ring[c].folded = false → t.ring[c].surveyDue = some (s.tick.tick + 1) ∧ bit (t.reg (ringOff c.val + 4)) 7 = true) ∧
      (∀ d : ChanId, d ≠ c → t.ring[d] = s.ring[d]) ∧ t = { s with ring := t.ring, regs := t.regs, fresh := t.fresh }) ∧
  (∀ (c : ChanId) (s : State), s.on → s.ring[c].folding = true → s.ring[c].inUp = true → s.ring[c].outUp = true →
    ∃ t, exec (.foldNoticeSend c) s = .next t ∧
      t.time.beat = max s.time.beat (max s.ring[c].noticeBeat s.ring[c].frameBeat + 32768) ∧
      t.ring[c].notice = some (if s.ring[c].foldOut then .inn else .out, BitVec.ofNat 8 s.nodeId, 1) ∧
      t.ring[c].noticeBeat = t.time.beat ∧ (∀ d : ChanId, d ≠ c → t.ring[d] = s.ring[d]) ∧
      t = { s with time := t.time, ring := t.ring, host := t.host, ssn := t.ssn }) ∧
  (∀ (c : ChanId) (s : State), s.on → s.ring[c].st = .surveyed ∨ s.ring[c].st = .timed ∨ s.ring[c].st = .active ∨
      s.ring[c].st = .clash →
    ∃ t, exec (.headerTimeout c) s = .next t ∧ t.time.beat = max s.time.beat (s.ring[c].headerBeat + 8388608) ∧
      t.ring[c] = { s.ring[c] with st := .listen, spanInactive := true, frameBeat := t.time.beat, vreq := false } ∧
      (∀ d : ChanId, d ≠ c → t.ring[d] = s.ring[d]) ∧
      t = { s with time := t.time, ring := t.ring, host := t.host, ssn := t.ssn }) ∧
  (∀ (c : ChanId) (s : State), s.on → s.ring[c].heldKey ≠ 0 → s.ring[c].st ≠ .claim → s.ring[c].st ≠ .master →
    ∃ t, exec (.keyTimeout c) s = .next t ∧ t.time.beat = max s.time.beat (s.ring[c].keyBeat + 8388608) ∧
      t.ring[c] = { s.ring[c] with heldKey := 0 } ∧ (∀ d : ChanId, d ≠ c → t.ring[d] = s.ring[d]) ∧
      t = { s with time := t.time, ring := t.ring, host := t.host, ssn := t.ssn }) ∧
  (∀ (c : ChanId) (s : State), s.on → s.ring[c].st = .listen → bit (s.reg 0x60000) 0 = true →
    s.kdl.straps.getLsbD 6 = true →
    ∃ t, exec (.listenTimeout c) s = .next t ∧ t.time.beat = max s.time.beat (s.ring[c].frameBeat + 8388608) ∧
      t.ring[c].st = .claim ∧ t.ring[c].heldKey = BitVec.ofNat 64 s.ownKey ∧ t.ring[c].claimBeat = t.time.beat ∧
      t.ring[c].sent.map (fun e => e.1) = [Lane.out, .inn].filter (fun l => s.ring[c].laneUp l) ∧
      (∀ e ∈ t.ring[c].sent, e.2.payload = s.claimPayload ∧ (rhdrOf e.2.header).type = 1 ∧ hdrGood e.2 = true ∧
        (rhdrOf e.2.header).dir = decide (e.1 = .inn)) ∧
      (∀ d : ChanId, d ≠ c → t.ring[d] = s.ring[d]) ∧
      t = { s with time := t.time, ring := t.ring, host := t.host, ssn := t.ssn }) ∧
  (∀ (c : ChanId) (s : State), s.on → s.ring[c].st = .claim → s.ring[c].claimBack = false →
    ∃ t, exec (.claimRetry c) s = .next t ∧ t.time.beat = max s.time.beat (s.ring[c].claimBeat + 131072) ∧
      t.ring[c].st = .claim ∧ t.ring[c].ownReturns = 0 ∧ t.ring[c].claimBeat = t.time.beat ∧
      (∀ e ∈ t.ring[c].sent, e.2.payload = s.claimPayload) ∧ (∀ d : ChanId, d ≠ c → t.ring[d] = s.ring[d]) ∧
      t = { s with time := t.time, ring := t.ring, host := t.host, ssn := t.ssn })

/-- R199 to R201: a claim frame that arrives with good codes, by its key. A senior key is passed on and ends the node's
own claim or its mastership; a junior one is dropped; the second return of the own claim makes the node master. -/
def Obligations.ClaimsByKey : Prop :=
  (∀ (c : ChanId) (lane : Lane) (f : RingWire) (s : State), s.on → s.ring[c].st ≠ .off → s.ring[c].laneUp lane = true →
    s.ring[c].inUp = true → s.ring[c].outUp = true →
    hdrGood f = true → (rhdrOf f.header).type = 1 → nthD (segGoods f) 0 false = true → f.code = none →
    let key := ofBytes (f.payload.take 2) * 2 ^ 48 + ofBytes ((f.payload.drop 2).take 6)
    let rival := s.ring[c].st = .claim ∨ s.ring[c].st = .master
    let held := max s.ring[c].heldKey.toNat (if rival then s.ownKey else 0)
    held ≤ key → (rival → key ≠ s.ownKey) →
    ∃ t, exec (.claim c lane f) s = .next t ∧ t.ring[c].heldKey.toNat = key ∧ t.ring[c].mkey.toNat = key ∧
      (rival → t.ring[c].st = .listen ∧ bit (t.reg (ringOff c.val + 4)) 10 = true) ∧
      (¬rival → t.ring[c].st = s.ring[c].st) ∧
      t.ring[c].sent.map (fun e => (e.1, e.2.header, e.2.payload)) = [(s.ring[c].exit lane, f.header, f.payload)] ∧
      (∀ d : ChanId, d ≠ c → t.ring[d] = s.ring[d]) ∧ t = { s with ring := t.ring, regs := t.regs, fresh := t.fresh }) ∧
  (∀ (c : ChanId) (lane : Lane) (f : RingWire) (s : State), s.on → s.ring[c].st ≠ .off → s.ring[c].laneUp lane = true →
    s.ring[c].inUp = true → s.ring[c].outUp = true →
    hdrGood f = true → (rhdrOf f.header).type = 1 → nthD (segGoods f) 0 false = true → f.code = none →
    let key := ofBytes (f.payload.take 2) * 2 ^ 48 + ofBytes ((f.payload.drop 2).take 6)
    let rival := s.ring[c].st = .claim ∨ s.ring[c].st = .master
    let held := max s.ring[c].heldKey.toNat (if rival then s.ownKey else 0)
    key < held → (rival → key ≠ s.ownKey) →
    ∃ t, exec (.claim c lane f) s = .next t ∧ t.ring[c].heldKey = s.ring[c].heldKey ∧ t.ring[c].st = s.ring[c].st ∧
      t.ring[c].sent = [] ∧ t.ring[c].keyBeat = s.time.beat ∧ (∀ d : ChanId, d ≠ c → t.ring[d] = s.ring[d]) ∧
      t = { s with ring := t.ring, regs := t.regs, fresh := t.fresh }) ∧
  (∀ (c : ChanId) (lane : Lane) (f : RingWire) (s : State), s.on → s.ring[c].st = .claim → s.ring[c].laneUp lane = true →
    s.ring[c].inUp = s.ring[c].outUp →
    hdrGood f = true → (rhdrOf f.header).type = 1 → nthD (segGoods f) 0 false = true →
    ofBytes (f.payload.take 2) * 2 ^ 48 + ofBytes ((f.payload.drop 2).take 6) = s.ownKey →
    s.ring[c].claimOut[if (rhdrOf f.header).dir then (1 : Fin 2) else 0] = 1 → s.ring[c].claimBack = false →
    s.ring[c].ownReturns = 1 →
    ∃ t, exec (.claim c lane f) s = .next t ∧ t.ring[c].st = .master ∧ t.ring[c].surveyDue = some (s.tick.tick + 1) ∧
      t.ring[c].launched = [] ∧ t.ring[c].folded = !s.ring[c].inUp ∧ bit (t.reg (ringOff c.val + 4)) 11 = true ∧ t.ring[c].sent = [] ∧
      (∀ d : ChanId, d ≠ c → t.ring[d] = s.ring[d]) ∧ t = { s with ring := t.ring, regs := t.regs, fresh := t.fresh })

/-- R178 to R180, R182, R183, R186 to R190, R209: data frames are launched, pass a node, and return; writes of the store's
aperture. -/
def Obligations.RingDataFrames : Prop :=
  (∀ (c : ChanId) (slot : Fin 4) (s : State), s.on → s.ring[c].st = .master → s.tick.running = true →
    s.ring[c].freshTick < s.tick.tick → s.slotEn c.val s.tick.mode.val slot.val = true →
    (∀ x ∈ s.ring[c].launched, x.slot ≠ slot.val ∨ x.tick ≠ s.tick.tick) → s.ring[c].folded = false → s.ring[c].outUp = true →
    s.lastSlot c slot.val = false ∨ (s.ring[c].foreign = false ∧ s.ring[c].foreignPrev = false) →
    ∃ t, exec (.slotLaunch c slot) s = .next t ∧
      t.time.beat = max s.time.beat (s.tick.tBeat + s.slotLaunch c.val s.tick.mode.val slot.val) ∧
      t.ring[c].sent.map (fun e => e.1) = [.out] ∧
      (∀ e ∈ t.ring[c].sent, hdrGood e.2 = true ∧ (rhdrOf e.2.header).type = 0 ∧ (rhdrOf e.2.header).dir = false ∧
        (rhdrOf e.2.header).slot = slot.val ∧ (rhdrOf e.2.header).tick = s.tick.tick % 2 ^ 48 ∧
        (rhdrOf e.2.header).mode = s.tick.mode ∧ e.2.crcs = (segments e.2.payload).map crc32 ∧
        ((∀ w ∈ s.ringWins c.val s.tick.mode.val, w.write = false ∨ w.slot ≠ slot.val) → slot ≠ 0 →
          e.2.payload = s.slotBase c slot.val)) ∧
      (∀ x ∈ t.ring[c].launched.head?, x.slot = slot.val ∧ x.tick = s.tick.tick ∧ x.fwd = none ∧ x.rev = none) ∧
      (∀ d : ChanId, d ≠ c → t.ring[d] = s.ring[d]) ∧
      t = { s with time := t.time, ring := t.ring, host := t.host, ssn := t.ssn }) ∧
  (∀ (c : ChanId) (f : RingWire) (x : Launched) (s : State), s.on → s.ring[c].st = .master → hdrGood f = true →
    let h := rhdrOf f.header
    h.type = 0 → s.ring[c].launched = [x] → x.slot = h.slot → x.tick = s.fullTick h → x.launch = h.launch → h.slot ≠ 0 →
    h.dir = false → x.two = true →
    ∃ t, exec (.frameReturn c f) s = .next t ∧ t.ring[c].launched = [{ x with fwd := some (f.payload, segGoods f) }] ∧
      t.ring[c].heldKey = 0 ∧ t.ring[c].st = .master ∧ t.ring[c].sent = [] ∧ (∀ d : ChanId, d ≠ c → t.ring[d] = s.ring[d]) ∧
      t = { s with jnr := { s.jnr with images := t.jnr.images }, ring := t.ring, regs := t.regs, fresh := t.fresh }) ∧
  (∀ (c : ChanId) (f : RingWire) (s : State), s.on → s.ring[c].st = .master → hdrGood f = true →
    let h := rhdrOf f.header
    h.type = 0 → (∀ x ∈ s.ring[c].launched, x.slot ≠ h.slot ∨ x.tick ≠ s.fullTick h ∨ x.launch ≠ h.launch) →
    ∃ t, exec (.frameReturn c f) s = .next t ∧ t.ring[c].foreign = true ∧ t.ring[c].heldKey = 0 ∧
      t.ring[c].launched = s.ring[c].launched ∧ (∀ d : ChanId, d ≠ c → t.ring[d] = s.ring[d]) ∧
      t = { s with ring := t.ring, regs := t.regs, fresh := t.fresh }) ∧
  (∀ (c : ChanId) (f : RingWire) (s : State), s.on → s.ring[c].st ≠ .off → s.ring[c].st ≠ .master → s.ring[c].inUp = true →
    s.ring[c].outUp = true → s.ring[c].folding = false → f.hcrc ≠ crc32 f.header → f.hcrc ≠ ~~~(crc32 f.header) →
    ∃ t, exec (.dataFrame c .inn f) s = .next t ∧ bit (t.reg (ringOff c.val + 4)) 0 = true ∧
      t.ring[c].sent.map (fun e => (e.1, e.2.header, e.2.hcrc, e.2.payload)) =
        [(.out, f.header, ~~~(crc32 f.header), f.payload)] ∧
      t.ring[c].st = s.ring[c].st ∧ t.ring[c].store = s.ring[c].store ∧ t.ring[c].headerBeat = s.ring[c].headerBeat ∧
      (∀ d : ChanId, d ≠ c → t.ring[d] = s.ring[d]) ∧ t = { s with ring := t.ring, regs := t.regs, fresh := t.fresh }) ∧
  (∀ (c : ChanId) (f : RingWire) (w : RWin) (s : State), s.on → s.ring[c].st = .active → s.ring[c].inUp = true →
    s.ring[c].outUp = true → s.ring[c].folding = false → s.time.locked = true → s.tick.running = true →
    hdrGood f = true → f.code = none →
    let h := rhdrOf f.header
    h.type = 0 → h.dir = false → h.mode = s.tick.mode → h.slot ≠ 0 → h.vgo = false → s.expected c h = true →
    (s.ring[c].dly false).isSome = true → s.ringWins c.val s.tick.mode.val = [w] → w.slot = h.slot → w.write = true →
    w.start + w.len ≤ f.payload.length → 2 ≤ w.len →
    ∃ t, exec (.dataFrame c .inn f) s = .next t ∧
      t.ring[c].sent.map (fun e => (e.1, e.2.header, e.2.hcrc, e.2.payload)) = [(.out, f.header, crc32 f.header,
        f.payload.take w.start ++ s.windowBytes c w h.tick ++ f.payload.drop (w.start + w.len))] ∧
      (∀ e ∈ t.ring[c].sent, segGoods { e.2 with code := none } = segGoods f) ∧
      t.ring[c].st = .active ∧ t.ring[c].store = s.ring[c].store ∧ t.ring[c].headerBeat = s.time.beat ∧
      (∀ d : ChanId, d ≠ c → t.ring[d] = s.ring[d]) ∧ t = { s with ring := t.ring, regs := t.regs, fresh := t.fresh }) ∧
  (∀ (c : ChanId) (f : RingWire) (w : RWin) (s : State), s.on → s.ring[c].st = .active → s.ring[c].inUp = true →
    s.ring[c].outUp = true → s.ring[c].folding = false → s.time.locked = true → s.tick.running = true →
    hdrGood f = true → f.code = none →
    let h := rhdrOf f.header
    h.type = 0 → h.dir = false → h.mode = s.tick.mode → h.slot ≠ 0 → h.vgo = false → s.expected c h = true →
    (s.ring[c].dly false).isSome = true → s.ringWins c.val s.tick.mode.val = [w] → w.slot = h.slot → w.write = false →
    3 ≤ w.len → w.start + w.len ≤ f.payload.length → w.len - 2 ≤ s.rimgLen c.val w.image →
    (∀ g ∈ segGoods f, g = true) →
    let tag := ofBytes ((f.payload.drop w.start).take 2)
    tag % 256 = w.writer → w.writer ≠ 0xFF → (h.tick + 256 - tag / 256 % 128) % 128 ≤ 1 → tag < 32768 →
    s.readSt c w.image ≠ .lost →
    let k := b2n s.jnr.side * 16384 + s.rimgOfs c.val w.image
    ∃ t, exec (.dataFrame c .inn f) s = .next t ∧ t.readSt c w.image = .fresh ∧
      t.ring[c].sent.map (fun e => (e.1, e.2.header, e.2.payload)) = [(.out, f.header, f.payload)] ∧
      (∀ j, j < w.len - 2 → some (t.storeByte c.val (k + j)) = f.payload[w.start + 2 + j]?) ∧
      (∀ a, a < k ∨ k + w.len - 2 ≤ a → t.storeByte c.val a = s.storeByte c.val a) ∧
      (∀ i ∈ s.localImage c.val w.image, (t.jimage i).filling =
        { fresh := true, lost := false, supplyInv := false, len := w.len - 2 }) ∧
      (∀ d : ChanId, d ≠ c → t.ring[d] = s.ring[d]) ∧
      t = { s with jnr := { s.jnr with images := t.jnr.images }, ring := t.ring, regs := t.regs, fresh := t.fresh }) ∧
  (∀ (m : Master) (c : ChanId) (off : BitVec 14) (v : Word) (i : Nat) (s : State),
    let k := off.toNat / 2 * 2
    s.writes m (0x68000 + 0x4000 * c.val + k) → s.ringImageAt c k = some i → s.ringImageAt c (k + 1) = some i →
    s.rimgWrite c.val i = true → s.rimgProducer c.val i = m.val →
    let at' := b2n (s.ringFill c i) * 16384 + k
    ∃ t, exec (.ringApertureWrite m .word c off v) s = .next t ∧ t.storeByte c.val at' = v.truncate 8 ∧
      t.storeByte c.val (at' + 1) = (v >>> 8).truncate 8 ∧
      (∀ a, a ≠ at' → a ≠ at' + 1 → t.storeByte c.val a = s.storeByte c.val a) ∧
      (∀ d : ChanId, d ≠ c → t.ring[d] = s.ring[d]) ∧ t = { s with ring := t.ring, resp := t.resp }) ∧
  (∀ (m : Master) (c : ChanId) (off : BitVec 14) (v : Word) (s : State),
    let k := off.toNat / 2 * 2
    s.writes m (0x68000 + 0x4000 * c.val + k) → s.ringImageAt c k = none → 12 ≤ m.val → m.val < 16 →
    ∃ t, exec (.ringApertureWrite m .word c off v) s = .next t ∧ t.ring = s.ring ∧
      bit (t.reg (ringOff c.val + 4)) 13 = true ∧
      (t.reg (ringOff c.val + 0x1A)).toNat = min 65535 ((s.reg (ringOff c.val + 0x1A)).toNat + 1) ∧
      t = { s with regs := t.regs, fresh := t.fresh, resp := t.resp }) ∧
  (∀ (m : Master) (sel : ByteSel) (c : ChanId) (off : BitVec 14) (v : Word) (s : State), s.on → sel ≠ .word →
    exec (.ringApertureWrite m sel c off v) s = .next (s.respond m 0 true))

/-- R193 to R196, R198: the survey is launched, passes a node and gives it its delays; the automatic join. -/
def Obligations.RingSurvey : Prop :=
  (∀ (c : ChanId) (k : Nat) (s : State), s.on → s.ring[c].st = .master → s.tick.running = true → s.ring[c].mSurvey = none →
    s.ring[c].surveyDue = some k → k ≤ s.tick.tick → s.ring[c].inUp = true → s.ring[c].outUp = true →
    ∃ t, exec (.surveyLaunch c) s = .next t ∧ t.time.beat = max s.time.beat (s.tick.tBeat + s.svyOfs c.val) ∧
      t.ring[c].surveyDue = none ∧ t.ring[c].mSurvey = some { tick := s.tick.tick, launch := t.ringStamp c 0, fwd := none, rev := none, resultDue := false } ∧
      t.ring[c].sent.map (fun e => (e.1, (rhdrOf e.2.header).type, (rhdrOf e.2.header).dir, e.2.payload)) =
        [(.out, 2, false, List.replicate 4096 0), (.inn, 2, true, List.replicate 4096 0)] ∧
      (∀ d : ChanId, d ≠ c → t.ring[d] = s.ring[d]) ∧
      t = { s with time := t.time, ring := t.ring, host := t.host, ssn := t.ssn }) ∧
  (∀ (c : ChanId) (f : RingWire) (s : State), s.on → s.ring[c].st ≠ .off → s.ring[c].st ≠ .master → s.ring[c].st ≠ .clash →
    s.ring[c].inUp = true → s.ring[c].outUp = true → s.ring[c].folding = false → hdrGood f = true →
    let h := rhdrOf f.header
    let at' := 16 * s.nodeId
    h.type = 2 → s.nodeId < 254 → f.payload.length = 4096 → (∀ g ∈ segGoods f, g = true) →
    ofBytes ((f.payload.drop at').take 6) = 0 → (∀ x ∈ s.ring[c].survey, x.tick ≠ h.tick) →
    ∃ t, exec (.surveyPassage c .inn f) s = .next t ∧
      t.ring[c].survey = some { tick := h.tick, first := some (s.ringStamp c f.sub.val, false), second := none } ∧
      t.ring[c].sent.map (fun e => (e.1, e.2.header)) = [(.out, f.header)] ∧
      (∀ e ∈ t.ring[c].sent, ofBytes ((e.2.payload.drop at').take 6) = s.serial % 2 ^ 48 ∧
        ofBytes ((e.2.payload.drop (at' + 6)).take 4) = (Config.residence c.val).toNat ∧
        nthD e.2.payload (at' + 14) 0 = 4 ∧ e.2.payload.take at' = f.payload.take at' ∧
        e.2.payload.drop (at' + 16) = f.payload.drop (at' + 16)) ∧
      t.ring[c].st = s.ring[c].st ∧ (∀ d : ChanId, d ≠ c → t.ring[d] = s.ring[d]) ∧
      t = { s with ring := t.ring, regs := t.regs, fresh := t.fresh }) ∧
  (∀ (c : ChanId) (f : RingWire) (s : State), s.on → s.ring[c].st = .listen → s.ring[c].inUp = true →
    s.ring[c].outUp = true → s.ring[c].folding = false → hdrGood f = true →
    let h := rhdrOf f.header
    let slot := (f.payload.drop (16 * s.nodeId)).take 16
    h.type = 3 → s.nodeId < 254 → f.payload.length = 4096 → (∀ g ∈ segGoods f, g = true) →
    ofBytes ((slot.drop 8).take 6) = s.serial → ofBytes (slot.take 4) ≠ 0xFFFFFFFF → ofBytes ((slot.drop 4).take 4) ≠ 0xFFFFFFFF →
    ∃ t, exec (.surveyResult c .inn f) s = .next t ∧ t.ring[c].dlyF.toNat = ofBytes (slot.take 4) ∧
      t.ring[c].dlyR.toNat = ofBytes ((slot.drop 4).take 4) ∧
      (t.ring[c].st = .surveyed ∨ t.ring[c].st = .timed ∨ t.ring[c].st = .active) ∧
      (s.time.locked = false → s.srvOn = false → t.ring[c].st = .surveyed) ∧
      t.ring[c].sent.map (fun e => (e.1, e.2.header, e.2.payload)) = [(.out, f.header, f.payload)] ∧
      (∀ d : ChanId, d ≠ c → t.ring[d] = s.ring[d]) ∧ t = { s with ring := t.ring, regs := t.regs, fresh := t.fresh }) ∧
  (∀ (c : ChanId) (f : RingWire) (s : State), s.on → s.ring[c].st = .listen → s.ring[c].inUp = true →
    s.ring[c].outUp = true → s.ring[c].folding = false → hdrGood f = true →
    let slot := (f.payload.drop (16 * s.nodeId)).take 16
    (rhdrOf f.header).type = 3 → s.nodeId < 254 → f.payload.length = 4096 → (∀ g ∈ segGoods f, g = true) →
    ofBytes ((slot.drop 8).take 6) ≠ s.serial →
    ∃ t, exec (.surveyResult c .inn f) s = .next t ∧ bit (t.reg (ringOff c.val + 4)) 14 = true ∧
      t.ring[c].dlyF = s.ring[c].dlyF ∧ t.ring[c].dlyR = s.ring[c].dlyR ∧ t.ring[c].st = .listen ∧
      (∀ d : ChanId, d ≠ c → t.ring[d] = s.ring[d]) ∧ t = { s with ring := t.ring, regs := t.regs, fresh := t.fresh }) ∧
  (∀ (c : ChanId) (e : Int) (s : State), s.on → bit (s.reg (ringOff c.val)) 1 = true → s.ring[c].st = .surveyed →
    s.ring[c].joinE = some e → s.tick.running = true →
    ∃ t, exec (.autojoin c) s = .next t ∧ t.ring[c].st = .timed ∧ t.ring[c].joinE = none ∧
      bit (t.reg 0x10000) 0 = true ∧ fld (t.reg 0x10000) 1 3 = 2 + c.val ∧ t.time.todx = s.time.todx ∧
      (∀ d : ChanId, d ≠ c → t.ring[d] = s.ring[d]) ∧ (∀ off, off ≠ 0x10000 → t.reg off = s.reg off) ∧
      t = { s with time := t.time, ring := t.ring, regs := t.regs }) ∧
  (∀ (c : ChanId) (s : State), s.on → bit (s.reg (ringOff c.val)) 1 = true → s.ring[c].st = .timed → s.time.locked = true →
    s.tick.running = false → s.tick.starting = none → s.modeOk s.ring[c].lastHdrMode.val = true →
    ∃ t, exec (.autojoin c) s = .next t ∧ t.tick.starting = some (s.time.beat + 8192, s.ring[c].lastHdrMode) ∧
      bit (t.reg 0x20000) 0 = true ∧ t.ring = s.ring ∧ (∀ off, off ≠ 0x20000 → t.reg off = s.reg off) ∧
      t = { s with tick := { s.tick with starting := t.tick.starting }, regs := t.regs })
/-! ## CAN FD (08_can_fd.md) -/

/-- R213, R215, R217, R230, R239: the states of a channel. A release of INIT with a refused setting keeps INIT. -/
def Obligations.CanStates : Prop :=
  (∀ (m : Master) (c : CanId) (init : Bool) (s : State), s.writes m (canOff c.val) → s.can[c].st = .off →
    ∃ t, exec (.canEnable m c init) s = .next t ∧ bit (t.reg (canOff c.val)) 0 = true ∧
      (init = true → t.can[c].st = .init ∧ bit (t.reg (canOff c.val)) 1 = true) ∧
      (init = false → s.canSettingOk c.val = false → t.can[c].st = .init ∧ bit (t.reg (canOff c.val)) 1 = true ∧
        bit (t.reg (canOff c.val + 4)) 13 = true) ∧
      (t.can[c].st = .init ∨ t.can[c].st = .integrating) ∧ t.can[c].clash = Vector.replicate 32 0 ∧
      t.can[c].ram = s.can[c].ram ∧ (∀ d : CanId, d ≠ c → t.can[d] = s.can[d]) ∧
      (∀ off, off ≠ canOff c.val → off ≠ canOff c.val + 4 → t.reg off = s.reg off) ∧
      t = { s with can := t.can, regs := t.regs, fresh := t.fresh, resp := t.resp }) ∧
  (∀ (m : Master) (c : CanId) (s : State), s.writes m (canOff c.val) →
    ∃ t, exec (.canDisable m c) s = .next t ∧ t.can[c].st = .off ∧ t.can[c].tx = none ∧
      t.can[c].pendingMask = s.can[c].pendingMask ∧ t.can[c].fifo = s.can[c].fifo ∧ t.can[c].ram = s.can[c].ram ∧
      bit (t.reg (canOff c.val)) 0 = false ∧ (∀ d : CanId, d ≠ c → t.can[d] = s.can[d]) ∧
      (∀ off, off ≠ canOff c.val → t.reg off = s.reg off) ∧
      t = { s with can := t.can, regs := t.regs, resp := t.resp }) ∧
  (∀ (m : Master) (c : CanId) (s : State), s.writes m (canOff c.val) → bit (s.reg (canOff c.val)) 0 = true →
    ∃ t, exec (.canInitSet m c) s = .next t ∧ t.can[c].st = .init ∧ t.can[c].tx = none ∧
      t.can[c].clash = Vector.replicate 32 0 ∧ bit (t.reg (canOff c.val)) 1 = true ∧
      (s.can[c].st = .busOff → t.can[c].tec = 0 ∧ t.can[c].rec' = 0) ∧
      (s.can[c].st ≠ .busOff → t.can[c].tec = s.can[c].tec ∧ t.can[c].rec' = s.can[c].rec') ∧
      t.can[c].pendingMask = s.can[c].pendingMask ∧ (∀ d : CanId, d ≠ c → t.can[d] = s.can[d]) ∧
      (∀ off, off ≠ canOff c.val → t.reg off = s.reg off) ∧
      t = { s with can := t.can, regs := t.regs, resp := t.resp }) ∧
  (∀ (m : Master) (c : CanId) (s : State), s.writes m (canOff c.val) → bit (s.reg (canOff c.val)) 0 = true →
    s.can[c].st = .init →
    (∀ b, b < 32 → ¬(s.txFdf c.val b = false ∧ s.txBrs c.val b = true)) → bit (s.reg (canOff c.val)) 2 = true →
    let nb := (fld (s.reg (canOff c.val + 0x10)) 0 8 + 1) * (1 + (fld (s.reg (canOff c.val + 0x12)) 0 8 + 1) +
      (fld (s.reg (canOff c.val + 0x12)) 8 7 + 1))
    let db := (fld (s.reg (canOff c.val + 0x14)) 0 5 + 1) * (1 + (fld (s.reg (canOff c.val + 0x14)) 5 5 + 1) +
      (fld (s.reg (canOff c.val + 0x16)) 0 4 + 1))
    2 ≤ fld (s.reg (canOff c.val + 0x12)) 0 8 + 1 → 2 ≤ fld (s.reg (canOff c.val + 0x12)) 8 7 + 1 →
    fld (s.reg (canOff c.val + 0x10)) 8 7 ≤ fld (s.reg (canOff c.val + 0x12)) 8 7 →
    fld (s.reg (canOff c.val + 0x16)) 4 4 ≤ fld (s.reg (canOff c.val + 0x16)) 0 4 → 80 ≤ nb → 10 ≤ db →
    ∃ t, exec (.canInitRelease m c) s = .next t ∧ t.can[c].st = .integrating ∧ bit (t.reg (canOff c.val)) 1 = false ∧
      t.can[c].tec = s.can[c].tec ∧ (∀ d : CanId, d ≠ c → t.can[d] = s.can[d]) ∧
      (∀ off, off ≠ canOff c.val → t.reg off = s.reg off) ∧ t = { s with can := t.can, regs := t.regs, resp := t.resp }) ∧
  (∀ (m : Master) (c : CanId) (s : State), s.writes m (canOff c.val) → bit (s.reg (canOff c.val)) 0 = true →
    s.can[c].st = .init → s.canSettingOk c.val = false →
    ∃ t, exec (.canInitRelease m c) s = .next t ∧ t.can = s.can ∧ bit (t.reg (canOff c.val)) 1 = true ∧
      bit (t.reg (canOff c.val + 4)) 13 = true ∧ t = { s with regs := t.regs, fresh := t.fresh, resp := t.resp }) ∧
  (∀ (c : CanId) (dtec drec : Nat) (s : State), s.on → s.can[c].st = .errorActive ∨ s.can[c].st = .errorPassive →
    let tec := s.can[c].tec + dtec
    let rec' := min 255 (s.can[c].rec' + drec)
    ∃ t, exec (.canBusError c dtec drec) s = .next t ∧ t.can[c].tec = tec ∧ t.can[c].rec' = rec' ∧
      (255 < tec → t.can[c].st = .busOff ∧ t.can[c].tx = none ∧ bit (t.reg (canOff c.val + 4)) 11 = true) ∧
      (tec ≤ 255 → 127 < tec ∨ 127 < rec' → t.can[c].st = .errorPassive) ∧
      (tec ≤ 127 → rec' ≤ 127 → t.can[c].st = .errorActive) ∧ (∀ d : CanId, d ≠ c → t.can[d] = s.can[d]) ∧
      (∀ off, off ≠ canOff c.val + 4 → t.reg off = s.reg off) ∧
      t = { s with can := t.can, regs := t.regs, fresh := t.fresh }) ∧
  (∀ (c : CanId) (s : State), s.on → s.can[c].st = .busOff → bit (s.reg (canOff c.val)) 5 = true →
    ∃ t, exec (.busOffRecovery c) s = .next t ∧
      t.can[c] = { s.can[c] with st := .integrating, tec := 0, rec' := 0, spanOut := true } ∧
      (∀ d : CanId, d ≠ c → t.can[d] = s.can[d]) ∧ t = { s with can := t.can }) ∧
  (∀ (c : CanId) (s : State), s.on → s.can[c].st = .integrating →
    ∃ t, exec (.integrationDone c) s = .next t ∧ t.can[c] = { s.can[c] with st := .errorActive } ∧
      (∀ d : CanId, d ≠ c → t.can[d] = s.can[d]) ∧ t = { s with can := t.can })

/-- R226 to R230: requests, cancels, commits and the ends of transmissions. -/
def Obligations.CanTransmission : Prop :=
  (∀ (m : Master) (c : CanId) (v : BitVec 32) (s : State), s.writes m (canOff c.val + 0x22) →
    ∃ t, exec (.canTxreq m c v) s = .next t ∧
      (∀ b : Fin 32, t.canPending c b = (s.canPending c b || (v.getLsbD b.val && decide (s.txTrig c.val b.val = 0)))) ∧
      (∀ b : Fin 32, s.canPending c b = true → v.getLsbD b.val = true → s.txTrig c.val b.val = 0 →
        bit (t.reg (canOff c.val + 8)) 1 = true) ∧
      t.can[c] = { s.can[c] with pendingMask := t.can[c].pendingMask } ∧ (∀ d : CanId, d ≠ c → t.can[d] = s.can[d]) ∧
      (∀ off, off ≠ canOff c.val + 8 → t.reg off = s.reg off) ∧
      t = { s with can := t.can, regs := t.regs, fresh := t.fresh, resp := t.resp }) ∧
  (∀ (m : Master) (c : CanId) (v : BitVec 32) (s : State), s.writes m (canOff c.val + 0x26) →
    ∃ t, exec (.canTxcan m c v) s = .next t ∧
      (∀ b : Fin 32, let sent := (s.can[c].tx.bind (fun x => x.buf)) = some b
        t.canPending c b = (s.canPending c b && (!v.getLsbD b.val || decide sent)) ∧
        (v.getLsbD b.val = true → s.canPending c b = true → sent →
          bit (t.reg (canOff c.val + 0x2C + 2 * (b.val / 16))) (b.val % 16) = true ∧ bit (t.reg (canOff c.val + 4)) 6 = true) ∧
        (v.getLsbD b.val = true → s.canPending c b = true → ¬sent →
          bit (t.reg (canOff c.val + 0x28 + 2 * (b.val / 16))) (b.val % 16) = true ∧ bit (t.reg (canOff c.val + 4)) 5 = true)) ∧
      t.can[c].tx = s.can[c].tx ∧ (∀ d : CanId, d ≠ c → t.can[d] = s.can[d]) ∧
      t = { s with can := t.can, regs := t.regs, fresh := t.fresh, resp := t.resp }) ∧
  (∀ (c : CanId) (b : Fin 32) (s : State), s.on → s.canOnBus c = true → s.can[c].tx = none → s.canPending c b = true →
    bit (s.reg (canOff c.val)) 3 = false →
    (∀ x : Fin 32, x ≠ b → s.canPending c x = true →
      s.txKey c.val b.val < s.txKey c.val x.val ∨ (s.txKey c.val b.val = s.txKey c.val x.val ∧ b < x)) →
    ∃ t, exec (.canCommit c b) s = .next t ∧ t.can[c] = { s.can[c] with tx := t.can[c].tx } ∧
      t.can[c].tx.isSome = true ∧
      (∀ x ∈ t.can[c].tx, x.buf = some b ∧ x.data = s.txData c b.val ∧ x.exclusive = false ∧ s.time.beat ≤ x.sof) ∧
      (∀ d : CanId, d ≠ c → t.can[d] = s.can[d]) ∧ t = { s with can := t.can }) ∧
  (∀ (c : CanId) (b : Fin 32) (x : CanTx) (s : State), s.on → s.can[c].tx = some x → x.buf = some b →
    ∃ t, exec (.canTxEnd c .success) s = .next t ∧ t.can[c].tx = none ∧ t.can[c].tec = s.can[c].tec - 1 ∧
      (∀ y : Fin 32, t.canPending c y = (s.canPending c y && decide (y ≠ b))) ∧ t.can[c].clash[b] = 0 ∧
      bit (t.reg (canOff c.val + 0x28 + 2 * (b.val / 16))) (b.val % 16) = true ∧ bit (t.reg (canOff c.val + 4)) 3 = true ∧
      (∀ d : CanId, d ≠ c → t.can[d] = s.can[d]) ∧
      t = { s with can := t.can, regs := t.regs, fresh := t.fresh, free := t.free }) ∧
  (∀ (c : CanId) (b : Fin 32) (x : CanTx) (s : State), s.on → s.can[c].tx = some x → x.buf = some b →
    ∃ t, exec (.canTxEnd c .lostArbitration) s = .next t ∧ t.can[c] = { s.can[c] with tx := none } ∧
      (∀ d : CanId, d ≠ c → t.can[d] = s.can[d]) ∧ t = { s with can := t.can }) ∧
  (∀ (c : CanId) (b : Fin 32) (x : CanTx) (s : State), s.on → s.can[c].tx = some x → x.buf = some b →
    x.exclusive = false →
    let n := s.can[c].clash[b]
    ∃ t, exec (.canTxEnd c .bitError) s = .next t ∧ t.can[c].tx = none ∧ t.can[c].tec = s.can[c].tec ∧
      t.can[c].clash[b] = min 3 (n + 1) ∧ (n = 2 → bit (t.reg (canOff c.val + 4)) 7 = true) ∧
      (n = 2 → bit (s.reg (canTxOff c.val b.val + 6)) 0 = true → t.canPending c b = false ∧
        bit (t.reg (canOff c.val + 0x30 + 2 * (b.val / 16))) (b.val % 16) = true) ∧
      (n ≠ 2 ∨ bit (s.reg (canTxOff c.val b.val + 6)) 0 = false → t.canPending c b = s.canPending c b) ∧
      (∀ d : CanId, d ≠ c → t.can[d] = s.can[d]) ∧
      t = { s with can := t.can, regs := t.regs, fresh := t.fresh, free := t.free }) ∧
  (∀ (c : CanId) (b : Fin 32) (x : CanTx) (s : State), s.on → s.can[c].tx = some x → x.buf = some b →
    ∃ t, exec (.canTxEnd c .otherError) s = .next t ∧ t.can[c].tx = none ∧ t.can[c].clash[b] = 0 ∧
      t.canPending c b = (s.canPending c b && !x.exclusive) ∧
      (x.exclusive = true → bit (t.reg (canOff c.val + 4)) 4 = true) ∧ (∀ d : CanId, d ≠ c → t.can[d] = s.can[d]) ∧
      t = { s with can := t.can, regs := t.regs, fresh := t.fresh, free := t.free })

/-- R218 to R225: a received frame goes where the first filter that matches sends it; pops and clears; writes of the
message RAM aperture. -/
def Obligations.CanReception : Prop :=
  (∀ (c : CanId) (x : CanFrame) (f : Nat) (s : State), s.on → s.canOnBus c = true → x.own = false → s.can[c].tec ≤ 127 →
    s.can[c].rec' ≤ 127 → s.can[c].st = .errorActive → s.isReference c x = false →
    f < 128 → s.filterMatches c.val f x = true → (∀ k, k < f → s.filterMatches c.val k x = false) →
    let dest := fld (s.reg (canOff c.val + 0x500 + 2 * f)) 0 3
    dest = 0 ∨ dest = 1 →
    let q : Fin 2 := if dest = 0 then 0 else 1
    let e := s.canEntry c x (some f) false
    ∃ t, exec (.canFrameValid c x) s = .next t ∧ t.can[c].rec' = s.can[c].rec' - 1 ∧
      (s.can[c].fifo[q].length < 64 → t.can[c].fifo = s.can[c].fifo.set q (s.can[c].fifo[q] ++ [e]) ∧
        bit (t.reg (canOff c.val + 4)) q.val = true) ∧
      (64 ≤ s.can[c].fifo[q].length → t.can[c].fifo = s.can[c].fifo ∧ t.can[c].fifoOvf[q] = true ∧
        bit (t.reg (canOff c.val + 4)) 2 = true) ∧
      t.can[c].hp = s.can[c].hp ∧ t.can[c].ram = s.can[c].ram ∧ (∀ d : CanId, d ≠ c → t.can[d] = s.can[d]) ∧
      (∀ off, off ≠ canOff c.val + 4 → t.reg off = s.reg off) ∧
      t = { s with can := t.can, regs := t.regs, fresh := t.fresh }) ∧
  (∀ (c : CanId) (x : CanFrame) (f : Nat) (s : State), s.on → s.canOnBus c = true → x.own = false → s.can[c].tec ≤ 127 →
    s.can[c].rec' ≤ 127 → s.can[c].st = .errorActive → s.isReference c x = false →
    f < 128 → s.filterMatches c.val f x = true → (∀ k, k < f → s.filterMatches c.val k x = false) →
    fld (s.reg (canOff c.val + 0x500 + 2 * f)) 0 3 = 2 →
    let h := Fin.ofNat 8 (fld (s.reg (canOff c.val + 0x500 + 2 * f)) 3 5)
    let o := canOff c.val + 0x48
    ∃ t, exec (.canFrameValid c x) s = .next t ∧ t.can[c].hp = s.can[c].hp.set h (some (s.canEntry c x (some f) true)) ∧
      bit (t.reg o) h.val = true ∧ bit (t.reg o) (8 + h.val) = (bit (s.reg o) (8 + h.val) || bit (s.reg o) h.val) ∧
      t.can[c].fifo = s.can[c].fifo ∧ (∀ d : CanId, d ≠ c → t.can[d] = s.can[d]) ∧
      (∀ off, off ≠ o → t.reg off = s.reg off) ∧ t = { s with can := t.can, regs := t.regs, fresh := t.fresh }) ∧
  (∀ (c : CanId) (x : CanFrame) (f : Nat) (s : State), s.on → s.canOnBus c = true → x.own = false → s.can[c].tec ≤ 127 →
    s.can[c].rec' ≤ 127 → s.can[c].st = .errorActive → s.isReference c x = false →
    f < 128 → s.filterMatches c.val f x = true → (∀ k, k < f → s.filterMatches c.val k x = false) →
    fld (s.reg (canOff c.val + 0x500 + 2 * f)) 0 3 = 3 → x.rtr = false → x.data.length = canLen x →
    let i := fld (s.reg (canOff c.val + 0x500 + 2 * f)) 3 5
    let k := b2n s.jnr.side * 4096 + 64 * i
    ∃ t, exec (.canFrameValid c x) s = .next t ∧
      (∀ j, j < canLen x → some (Sparse.get 0 t.can[c].ram (k + j)) = x.data[j]?) ∧
      (∀ a, a < k ∨ k + canLen x ≤ a → Sparse.get 0 t.can[c].ram a = Sparse.get 0 s.can[c].ram a) ∧
      (∀ g ∈ s.localImage (2 + c.val) i, (t.jimage g).filling =
        { fresh := true, lost := false, supplyInv := false, len := canLen x }) ∧
      t.can[c].fifo = s.can[c].fifo ∧ t.can[c].hp = s.can[c].hp ∧ (∀ d : CanId, d ≠ c → t.can[d] = s.can[d]) ∧
      t.regs = s.regs ∧ t = { s with can := t.can, jnr := { s.jnr with images := t.jnr.images } }) ∧
  (∀ (m : Master) (c : CanId) (q : Fin 2) (s : State), s.writes m (canOff c.val + 0x42 + 4 * q.val) →
    exec (.canFifoPop m c q) s = .next (({ s with can := s.can.set c { s.can[c] with
      fifo := s.can[c].fifo.set q (s.can[c].fifo[q].drop 1), fifoOvf := s.can[c].fifoOvf.set q false } } : State).respond m 0 false)) ∧
  (∀ (m : Master) (c : CanId) (v : Word) (s : State), s.writes m (canOff c.val + 0x48) →
    let o := canOff c.val + 0x48
    ∃ t, exec (.canHpClear m c v) s = .next t ∧ t.reg o = s.reg o &&& ~~~(v &&& ~~~s.freshAt o) ∧
      (∀ h : Fin 8, bit v h.val = false → t.can[c].hp[h] = s.can[c].hp[h]) ∧
      (∀ off, off ≠ o → t.reg off = s.reg off) ∧ t.can[c] = { s.can[c] with hp := t.can[c].hp } ∧
      (∀ d : CanId, d ≠ c → t.can[d] = s.can[d]) ∧ t = { s with can := t.can, regs := t.regs, resp := t.resp }) ∧
  (∀ (m : Master) (c : CanId) (off : BitVec 13) (v : Word) (s : State),
    let o := off.toNat / 2 * 2
    s.writes m (0x74000 + 0x2000 * c.val + o) → 0x800 ≤ o → o < 0x1000 →
    let b := (o - 0x800) / 64
    let k := (if s.txImg c.val b then b2n (s.canFill c.val b) * 4096 else 0) + o
    ∃ t, exec (.canApertureWrite m .word c off v) s = .next t ∧ Sparse.get 0 t.can[c].ram k = v.truncate 8 ∧
      Sparse.get 0 t.can[c].ram (k + 1) = (v >>> 8).truncate 8 ∧
      (∀ a, a ≠ k → a ≠ k + 1 → Sparse.get 0 t.can[c].ram a = Sparse.get 0 s.can[c].ram a) ∧
      t.can[c] = { s.can[c] with ram := t.can[c].ram } ∧ (∀ d : CanId, d ≠ c → t.can[d] = s.can[d]) ∧
      t = { s with can := t.can, resp := t.resp }) ∧
  (∀ (m : Master) (sel : ByteSel) (c : CanId) (off : BitVec 13) (v : Word) (s : State), s.on → sel ≠ .word →
    exec (.canApertureWrite m sel c off v) s = .next (s.respond m 0 true))

/-- R87, R227, R232 to R236, R239: the schedule matrix: references, windows, and its table through the staging words. -/
def Obligations.CanMatrix : Prop :=
  (∀ (c : CanId) (s : State), s.on → bit (s.reg (canOff c.val)) 3 = true → s.tick.running = true →
    bit (s.reg (canOff c.val)) 4 = true → s.canOnBus c = true → s.can[c].ttSync = false → s.can[c].tx = none →
    let start := s.tick.tBeat + s.canRefOfs c.val s.tick.mode.val
    s.time.beat ≤ start →
    ∃ t, exec (.refMessage c) s = .next t ∧ t.time.beat = start ∧ t.can[c].refPending = true ∧
      t.can[c].tx.isSome = true ∧
      (∀ x ∈ t.can[c].tx, x.buf = none ∧ x.data = [BitVec.ofNat 8 (s.cycleNow c)] ∧ x.sof = start) ∧
      (∀ d : CanId, d ≠ c → t.can[d] = s.can[d]) ∧
      t = { s with time := t.time, can := t.can, host := t.host, ssn := t.ssn }) ∧
  (∀ (c : CanId) (s : State), s.on → bit (s.reg (canOff c.val)) 3 = true → s.tick.running = true → s.can[c].ttSync = false →
    let due := s.tick.tBeat + s.canRefOfs c.val s.tick.mode.val + 16 * (s.reg (canOff c.val + 0x1E)).toNat
    ∃ t, exec (.refTimeout c) s = .next t ∧ t.time.beat = max s.time.beat due ∧ bit (t.reg (canOff c.val + 4)) 9 = true ∧
      t.can[c] = { s.can[c] with silent := true, refPending := false } ∧ (∀ d : CanId, d ≠ c → t.can[d] = s.can[d]) ∧
      (∀ off, off ≠ canOff c.val + 4 → t.reg off = s.reg off) ∧
      t = { s with time := t.time, can := t.can, regs := t.regs, fresh := t.fresh, host := t.host, ssn := t.ssn }) ∧
  (∀ (c : CanId) (w : Fin 32) (s : State), s.on → bit (s.reg (canOff c.val)) 3 = true → s.tick.running = true →
    s.can[c].ttSync = true →
    let x := s.canWin c s.tick.mode.val w.val
    x.inForce s.can[c].cycle.toNat = true →
    let due := s.can[c].refMark + x.start
    ∃ t, exec (.canWindowOpen c w) s = .next t ∧ t.time.beat = max s.time.beat due ∧
      t.can[c].openWin = some { win := w.val, exclusive := decide (x.kind = 1), buf := x.buf, close := due + x.len } ∧
      (x.kind = 1 → s.can[c].silent = false → s.txTrig c.val x.buf.val = 2 → t.canPending c x.buf = true) ∧
      (x.kind ≠ 1 → t.can[c].pendingMask = s.can[c].pendingMask) ∧ (∀ d : CanId, d ≠ c → t.can[d] = s.can[d]) ∧
      t = { s with time := t.time, can := t.can, regs := t.regs, fresh := t.fresh, host := t.host, ssn := t.ssn }) ∧
  (∀ (c : CanId) (w : Fin 32) (o : OpenWin) (s : State), s.on → s.can[c].openWin = some o → o.win = w.val →
    let unsent := o.exclusive = true ∧ s.canPending c o.buf = true ∧ (s.can[c].tx.bind (fun x => x.buf)) ≠ some o.buf
    ∃ t, exec (.canWindowClose c w) s = .next t ∧ t.time.beat = max s.time.beat o.close ∧ t.can[c].openWin = none ∧
      (unsent → bit (t.reg (canOff c.val + 4)) 8 = true ∧
        (s.txTrig c.val o.buf.val = 2 → t.canPending c o.buf = false)) ∧
      (¬unsent → t.regs = s.regs ∧ t.can[c].pendingMask = s.can[c].pendingMask) ∧
      (∀ d : CanId, d ≠ c → t.can[d] = s.can[d]) ∧
      t = { s with time := t.time, can := t.can, regs := t.regs, fresh := t.fresh, host := t.host, ssn := t.ssn }) ∧
  (∀ (m : Master) (c : CanId) (s : State), s.writes m (canOff c.val + 0xE2) →
    let o := canOff c.val
    let w := s.canWin c (fld (s.reg (o + 0xE0)) 0 3) (fld (s.reg (o + 0xE0)) 3 5)
    w.start < 2 ^ 32 → w.len < 2 ^ 32 → w.base < 64 → w.rep < 8 →
    ∃ t, exec (.canMxRead m c) s = .next t ∧ t.pair (o + 0xE4) = w.start ∧ t.pair (o + 0xE8) = w.len ∧
      fld (t.reg (o + 0xEC)) 0 2 = w.kind.val ∧ fld (t.reg (o + 0xEC)) 2 5 = w.buf.val ∧
      fld (t.reg (o + 0xEC)) 7 6 = w.base ∧ fld (t.reg (o + 0xEE)) 0 3 = w.rep ∧
      (∀ off, off < o + 0xE4 ∨ o + 0xF0 ≤ off → t.reg off = s.reg off) ∧ t = { s with regs := t.regs, resp := t.resp }) ∧
  (∀ (m : Master) (c : CanId) (s : State), s.writes m (canOff c.val + 0xE2) →
    let o := canOff c.val
    let md := fld (s.reg (o + 0xE0)) 0 3
    let w := fld (s.reg (o + 0xE0)) 3 5
    s.tick.running = false ∨ (s.tick.mode.val ≠ md ∧ (∀ r ∈ s.tick.req, r.mode.val ≠ md)) →
    ∃ t, exec (.canMxWrite m c) s = .next t ∧ (t.canWin c md w).start = s.pair (o + 0xE4) ∧
      (t.canWin c md w).len = s.pair (o + 0xE8) ∧ (t.canWin c md w).kind.val = fld (s.reg (o + 0xEC)) 0 2 ∧
      (t.canWin c md w).buf.val = fld (s.reg (o + 0xEC)) 2 5 ∧ (t.canWin c md w).base = fld (s.reg (o + 0xEC)) 7 6 ∧
      (t.canWin c md w).rep = fld (s.reg (o + 0xEE)) 0 3 ∧
      (∀ k, k ≠ md * 32 + w → Sparse.get Window.reset t.can[c].windows k = Sparse.get Window.reset s.can[c].windows k) ∧
      t.can[c] = { s.can[c] with windows := t.can[c].windows } ∧ (∀ d : CanId, d ≠ c → t.can[d] = s.can[d]) ∧
      t = { s with can := t.can, resp := t.resp }) ∧
  (∀ (m : Master) (c : CanId) (s : State), s.writes m (canOff c.val + 0xE2) → s.inRun = true → s.tick.running = true →
    s.tick.mode.val = fld (s.reg (canOff c.val + 0xE0)) 0 3 →
    exec (.canMxWrite m c) s = .next ((s.raise 0x20004 8).respond m 0 false))
/-! ## Jigs (09_jigs_and_legacy_lines.md) -/

/-- R245 to R247: jumps, loops, drives, immediate values, transfers, events, NOP and HALT. An instruction that does not
jump moves PC on by 1 modulo 64 unless it was injected. -/
def Obligations.JigInstructions : Prop :=
  (∀ (j : JigId) (gp : BitVec 64) (w : Word) (s : State), s.jigRuns j w → fld w 12 4 = 0 →
    let test := fld w 9 3
    let level := gp.getLsbD (s.linePin j.val (fld w 6 3)) != s.lineInv j.val (fld w 6 3)
    let x := s.jig[j]
    test = 1 ∨ test = 2 → s.lineEn j.val (fld w 6 3) = true →
    let jump := level = decide (test = 1)
    let pc := if jump then BitVec.ofNat 6 (fld w 0 6) else if x.inj.isSome then x.pc else x.pc + 1
    ∃ t, exec (.jigGoto j gp) s = .next t ∧
      t = { s with gp := gp, jig := s.jig.set j { x with inj := none, stallInj := false, pc := pc } }) ∧
  (∀ (j : JigId) (gp : BitVec 64) (w : Word) (s : State), s.jigRuns j w → fld w 12 4 = 0 →
    let test := fld w 9 3
    let x := s.jig[j]
    test ≠ 1 → test ≠ 2 →
    let jump := test = 0 ∨ (test = 3 ∧ x.txFull = false) ∨ (test = 4 ∧ x.rxFull = true) ∨
      (test = 5 ∧ s.jigRoom j = true) ∨ (test = 6 ∧ x.ct = 0) ∨
      (test = 7 ∧ x.ct ≠ 0)
    ∃ t, exec (.jigGoto j gp) s = .next t ∧
      (jump → t.jig[j].pc = BitVec.ofNat 6 (fld w 0 6)) ∧
      (¬jump → t.jig[j].pc = if x.inj.isSome then x.pc else x.pc + 1) ∧
      t = { s with gp := gp, jig := s.jig.set j { x with inj := none, stallInj := false, pc := t.jig[j].pc } }) ∧
  (∀ (j : JigId) (w : Word) (s : State), s.jigRuns j w → fld w 12 4 = 1 → fld w 6 6 = 0 →
    let x := s.jig[j]
    let next := if x.inj.isSome then x.pc else x.pc + 1
    ∃ t, exec (.jigLoop j) s = .next t ∧
      t = { s with jig := s.jig.set j { x with
        inj := none, stallInj := false, ct := if x.ct = 0 then 0 else x.ct - 1
        pc := if x.ct = 0 then next else BitVec.ofNat 6 (fld w 0 6) } }) ∧
  (∀ (j : JigId) (gp : BitVec 64) (w : Word) (s : State), s.jigRuns j w → fld w 12 4 = 2 → fld w 9 1 = 0 → fld w 0 6 = 0 →
    s.lineEn j.val (fld w 6 3) = true →
    let level := gp.getLsbD (s.linePin j.val (fld w 6 3)) != s.lineInv j.val (fld w 6 3)
    let met := level = bit w 11
    let x := s.jig[j]
    let next := if x.inj.isSome then x.pc else x.pc + 1
    ∃ t, exec (.jigHold j gp) s = .next t ∧
      (met → bit w 10 = false → t.jig[j] = { x with inj := none, stallInj := false, pc := next }) ∧
      (¬met ∨ bit w 10 = true → t.jig[j] = { x with
        inj := none, stallInj := x.inj.isSome
        stall := some (.hold (Fin.ofNat 8 (fld w 6 3)) (bit w 11) (bit w 10) (decide (¬met))) }) ∧
      t = { s with gp := gp, jig := s.jig.set j t.jig[j] }) ∧
  (∀ (j : JigId) (gp : BitVec 64) (l : Fin 8) (level edge other : Bool) (s : State), s.on →
    s.jig[j].stall = some (.hold l level edge other) →
    let met := (gp.getLsbD (s.linePin j.val l.val) != s.lineInv j.val l.val) = level
    let x := s.jig[j]
    ∃ t, exec (.jigHoldRelease j gp) s = .next t ∧
      (met → edge = false ∨ other = true → t.jig[j] = { x with
        stall := none, stallInj := false, pc := if x.stallInj then x.pc else x.pc + 1 }) ∧
      (¬met → t.jig[j] = { x with stall := some (.hold l level edge true) }) ∧
      (met → edge = true → other = false → t.jig[j] = x) ∧
      t = { s with gp := gp, jig := s.jig.set j t.jig[j] }) ∧
  (∀ (j : JigId) (w : Word) (s : State), s.jigRuns j w → fld w 12 4 = 3 → fld w 11 1 = 0 → fld w 2 6 = 0 →
    s.lineEn j.val (fld w 8 3) = true →
    let l := Fin.ofNat 8 (fld w 8 3)
    let x := s.jig[j]
    let old := x.lines[l]
    let new : LineSt := { on := true, level := if fld w 0 2 = 3 then !old.level else decide (fld w 0 2 = 1) }
    fld w 0 2 = 2 ∨ s.claims j.val (s.linePin j.val l.val) = true →
    ∃ t, exec (.jigDrive j) s = .next t ∧
      t.jig = s.jig.set j { x with
        inj := none, stallInj := false, pc := if x.inj.isSome then x.pc else x.pc + 1
        lines := x.lines.set l (if fld w 0 2 = 2 then { old with on := false } else new) } ∧
      (∀ off, off ≠ jigOff j.val + 4 → t.reg off = s.reg off) ∧
      t = { s with jig := t.jig, regs := t.regs, fresh := t.fresh }) ∧
  (∀ (j : JigId) (w : Word) (s : State), s.jigRuns j w → fld w 12 4 = 3 → fld w 11 1 = 0 → fld w 2 6 = 0 →
    s.lineEn j.val (fld w 8 3) = true → fld w 0 2 ≠ 2 →
    let pin := s.linePin j.val (fld w 8 3)
    let x := s.jig[j]
    s.claims j.val pin = false →
    let other := (List.range 32).any (fun i => i != j.val && s.claims i pin)
    ∃ t, exec (.jigDrive j) s = .next t ∧ t.jig[j].lines = x.lines ∧ bit (t.reg (jigOff j.val + 4)) 6 = true ∧
      t.jig[j].clamped = other ∧ (other = true → t.jig[j].pc = x.pc ∧ bit (t.reg 0xF0004) 10 = true) ∧
      (other = false → t.jig[j].pc = (if x.inj.isSome then x.pc else x.pc + 1) ∧ t.ssn = s.ssn) ∧
      (∀ i : JigId, i ≠ j → t.jig[i] = s.jig[i]) ∧
      t = { s with jig := t.jig, regs := t.regs, fresh := t.fresh, ssn := t.ssn }) ∧
  (∀ (j : JigId) (w : Word) (s : State), s.jigRuns j w → fld w 12 4 = 0xB →
    let x := s.jig[j]
    let put := fun (old : Word) => if bit w 10 then setFld old 6 10 (fld w 0 10) else BitVec.ofNat 16 (fld w 0 10)
    exec (.jigLdi j) s = .next { s with jig := s.jig.set j { x with
      inj := none, stallInj := false, pc := if x.inj.isSome then x.pc else x.pc + 1
      sr := if bit w 11 then put x.sr else x.sr, ct := if bit w 11 then x.ct else put x.ct } }) ∧
  (∀ (j : JigId) (gp : BitVec 64) (w v : Word) (s : State), s.jigRuns j w → fld w 12 4 = 0xC → fld w 0 4 = 0 →
    let dest := fld w 9 3
    let src := fld w 6 3
    let x := s.jig[j]
    dest ≤ 2 → src ≤ 5 → fld w 4 2 ≤ 2 →
    (src = 0 → v = x.ct) → (src = 1 → v = x.sr) → (src = 2 → v = BitVec.ofNat 16 s.time.beat) →
    (src = 3 → v = BitVec.ofNat 16 x.shiftDone) → (src = 5 → v = 0) →
    (src = 4 → v.toNat < 256 ∧ ∀ l, l < 8 → bit v l = (s.lineEn j.val l && (gp.getLsbD (s.linePin j.val l) != s.lineInv j.val l))) →
    let r := if fld w 4 2 = 0 then v else if fld w 4 2 = 1 then ~~~v else v.rotateLeft 8
    ∃ t, exec (.jigXfr j gp) s = .next t ∧
      t = { s with gp := gp, jig := s.jig.set j { x with
        inj := none, stallInj := false, ct := if dest = 0 then r else x.ct, sr := if dest = 1 then r else x.sr
        pc := if dest = 2 then r.truncate 6 else if x.inj.isSome then x.pc else x.pc + 1 } }) ∧
  (∀ (j : JigId) (w : Word) (s : State), s.jigRuns j w → fld w 12 4 = 0xD → fld w 0 12 = 0 →
    let x := s.jig[j]
    exec (.jigEvt j) s = .next (({ s with jig := s.jig.set j { x with
      inj := none, stallInj := false, pc := if x.inj.isSome then x.pc else x.pc + 1 } } : State).raise (jigOff j.val + 4) 0)) ∧
  (∀ (j : JigId) (w : Word) (s : State), s.jigRuns j w → w = 0xF000 →
    let x := s.jig[j]
    exec (.jigNop j) s = .next { s with jig := s.jig.set j { x with
      inj := none, stallInj := false, pc := if x.inj.isSome then x.pc else x.pc + 1 } }) ∧
  (∀ (j : JigId) (w : Word) (s : State), s.jigRuns j w → w = 0xF001 →
    let x := s.jig[j]
    exec (.jigHalt j) s = .next { s with jig := s.jig.set j { x with
      inj := none, stallInj := false, halted := true, pc := if x.inj.isSome then x.pc else x.pc + 1 } }) ∧
  (∀ (j : JigId) (w : Word) (s : State), s.jigRuns j w →
    fld w 12 4 = 0xE ∨ (fld w 12 4 = 0xC ∧ (2 < fld w 9 3 ∨ 5 < fld w 6 3 ∨ 2 < fld w 4 2)) ∨
      ((fld w 12 4 = 4 ∨ fld w 12 4 = 5) ∧ bit w 11 = true ∧ bit w 7 = false) ∨
      (fld w 12 4 = 2 ∧ s.lineEn j.val (fld w 6 3) = false) ∨
      (3 ≤ fld w 12 4 ∧ fld w 12 4 ≤ 5 ∧ s.lineEn j.val (fld w 8 3) = false) ∨ (fld w 12 4 = 1 ∧ fld w 6 6 ≠ 0) →
    let x := s.jig[j]
    ∃ t, exec (.jigIllegal j) s = .next t ∧ t.reg (jigOff j.val + 4) = s.reg (jigOff j.val + 4) ||| 0x400 ∧
      t.jig = s.jig.set j { x with
        inj := none, stallInj := false, halted := true, pc := if x.inj.isSome then x.pc else x.pc + 1 } ∧
      (∀ off, off ≠ jigOff j.val + 4 → t.reg off = s.reg off) ∧
      t = { s with jig := t.jig, regs := t.regs, fresh := t.fresh })

/-- R245, R248, R250, R251: shifts, delays, timed waits and pace. -/
def Obligations.JigShiftsAndWaits : Prop :=
  (∀ (j : JigId) (w : Word) (s : State), s.jigRuns j w → fld w 12 4 = 4 → fld w 4 3 = 0 → bit w 7 = false → bit w 11 = false →
    s.lineEn j.val (fld w 8 3) = true → s.claims j.val (s.linePin j.val (fld w 8 3)) = true →
    let n := fld w 0 4 + 1
    let l := Fin.ofNat 8 (fld w 8 3)
    let x := s.jig[j]
    let lsb := bit (s.reg (jigOff j.val)) 2
    ∃ t, exec (.jigSend j) s = .next t ∧ t.jig[j].sr = (if lsb then x.sr >>> n else x.sr <<< n) ∧
      t.jig[j].shiftDone = n ∧ t.jig[j].lines = x.lines.set l { on := true, level := bit x.sr (if lsb then n - 1 else 16 - n) } ∧
      t.jig[j].pc = (if x.inj.isSome then x.pc else x.pc + 1) ∧ t.jig[j].ct = x.ct ∧
      (∀ i : JigId, i ≠ j → t.jig[i] = s.jig[i]) ∧ (∀ off, off ≠ jigOff j.val + 4 → t.reg off = s.reg off) ∧
      t = { s with jig := t.jig, regs := t.regs, fresh := t.fresh }) ∧
  (∀ (j : JigId) (samples : BitVec 16) (w : Word) (s : State), s.jigRuns j w → fld w 12 4 = 5 → fld w 4 3 = 0 →
    bit w 7 = false → bit w 11 = false → s.lineEn j.val (fld w 8 3) = true →
    let n := fld w 0 4 + 1
    let x := s.jig[j]
    let lsb := bit (s.reg (jigOff j.val)) 3
    let seen := fun i => samples.getLsbD i != s.lineInv j.val (fld w 8 3)
    ∃ t, exec (.jigTake j samples) s = .next t ∧ t.jig[j].shiftDone = n ∧
      (lsb = false → ∀ i, i < 16 → bit t.jig[j].sr i = if i < n then seen (n - 1 - i) else bit x.sr (i - n)) ∧
      (lsb = true → ∀ i, i < 16 → bit t.jig[j].sr i = if i < 16 - n then bit x.sr (i + n) else seen (i + n - 16)) ∧
      t = { s with jig := s.jig.set j { x with
        inj := none, stallInj := false, shiftDone := n, sr := t.jig[j].sr
        pc := if x.inj.isSome then x.pc else x.pc + 1 } }) ∧
  (∀ (j : JigId) (w : Word) (s : State), s.jigRuns j w → fld w 12 4 = 4 → fld w 4 3 = 0 → bit w 7 = true →
    s.lineEn j.val (fld w 8 3) = true →
    let x := s.jig[j]
    ∃ t, exec (.jigSend j) s = .next t ∧
      t.jig[j].stall = some (.shift true (bit w 11) (Fin.ofNat 8 (fld w 8 3)) (fld w 0 4 + 1) none) ∧
      t.jig[j].shiftDone = 0 ∧ t.jig[j].sr = x.sr ∧ t.jig[j].lines = x.lines ∧ t.jig[j].pc = x.pc ∧
      t.jig[j].stallInj = x.inj.isSome ∧ (∀ i : JigId, i ≠ j → t.jig[i] = s.jig[i]) ∧
      t = { s with jig := t.jig, regs := t.regs, fresh := t.fresh }) ∧
  (∀ (j : JigId) (gp : BitVec 64) (l : Fin 8) (left : Nat) (s : State), s.on →
    s.jig[j].stall = some (.shift true false l left none) → s.jig[j].clamped = false →
    s.claims j.val (s.linePin j.val l.val) = true →
    let x := s.jig[j]
    let lsb := bit (s.reg (jigOff j.val)) 2
    ∃ t, exec (.paceStep j gp) s = .next t ∧
      t.time.beat = max s.time.beat (x.paceOrigin + x.paceStep * x.pacePeriod / 65536) ∧
      t.jig[j].paceStep = x.paceStep + 1 ∧ t.jig[j].sr = (if lsb then x.sr >>> 1 else x.sr <<< 1) ∧
      t.jig[j].lines = x.lines.set l { on := true, level := bit x.sr (if lsb then 0 else 15) } ∧
      t.jig[j].shiftDone = x.shiftDone + 1 ∧
      (2 ≤ left → t.jig[j].stall = some (.shift true false l (left - 1) none) ∧ t.jig[j].pc = x.pc) ∧
      (left ≤ 1 → t.jig[j].stall = none ∧ t.jig[j].pc = if x.stallInj then x.pc else x.pc + 1) ∧
      (∀ i : JigId, i ≠ j → t.jig[i] = s.jig[i]) ∧ t.gp = gp ∧
      t = { s with
        time := t.time, jig := t.jig, host := t.host, ssn := t.ssn, gp := t.gp, regs := t.regs, fresh := t.fresh }) ∧
  (∀ (j : JigId) (samples : BitVec 16) (w : Word) (s : State), s.jigRuns j w → fld w 12 4 = 5 → fld w 4 3 = 0 → bit w 7 = true →
    s.lineEn j.val (fld w 8 3) = true →
    ∃ t, exec (.jigTake j samples) s = .next t ∧
      t.jig[j].stall = some (.shift false (bit w 11) (Fin.ofNat 8 (fld w 8 3)) (fld w 0 4 + 1) none) ∧
      t.jig[j].shiftDone = 0 ∧ t.jig[j].sr = s.jig[j].sr ∧ t.jig[j].pc = s.jig[j].pc ∧
      (∀ i : JigId, i ≠ j → t.jig[i] = s.jig[i]) ∧ t = { s with jig := t.jig, regs := t.regs, fresh := t.fresh }) ∧
  (∀ (j : JigId) (gp : BitVec 64) (l : Fin 8) (left : Nat) (s : State), s.on →
    s.jig[j].stall = some (.shift false false l left none) → s.jig[j].clamped = false →
    let x := s.jig[j]
    let seen := gp.getLsbD (s.linePin j.val l.val) != s.lineInv j.val l.val
    let lsb := bit (s.reg (jigOff j.val)) 3
    ∃ t, exec (.paceStep j gp) s = .next t ∧ t.jig[j].paceStep = x.paceStep + 1 ∧ t.jig[j].shiftDone = x.shiftDone + 1 ∧
      t.jig[j].sr = (if lsb then x.sr >>> 1 ||| (if seen then 0x8000 else 0) else x.sr <<< 1 ||| (if seen then 1 else 0)) ∧
      (2 ≤ left → t.jig[j].stall = some (.shift false false l (left - 1) none) ∧ t.jig[j].pc = x.pc) ∧
      (left ≤ 1 → t.jig[j].stall = none ∧ t.jig[j].pc = if x.stallInj then x.pc else x.pc + 1) ∧
      t = { s with time := t.time, jig := s.jig.set j t.jig[j], host := t.host, ssn := t.ssn, gp := gp }) ∧
  (∀ (j : JigId) (gp : BitVec 64) (l : Fin 8) (left : Nat) (s : State), s.on →
    s.jig[j].stall = some (.shift true true l left none) → s.jig[j].clamped = false →
    s.claims j.val (s.linePin j.val l.val) = true →
    let x := s.jig[j]
    let b := bit x.sr (if bit (s.reg (jigOff j.val)) 2 then 0 else 15)
    ∃ t, exec (.paceStep j gp) s = .next t ∧ t.jig[j].lines = x.lines.set l { on := true, level := !b } ∧
      t.jig[j].sr = x.sr ∧ t.jig[j].shiftDone = x.shiftDone ∧
      t.jig[j].stall = some (.shift true true l left (some false)) ∧ (∀ i : JigId, i ≠ j → t.jig[i] = s.jig[i]) ∧
      t = { s with
        time := t.time, jig := t.jig, host := t.host, ssn := t.ssn, gp := gp, regs := t.regs, fresh := t.fresh }) ∧
  (∀ (j : JigId) (gp : BitVec 64) (l : Fin 8) (left : Nat) (first : Bool) (s : State), s.on →
    s.jig[j].stall = some (.shift false true l left (some first)) → s.jig[j].clamped = false →
    let x := s.jig[j]
    let seen := gp.getLsbD (s.linePin j.val l.val) != s.lineInv j.val l.val
    ∃ t, exec (.paceStep j gp) s = .next t ∧ t.jig[j].shiftDone = x.shiftDone + 1 ∧
      bit t.jig[j].sr (if bit (s.reg (jigOff j.val)) 3 then 15 else 0) = seen ∧
      (seen = first → bit (t.reg (jigOff j.val + 4)) 13 = true) ∧ (seen ≠ first → t.regs = s.regs) ∧
      (∀ i : JigId, i ≠ j → t.jig[i] = s.jig[i]) ∧
      t = { s with
        time := t.time, jig := t.jig, host := t.host, ssn := t.ssn, gp := gp, regs := t.regs, fresh := t.fresh }) ∧
  (∀ (j : JigId) (gp : BitVec 64) (s : State), s.on → s.jig[j].stall = some .pace →
    let x := s.jig[j]
    ∃ t, exec (.paceStep j gp) s = .next t ∧
      t.time.beat = max s.time.beat (x.paceOrigin + x.paceStep * x.pacePeriod / 65536) ∧
      t.jig = s.jig.set j { x with
        paceStep := x.paceStep + 1, stall := none, stallInj := false, pc := if x.stallInj then x.pc else x.pc + 1 } ∧
      t.gp = gp ∧ t = { s with time := t.time, jig := t.jig, host := t.host, ssn := t.ssn, gp := t.gp }) ∧
  (∀ (j : JigId) (gp : BitVec 64) (s : State), s.on → s.jig[j].stall = none →
    ∃ t, exec (.paceStep j gp) s = .next t ∧ bit (t.reg (jigOff j.val + 4)) 9 = true ∧
      t.jig = s.jig.set j { s.jig[j] with paceStep := s.jig[j].paceStep + 1 } ∧
      t = { s with
        time := t.time, jig := t.jig, host := t.host, ssn := t.ssn, gp := gp, regs := t.regs, fresh := t.fresh }) ∧
  (∀ (j : JigId) (w : Word) (s : State), s.jigRuns j w → fld w 12 4 = 0xA → fld w 0 11 = 0 →
    let x := s.jig[j]
    ∃ t, exec (.jigPace j) s = .next t ∧
      (bit w 11 = true → t.jig[j].paceOrigin = s.time.beat ∧ t.jig[j].pacePeriod = max 65536 (s.pair (jigOff j.val + 0xC)) ∧
        t.jig[j].stall = none ∧ t.jig[j].pc = if x.inj.isSome then x.pc else x.pc + 1) ∧
      (bit w 11 = false → t.jig[j].stall = some .pace ∧ t.jig[j].pc = x.pc ∧ t.jig[j].stallInj = x.inj.isSome) ∧
      t.jig[j].sr = x.sr ∧ t.jig[j].ct = x.ct ∧ t.jig[j].lines = x.lines ∧ (∀ i : JigId, i ≠ j → t.jig[i] = s.jig[i]) ∧
      (∀ off, off ≠ jigOff j.val + 4 → t.reg off = s.reg off) ∧
      t = { s with jig := t.jig, regs := t.regs, fresh := t.fresh }) ∧
  (∀ (j : JigId) (w : Word) (s : State), s.jigRuns j w → fld w 12 4 = 8 →
    let x := s.jig[j]
    let n := if bit w 11 then x.ct.toNat else fld w 0 11
    ∃ t, exec (.jigDelay j) s = .next t ∧
      (n ≤ 1 → t.jig[j] = { x with inj := none, stallInj := false, pc := if x.inj.isSome then x.pc else x.pc + 1 }) ∧
      (2 ≤ n → t.jig[j] = { x with inj := none, stallInj := x.inj.isSome, stall := some (.delay (s.time.beat + n)) }) ∧
      t = { s with jig := s.jig.set j t.jig[j] }) ∧
  (∀ (j : JigId) (e : Nat) (s : State), s.on → s.jig[j].stall = some (.delay e) →
    let x := s.jig[j]
    ∃ t, exec (.jigDelayEnd j) s = .next t ∧ t.time.beat = max s.time.beat e ∧
      t.jig = s.jig.set j { x with stall := none, stallInj := false, pc := if x.stallInj then x.pc else x.pc + 1 } ∧
      t = { s with time := t.time, jig := t.jig, host := t.host, ssn := t.ssn }) ∧
  (∀ (j : JigId) (w : Word) (s : State), s.jigRuns j w → fld w 12 4 = 9 → fld w 0 10 = 0 →
    fld w 10 2 = 0 ∨ fld w 10 2 = 3 →
    let x := s.jig[j]
    let target := if fld w 10 2 = 3 then x.at' + x.ct.zeroExtend 64 else x.at'
    ∃ t, exec (.jigAt j) s = .next t ∧ t.jig[j].at' = target ∧
      (target.toNat ≤ s.time.beat → bit (t.reg (jigOff j.val + 4)) 1 = true ∧ t.jig[j].stall = none ∧
        t.jig[j].pc = if x.inj.isSome then x.pc else x.pc + 1) ∧
      (s.time.beat < target.toNat → t.regs = s.regs ∧ t.jig[j].stall = some (.at target.toNat) ∧ t.jig[j].pc = x.pc) ∧
      (∀ i : JigId, i ≠ j → t.jig[i] = s.jig[i]) ∧ t = { s with jig := t.jig, regs := t.regs, fresh := t.fresh }) ∧
  (∀ (j : JigId) (w : Word) (s : State), s.jigRuns j w → fld w 12 4 = 9 → fld w 0 10 = 0 →
    fld w 10 2 = 1 ∨ fld w 10 2 = 2 →
    let x := s.jig[j]
    exec (.jigAt j) s = .next { s with jig := s.jig.set j { x with
      inj := none, stallInj := x.inj.isSome, stall := some (if fld w 10 2 = 1 then .atStrike else .atTick) } }) ∧
  (∀ (j : JigId) (e : Nat) (s : State), s.on → s.jig[j].stall = some (.at e) →
    let x := s.jig[j]
    ∃ t, exec (.jigAtTarget j) s = .next t ∧ t.time.beat = max s.time.beat e ∧
      t.jig = s.jig.set j { x with stall := none, stallInj := false, pc := if x.stallInj then x.pc else x.pc + 1 } ∧
      t = { s with time := t.time, jig := t.jig, host := t.host, ssn := t.ssn })

/-- R249, R252, R255 to R258, R263: the TX and RX words, injection, forcing, the control bits, AT3, program memory and
gates. -/
def Obligations.JigWordsAndControl : Prop :=
  (∀ (j : JigId) (w : Word) (s : State), s.jigRuns j w → w = 0x6000 →
    let x := s.jig[j]
    ∃ t, exec (.jigLoad j) s = .next t ∧
      (x.txFull = true → t.jig[j] = { x with
        inj := none, stallInj := false, sr := x.tx, txFull := false, pc := if x.inj.isSome then x.pc else x.pc + 1 }) ∧
      (x.txFull = false → t.jig[j] = { x with inj := none, stallInj := x.inj.isSome, stall := some .load }) ∧
      t = { s with jig := s.jig.set j t.jig[j] }) ∧
  (∀ (j : JigId) (w : Word) (s : State), s.jigRuns j w → fld w 12 4 = 7 → fld w 2 10 = 0 →
    let x := s.jig[j]
    let next := if x.inj.isSome then x.pc else x.pc + 1
    let sr := if bit w 0 then 0 else x.sr
    ∃ t, exec (.jigStore j) s = .next t ∧
      (x.rxFull = false → t.regs = s.regs ∧
        t.jig[j] = { x with inj := none, stallInj := false, rx := x.sr, rxFull := true, sr := sr, pc := next }) ∧
      (x.rxFull = true → bit w 1 = true → bit (t.reg (jigOff j.val + 4)) 3 = true ∧
        t.jig[j] = { x with inj := none, stallInj := false, sr := sr, pc := next }) ∧
      (x.rxFull = true → bit w 1 = false → t.regs = s.regs ∧
        t.jig[j] = { x with inj := none, stallInj := x.inj.isSome, stall := some (.store (bit w 0)) }) ∧
      (∀ i : JigId, i ≠ j → t.jig[i] = s.jig[i]) ∧ t = { s with jig := t.jig, regs := t.regs, fresh := t.fresh }) ∧
  (∀ (j : JigId) (s : State), s.on → s.jig[j].stall = some .load → s.jig[j].txFull = true →
    let x := s.jig[j]
    exec (.jigWordStallEnd j) s = .next { s with jig := s.jig.set j { x with
      stall := none, stallInj := false, sr := x.tx, txFull := false, pc := if x.stallInj then x.pc else x.pc + 1 } }) ∧
  (∀ (j : JigId) (clr : Bool) (s : State), s.on → s.jig[j].stall = some (.store clr) → s.jig[j].rxFull = false →
    let x := s.jig[j]
    exec (.jigWordStallEnd j) s = .next { s with jig := s.jig.set j { x with
      stall := none, stallInj := false, rx := x.sr, rxFull := true, sr := if clr then 0 else x.sr
      pc := if x.stallInj then x.pc else x.pc + 1 } }) ∧
  (∀ (m : Master) (j : JigId) (v : Word) (s : State), s.writes m (jigOff j.val + 0x18) → s.writes m (jigOff j.val + 0x1A) →
    s.jig[j].txFull = false →
    let t := ({ s with jig := s.jig.set j { s.jig[j] with tx := v, txFull := true } } : State).respond m 0 false
    exec (.jigTxWrite m j v) s = .next t ∧ exec (.jigTxnbWrite m j v) s = .next t) ∧
  (∀ (m : Master) (j : JigId) (v : Word) (s : State), s.writes m (jigOff j.val + 0x18) → s.writes m (jigOff j.val + 0x1A) →
    s.jig[j].txFull = true →
    let t := (s.raise (jigOff j.val + 4) 2).respond m 0 false
    exec (.jigTxnbWrite m j v) s = .next t ∧ (12 ≤ m.val → exec (.jigTxWrite m j v) s = .next t) ∧
      (∀ h ∈ hearthOf m, exec (.jigTxWrite m j v) s = .next (({ s with hearth := s.hearth.set h { s.hearth[h] with
        stall := some (.jigTx j v false) } } : State).respond m 0 false))) ∧
  (∀ (m : Master) (j : JigId) (s : State), s.reads m (jigOff j.val + 0x1C) → s.reads m (jigOff j.val + 0x1E) →
    s.jig[j].rxFull = true →
    let t := ({ s with jig := s.jig.set j { s.jig[j] with rxFull := false } } : State).respond m s.jig[j].rx false
    exec (.jigRxRead m j) s = .next t ∧ exec (.jigRxnbRead m j) s = .next t) ∧
  (∀ (m : Master) (j : JigId) (s : State), s.reads m (jigOff j.val + 0x1C) → s.reads m (jigOff j.val + 0x1E) →
    s.jig[j].rxFull = false →
    let t := (s.raise (jigOff j.val + 4) 4).respond m 0 false
    exec (.jigRxnbRead m j) s = .next t ∧ (12 ≤ m.val → exec (.jigRxRead m j) s = .next t) ∧
      (∀ h ∈ hearthOf m, exec (.jigRxRead m j) s = .next (({ s with hearth := s.hearth.set h { s.hearth[h] with
        stall := some (.jigRx j false) } } : State).respond m 0 false))) ∧
  (∀ (h : HearthId) (j : JigId) (v : Word) (s : State), s.on → s.hearth[h].stall = some (.jigTx j v false) →
    s.jig[j].txFull = false →
    ∃ t, exec (.hearthJigStallEnd h) s = .next t ∧ t.jig = s.jig.set j { s.jig[j] with tx := v, txFull := true } ∧
      t.hearth = s.hearth.set h { s.hearth[h] with stall := none } ∧
      t = { s with jig := t.jig, hearth := t.hearth, resp := t.resp }) ∧
  (∀ (h : HearthId) (j : JigId) (s : State), s.on → s.hearth[h].stall = some (.jigRx j false) → s.jig[j].rxFull = true →
    ∃ t, exec (.hearthJigStallEnd h) s = .next t ∧ t.jig = s.jig.set j { s.jig[j] with rxFull := false } ∧
      t.hearth = s.hearth.set h { s.hearth[h] with stall := none } ∧
      t.resp[hearthMaster h] = { value := s.jig[j].rx, error := false } ∧
      t = { s with jig := t.jig, hearth := t.hearth, resp := t.resp }) ∧
  (∀ (m : Master) (j : JigId) (v : Word) (s : State), s.writes m (jigOff j.val + 0x20) →
    let ok := s.jig[j].en = true ∧ s.jig[j].inj = none
    (ok → exec (.jigInject m j v) s = .next
      (({ s with jig := s.jig.set j { s.jig[j] with inj := some v } } : State).respond m 0 false)) ∧
    (¬ok → exec (.jigInject m j v) s = .next ((s.raise (jigOff j.val + 4) 5).respond m 0 false))) ∧
  (∀ (m : Master) (j : JigId) (v : Word) (s : State), s.writes m (jigOff j.val + 0x22) → s.jig[j].en = true →
    s.jig[j].stall = none ∨ (s.jig[j].stall = some .load ∧ s.jig[j].txFull = false) →
    ∃ t, exec (.jigForce m j v) s = .next t ∧ t.jig[j].inj = some v ∧ t.jig[j].stall = none ∧ t.jig[j].pc = s.jig[j].pc ∧
      t.jig[j].sr = s.jig[j].sr ∧ (s.jig[j].stall ≠ none → bit (t.reg (jigOff j.val + 4)) 8 = true) ∧
      (s.jig[j].inj ≠ none → bit (t.reg (jigOff j.val + 4)) 5 = true) ∧ (∀ i : JigId, i ≠ j → t.jig[i] = s.jig[i]) ∧
      (∀ off, off ≠ jigOff j.val + 4 → t.reg off = s.reg off) ∧
      t = { s with jig := t.jig, regs := t.regs, fresh := t.fresh, resp := t.resp }) ∧
  (∀ (m : Master) (j : JigId) (s : State), s.writes m (jigOff j.val) → s.jig[j].en = false → s.jig[j].clamped = false →
    let overlap := (List.finRange 32).any (fun i => i != j && (s.jig[i].running || s.jig[i].clamped) && s.claimOverlap i.val j.val)
    ∃ t, exec (.jigEnable m j) s = .next t ∧
      (overlap = false → t.jig = s.jig.set j { s.jig[j] with en := true, halted := false }) ∧
      (overlap = true → t.jig = s.jig.set j { s.jig[j] with clamped := true, stall := none } ∧
        bit (t.reg (jigOff j.val + 4)) 11 = true ∧ bit (t.reg 0xF0004) 10 = true) ∧
      t = { s with jig := t.jig, regs := t.regs, fresh := t.fresh, ssn := t.ssn, resp := t.resp }) ∧
  (∀ (m : Master) (j : JigId) (s : State), s.writes m (jigOff j.val) → s.jig[j].en = true →
    ∃ t, exec (.jigDisable m j) s = .next t ∧ t.jig[j].en = false ∧ t.jig[j].stall = none ∧ t.jig[j].inj = none ∧
      t.jig[j].sr = s.jig[j].sr ∧ t.jig[j].ct = s.jig[j].ct ∧ t.jig[j].lines = s.jig[j].lines ∧
      (s.jig[j].stall = none → t.jig[j].pc = s.jig[j].pc) ∧ (∀ i : JigId, i ≠ j → t.jig[i] = s.jig[i]) ∧
      t = { s with jig := t.jig, regs := t.regs, fresh := t.fresh, resp := t.resp }) ∧
  (∀ (m : Master) (j : JigId) (s : State), s.writes m (jigOff j.val) → s.jig[j].en = false →
    ∃ t, exec (.jigRst m j) s = .next t ∧ t.jig[j].pc = 0 ∧ t.jig[j].sr = 0 ∧ t.jig[j].ct = 0 ∧ t.jig[j].txFull = false ∧
      t.jig[j].rxFull = false ∧ t.jig[j].shiftDone = 0 ∧ t.jig[j].paceOrigin = s.time.beat ∧ t.jig[j].en = false ∧
      (∀ l : Fin 8, t.jig[j].lines[l] = { s.jig[j].lines[l] with on := false }) ∧
      (∀ i : JigId, i ≠ j → t.jig[i] = s.jig[i]) ∧
      t = { s with jig := t.jig, regs := t.regs, fresh := t.fresh, resp := t.resp }) ∧
  (∀ (m : Master) (j : JigId) (s : State), s.writes m (jigOff j.val) → s.jig[j].en = true →
    ∃ t, exec (.jigRst m j) s = .next t ∧ t.jig = s.jig ∧ bit (t.reg (jigOff j.val + 4)) 12 = true ∧
      t = { s with regs := t.regs, fresh := t.fresh, resp := t.resp }) ∧
  (∀ (m : Master) (j : JigId) (v : Word) (s : State), s.writes m (jigOff j.val + 0x16) →
    let x := s.jig[j]
    exec (.jigAt3Write m j v) s = .next (({ s with jig := s.jig.set j { x with
      at' := v ++ x.atHeld[2] ++ x.atHeld[1] ++ x.atHeld[0] } } : State).respond m 0 false)) ∧
  (∀ (m : Master) (j : JigId) (i : Fin 64) (v : Word) (s : State), s.writes m (0x81000 + 0x80 * j.val + 2 * i.val) →
    exec (.jigImemWrite m j i v) s = .next ((s.setReg (0x81000 + 0x80 * j.val + 2 * i.val) v).respond m 0 false)) ∧
  (∀ (j : JigId) (s : State), s.on → s.tick.running = true → s.jig[j].gateOpen = false →
    let open' := s.tick.tBeat + s.jigStart s.tick.mode.val j.val
    let cut := open' + s.jigLen s.tick.mode.val j.val - s.jigKerf s.tick.mode.val
    s.jigLen s.tick.mode.val j.val ≠ 0 → max s.time.beat open' < cut →
    ∃ t, exec (.jigGate j) s = .next t ∧ t.time.beat = max s.time.beat open' ∧
      t.jig = s.jig.set j { s.jig[j] with gateOpen := true } ∧
      t = { s with time := t.time, jig := t.jig, host := t.host, ssn := t.ssn }) ∧
  (∀ (j : JigId) (s : State), s.on → s.tick.running = true → s.jig[j].gateOpen = true →
    let open' := s.tick.tBeat + s.jigStart s.tick.mode.val j.val
    let cut := open' + s.jigLen s.tick.mode.val j.val - s.jigKerf s.tick.mode.val
    ∃ t, exec (.jigGate j) s = .next t ∧ t.time.beat = max s.time.beat cut ∧
      t.jig = s.jig.set j { s.jig[j] with gateOpen := false } ∧
      t = { s with time := t.time, jig := t.jig, host := t.host, ssn := t.ssn, regs := t.regs, fresh := t.fresh })
/-! ## Hearth control (11_hearth_architecture.md) -/

/-- R289, R290, R296, R297, R310, R311: start, stop, interrupt and watchdog. -/
def Obligations.HearthStatesAndWatchdog : Prop :=
  (∀ (m : Master) (h : HearthId) (s : State), s.writes m (hrtOff h.val) → s.hearth[h].st = .stopped →
    let kind := fld (s.reg (taskOff s.tick.mode.val h.val)) 0 2
    let ctrl := s.reg (hrtOff h.val) &&& 2 ||| 1
    let tmo := (s.reg (hrtOff h.val + 0x10)).toNat
    ∃ t, exec (.hearthRun m h) s = .next t ∧
      (kind ≠ 2 → t.hearth = s.hearth.set h { s.hearth[h] with st := .idle }) ∧
      (kind = 2 → t.hearth = s.hearth.set h { s.hearth[h] with
        st := .running, pcode := 0x3FF, pc := s.reg (taskOff s.tick.mode.val h.val + 2), res := 1
        wsp := s.reg (hrtOff h.val + 0x14) &&& 0xFFFE, fl := if bit ctrl 1 then 0x80 else 0, cnt := 0, stall := none
        resume := false, rep := [], wdgEnd := if tmo = 0 then none else some (s.time.beat + tmo * 1024)
        wdgTrapped := false }) ∧
      t.reg (hrtOff h.val) = ctrl ∧ (∀ off, off ≠ hrtOff h.val → t.reg off = s.reg off) ∧
      t = { s with hearth := t.hearth, regs := t.regs, resp := t.resp }) ∧
  (∀ (m : Master) (h : HearthId) (s : State), s.writes m (hrtOff h.val) → s.hearth[h].st ≠ .stopped →
    s.hearth[h].st ≠ .clamped →
    ∃ t, exec (.hearthRun m h) s = .next t ∧ t.reg (hrtOff h.val) = s.reg (hrtOff h.val) &&& 2 ||| 1 ∧
      (∀ off, off ≠ hrtOff h.val → t.reg off = s.reg off) ∧ t = { s with regs := t.regs, resp := t.resp }) ∧
  (∀ (m : Master) (h : HearthId) (s : State), s.writes m (hrtOff h.val) → s.hearth[h].st ≠ .clamped →
    ∃ t, exec (.hearthStop m h) s = .next t ∧ t.reg (hrtOff h.val) = s.reg (hrtOff h.val) &&& 2 ∧
      (s.hearth[h].st = .stopped → t.hearth = s.hearth ∧ t.flue = s.flue ∧ t.tick = s.tick) ∧
      (s.hearth[h].st ≠ .stopped → t.hearth = s.hearth.set h { s.hearth[h] with
        st := .stopped, stall := none, resume := false, wdgEnd := none }) ∧
      (∀ g : Fin 64, s.isSender g.val (hearthMaster h) = false → t.flue[g] = s.flue[g]) ∧
      (∀ g : Fin 64, t.flue[g].full = s.flue[g].full ∧ t.flue[g].n0 = s.flue[g].n0 ∧ t.flue[g].n1 = s.flue[g].n1) ∧
      (∀ i : HearthId, i ≠ h → t.tick.tasks[i] = s.tick.tasks[i]) ∧
      (∀ off, off ≠ hrtOff h.val → t.reg off = s.reg off) ∧
      t = { s with
        hearth := t.hearth, flue := t.flue, epoch := t.epoch, hold := t.hold, tick := t.tick, regs := t.regs
        resp := t.resp }) ∧
  (∀ (m : Master) (h : HearthId) (s : State), s.writes m (hrtOff h.val) → s.hearth[h].st = .clamped →
    ∃ t, exec (.hearthRun m h) s = .next t ∧ t.hearth = s.hearth ∧ t = { s with regs := t.regs, resp := t.resp }) ∧
  (∀ (h : HearthId) (s : State), s.on → s.hearth[h].st = .running → s.hearth[h].stall = none → bit s.hearth[h].fl 7 = true →
    bit s.hearth[h].fl 9 = false → s.irqPend (hearthMaster h) &&& s.reg (hrtOff h.val + 0x16) ≠ 0 →
    let x := s.hearth[h]
    exec (.interrupt h) s = .next { s with hearth := s.hearth.set h { x with
      tpc := x.pc, tpcode := x.pcode, tfl := x.fl, tcause := 10, tinfoLo := 0, tinfoHi := 0
      fl := (x.fl ||| 0x300) &&& 0xFF7F, pcode := 0x3FF, pc := 80, stall := none, resume := false, rep := [] } }) ∧
  (∀ (h : HearthId) (s : State), s.on → s.hearth[h].st ≠ .running ∨ bit s.hearth[h].fl 7 = false ∨
    bit s.hearth[h].fl 9 = true ∨ s.irqPend (hearthMaster h) &&& s.reg (hrtOff h.val + 0x16) = 0 →
    exec (.interrupt h) s = .next s) ∧
  (∀ (h : HearthId) (e : Nat) (s : State), s.on → s.hearth[h].st = .running → s.hearth[h].wdgEnd = some e →
    s.hearth[h].wdgTrapped = false → bit s.hearth[h].fl 9 = false →
    let x := s.hearth[h]
    let tmo := (s.reg (hrtOff h.val + 0x10)).toNat
    ∃ t, exec (.watchdogExpiry h) s = .next t ∧ t.time.beat = max s.time.beat e ∧
      t.hearth = s.hearth.set h { x with
        tpc := x.pc, tpcode := x.pcode, tfl := x.fl, tcause := 7, tinfoLo := 0, tinfoHi := 0
        fl := (x.fl ||| 0x300) &&& 0xFF7F, pcode := 0x3FF, pc := 56, stall := none, resume := false, rep := []
        wdgTrapped := true, wdgEnd := if tmo = 0 then none else some (t.time.beat + tmo * 1024) } ∧
      t.reg (hrtOff h.val + 4) = s.reg (hrtOff h.val + 4) ||| 2 ∧
      (∀ off, off ≠ hrtOff h.val + 4 → t.reg off = s.reg off) ∧
      t = { s with time := t.time, hearth := t.hearth, host := t.host, ssn := t.ssn, regs := t.regs, fresh := t.fresh }) ∧
  (∀ (h : HearthId) (e : Nat) (s : State), s.on → s.hearth[h].st = .running → s.hearth[h].wdgEnd = some e →
    s.hearth[h].wdgTrapped = true ∨ bit s.hearth[h].fl 9 = true →
    ∃ t, exec (.watchdogExpiry h) s = .next t ∧ t.time.beat = max s.time.beat e ∧
      t.hearth = s.hearth.set h { s.hearth[h] with st := .halted, stall := none, resume := false, wdgEnd := none } ∧
      t.reg (hrtOff h.val + 4) = s.reg (hrtOff h.val + 4) ||| 4 ∧
      (∀ off, off ≠ hrtOff h.val + 4 → t.reg off = s.reg off) ∧
      t = { s with time := t.time, hearth := t.hearth, host := t.host, ssn := t.ssn, regs := t.regs, fresh := t.fresh }) ∧
  (∀ (m : Master) (h : HearthId) (v : Word) (s : State), s.writes m (hrtOff h.val + 0x12) →
    let tmo := (s.reg (hrtOff h.val + 0x10)).toNat
    let own := m = hearthMaster h ∧ s.hearth[h].st = .running
    (own → exec (.hrtWdgKick m h v) s = .next (({ s with hearth := s.hearth.set h { s.hearth[h] with
      wdgEnd := if tmo = 0 then none else some (s.time.beat + tmo * 1024), wdgTrapped := false } } : State).respond m 0 false)) ∧
    (m ≠ hearthMaster h → exec (.hrtWdgKick m h v) s = .next (s.respond m 0 false)))

/-- R306, R314, R338, R343, R345: access to a hearth that does not run. Where REG_DATA, BENCH_DATA, the entries and the
micro-operations are open, and the rejection elsewhere; that BENCH_IDX stays at a rejected access is the model's choice
(log entry 17). -/
def Obligations.StoppedHearthAccess : Prop :=
  (∀ (m : Master) (h : HearthId) (v : Word) (s : State), s.writes m (hrtOff h.val + 0x22) →
    s.hearth[h].st = .stopped ∨ s.hearth[h].st = .halted ∨ s.hearth[h].st = .clamped →
    let i := fld (s.reg (hrtOff h.val + 0x20)) 0 9
    let x := s.hearth[h]
    ∃ t, exec (.hrtRegData m h (some v)) s = .next t ∧
      (i < 256 → ∀ k, k < 256 → Sparse.get 0 t.hearth[h].phys k = if k = i then v else Sparse.get 0 x.phys k) ∧
      (256 ≤ i → t.hearth[h].phys = x.phys) ∧
      (256 ≤ i → i < 272 → ∀ k, k < 16 → Sparse.get 0 t.hearth[h].flat k = if k + 256 = i then v else Sparse.get 0 x.flat k) ∧
      (i < 256 ∨ 272 ≤ i → t.hearth[h].flat = x.flat) ∧ t.hearth[h].cnt = (if i = 277 then v else x.cnt) ∧
      t.hearth[h].fl = (if i = 278 then (x.fl &&& 0xFF00) ||| (v &&& 0xFF) else x.fl) ∧
      t.hearth[h].pstk = (if i = 275 then v.truncate 10 else x.pstk) ∧ t.hearth[h].pc = x.pc ∧
      t.hearth[h].wsp = (if i = 280 then v &&& 0xFFFE else x.wsp) ∧ t.hearth[h].tpc = (if i = 283 then v else x.tpc) ∧
      (302 ≤ i → t.hearth = s.hearth) ∧ t.hearth = s.hearth.set h t.hearth[h] ∧
      t = { s with hearth := t.hearth, resp := t.resp }) ∧
  (∀ (m : Master) (h : HearthId) (s : State), s.reads m (hrtOff h.val + 0x22) →
    s.hearth[h].st = .stopped ∨ s.hearth[h].st = .halted ∨ s.hearth[h].st = .clamped →
    let i := fld (s.reg (hrtOff h.val + 0x20)) 0 9
    let x := s.hearth[h]
    ∃ t, exec (.hrtRegData m h none) s = .next t ∧ t.resp[m].error = false ∧
      (i < 256 → t.resp[m].value = Sparse.get 0 x.phys i) ∧ (256 ≤ i → i < 272 → t.resp[m].value = Sparse.get 0 x.flat (i - 256)) ∧
      (i = 272 → t.resp[m].value = x.pc) ∧ (i = 278 → t.resp[m].value = x.fl) ∧ (i = 282 → t.resp[m].value = 0x1F10) ∧
      (302 ≤ i → t.resp[m].value = 0) ∧ t = { s with latch := t.latch, resp := t.resp }) ∧
  (∀ (m : Master) (h : HearthId) (s : State), s.reads m (hrtOff h.val + 0x22) → s.reads m (hrtOff h.val + 0x32) →
    s.hearth[h].st = .idle ∨ s.hearth[h].st = .running →
    let t := (s.raise (hrtOff h.val + 4) 6).respond m 0 false
    exec (.hrtRegData m h none) s = .next t ∧ exec (.hrtBenchData m h none) s = .next t) ∧
  (∀ (m : Master) (h : HearthId) (k : Fin 16) (v : Word) (s : State), s.writes m (hrtOff h.val + 0x22) →
    s.writes m (hrtOff h.val + 0x32) → s.writes m (hrtOff h.val + 0x122) → s.writes m (hrtOff h.val + 0x100 + 2 * k.val) →
    s.hearth[h].st = .idle ∨ s.hearth[h].st = .running →
    let t := (s.raise (hrtOff h.val + 4) 6).respond m 0 false
    exec (.hrtRegData m h (some v)) s = .next t ∧ exec (.hrtBenchData m h (some v)) s = .next t ∧
      exec (.ucRead m h) s = .next t ∧ exec (.ucWrite m h) s = .next t ∧ exec (.ciEntryWrite m h k v) s = .next t) ∧
  (∀ (m : Master) (h : HearthId) (v : Word) (s : State), s.writes m (hrtOff h.val + 0x32) →
    s.hearth[h].st = .stopped ∨ s.hearth[h].st = .halted ∨ s.hearth[h].st = .clamped →
    let i := fld (s.reg (hrtOff h.val + 0x30)) 0 13
    ∃ t, exec (.hrtBenchData m h (some v)) s = .next t ∧
      t.hearth = s.hearth.set h { s.hearth[h] with
        bench := Sparse.set 0 s.hearth[h].bench i v, benchEcc := Sparse.set 0 s.hearth[h].benchEcc i 0 } ∧
      (t.reg (hrtOff h.val + 0x30)).toNat = ((s.reg (hrtOff h.val + 0x30)).toNat + 1) % 8192 ∧
      (∀ off, off ≠ hrtOff h.val + 0x30 → t.reg off = s.reg off) ∧
      t = { s with hearth := t.hearth, regs := t.regs, resp := t.resp }) ∧
  (∀ (m : Master) (h : HearthId) (s : State), s.reads m (hrtOff h.val + 0x32) →
    s.hearth[h].st = .stopped ∨ s.hearth[h].st = .halted ∨ s.hearth[h].st = .clamped →
    let i := fld (s.reg (hrtOff h.val + 0x30)) 0 13
    ∃ t, exec (.hrtBenchData m h none) s = .next t ∧ t.resp[m].value = Sparse.get 0 s.hearth[h].bench i ∧
      t.resp[m].error = false ∧ (t.reg (hrtOff h.val + 0x30)).toNat = ((s.reg (hrtOff h.val + 0x30)).toNat + 1) % 8192 ∧
      (∀ off, off ≠ hrtOff h.val + 0x30 → t.reg off = s.reg off) ∧ t = { s with regs := t.regs, resp := t.resp }) ∧
  (∀ (m : Master) (h : HearthId) (s : State), s.writes m (hrtOff h.val + 0x122) →
    s.hearth[h].st = .stopped ∨ s.hearth[h].st = .halted ∨ s.hearth[h].st = .clamped →
    let o := hrtOff h.val + 0x120
    let i := fld (s.reg o) 0 9
    ∃ t, exec (.ucRead m h) s = .next t ∧ (∀ k, k < 3 → t.reg (o + 4 + 2 * k) = Sparse.get 0 s.hearth[h].uops (3 * i + k)) ∧
      (t.reg o).toNat = ((s.reg o).toNat + 1) % 512 ∧
      (∀ off, off ≠ o → off ≠ o + 4 → off ≠ o + 6 → off ≠ o + 8 → t.reg off = s.reg off) ∧
      t = { s with regs := t.regs, resp := t.resp }) ∧
  (∀ (m : Master) (h : HearthId) (s : State), s.writes m (hrtOff h.val + 0x122) →
    s.hearth[h].st = .stopped ∨ s.hearth[h].st = .halted ∨ s.hearth[h].st = .clamped →
    let o := hrtOff h.val + 0x120
    let i := fld (s.reg o) 0 9
    let w0 := s.reg (o + 4)
    let refused := 29 ≤ fld w0 0 5 ∨ fld w0 5 3 = 7 ∨ (fld w0 0 5 = 17 ∧ bit w0 15 = false) ∨
      (fld w0 0 5 = 19 ∧ bit w0 15 = true) ∨ fld (s.reg (o + 8)) 14 2 ≠ 0
    ∃ t, exec (.ucWrite m h) s = .next t ∧
      (¬refused → t.hearth = s.hearth.set h { s.hearth[h] with uops := t.hearth[h].uops, uopEcc := t.hearth[h].uopEcc } ∧
        (∀ k, k < 3 → Sparse.get 0 t.hearth[h].uops (3 * i + k) = s.reg (o + 4 + 2 * k) ∧
          Sparse.get 0 t.hearth[h].uopEcc (3 * i + k) = 0) ∧
        t.reg (hrtOff h.val + 4) = s.reg (hrtOff h.val + 4)) ∧
      (refused → t.hearth = s.hearth ∧ bit (t.reg (hrtOff h.val + 4)) 6 = true) ∧
      (t.reg o).toNat = ((s.reg o).toNat + 1) % 512 ∧
      (∀ off, off ≠ o → off ≠ hrtOff h.val + 4 → t.reg off = s.reg off) ∧
      t = { s with hearth := t.hearth, regs := t.regs, fresh := t.fresh, resp := t.resp }) ∧
  (∀ (m : Master) (h : HearthId) (k : Fin 16) (v : Word) (s : State), s.writes m (hrtOff h.val + 0x100 + 2 * k.val) →
    s.hearth[h].st = .stopped ∨ s.hearth[h].st = .halted ∨ s.hearth[h].st = .clamped →
    exec (.ciEntryWrite m h k v) s = .next ((s.setReg (hrtOff h.val + 0x100 + 2 * k.val) v).respond m 0 false))

/-! ## Hearth instructions (12_hearth_instruction_set.md) -/

/-- R321, R322, R324, R325, R330: ADD, ADC, SUB, SBB, CMP in every form, NEG, INC and DEC. `u` is the state after the fetch,
`v` after the source operand is read, `y` after the destination is written. -/
def Obligations.HearthArithmetic : Prop :=
  (∀ (h : HearthId) (l : List Byte) (u v y : State) (i : HInstr) (d e : Nat) (s : State), s.hearthAt h l u i →
    i.iterates u.hearth[h] → i.op = .add ∨ i.op = .adc → i.pre.atom = false → u.operands h i d e v →
    let n := opBits i.pre.wide
    let c := b2n (i.op == .adc && bit u.hearth[h].fl 0)
    let r := (d + e + c) % 2 ^ n
    v.delivers h i u.hearth[h] r y →
    ∃ t, exec (hearthCmd h i.op) s = .next t ∧
      flagsSet y.hearth[h].fl t.hearth[h].fl (decide (2 ^ n ≤ d + e + c)) (r == 0) (r.testBit (n - 1))
        (d.testBit (n - 1) == e.testBit (n - 1) && r.testBit (n - 1) != d.testBit (n - 1)) ∧
      t = y.ran h l i { y.hearth[h] with fl := t.hearth[h].fl }) ∧
  (∀ (h : HearthId) (l : List Byte) (u v y : State) (i : HInstr) (d e : Nat) (s : State), s.hearthAt h l u i →
    i.iterates u.hearth[h] → i.op = .sub ∨ i.op = .sbb ∨ i.op = .cmp → i.pre.atom = false → u.operands h i d e v →
    let n := opBits i.pre.wide
    let c := b2n (i.op == .sbb && bit u.hearth[h].fl 0)
    let r := (2 ^ n + d - (e + c)) % 2 ^ n
    (i.op = .cmp → y = v) → (i.op ≠ .cmp → v.delivers h i u.hearth[h] r y) →
    ∃ t, exec (hearthCmd h i.op) s = .next t ∧
      flagsSet y.hearth[h].fl t.hearth[h].fl (decide (d < e + c)) (r == 0) (r.testBit (n - 1))
        (d.testBit (n - 1) != e.testBit (n - 1) && r.testBit (n - 1) != d.testBit (n - 1)) ∧
      t = y.ran h l i { y.hearth[h] with fl := t.hearth[h].fl }) ∧
  (∀ (h : HearthId) (l : List Byte) (u : State) (i : HInstr) (a : Reg) (s : State), s.hearthAt h l u i →
    i.iterates u.hearth[h] → i.op = .neg → i.form = .one a →
    let x := u.hearth[h]
    let n := opBits i.pre.wide
    let d := x.operand i.pre.wide a
    let r := (2 ^ n - d) % 2 ^ n
    ∃ t, exec (.neg h) s = .next t ∧
      flagsSet x.fl t.hearth[h].fl (d != 0) (r == 0) (r.testBit (n - 1)) (d == 2 ^ (n - 1)) ∧
      t = u.ran h l i { x.setOperand i.pre.wide a r with fl := t.hearth[h].fl }) ∧
  (∀ (h : HearthId) (l : List Byte) (u : State) (i : HInstr) (a : Reg) (s : State), s.hearthAt h l u i →
    i.iterates u.hearth[h] → i.op = .inc ∨ i.op = .dec → i.form = .one a →
    let x := u.hearth[h]
    let n := opBits i.pre.wide
    let d := x.operand i.pre.wide a
    let r := if i.op = .inc then (d + 1) % 2 ^ n else (d + 2 ^ n - 1) % 2 ^ n
    ∃ t, exec (hearthCmd h i.op) s = .next t ∧
      flagsSet x.fl t.hearth[h].fl (bit x.fl 0) (r == 0) (r.testBit (n - 1))
        (if i.op = .inc then r == 2 ^ (n - 1) else d == 2 ^ (n - 1)) ∧
      t = u.ran h l i { x.setOperand i.pre.wide a r with fl := t.hearth[h].fl })

/-- R306, R319, R321, R322, R330: AND, OR, XOR, TEST, NOT, SXB, ZXB, SWAB, MOV, LEA, MFS and MTS. -/
def Obligations.HearthLogicAndMoves : Prop :=
  (∀ (h : HearthId) (l : List Byte) (u v y : State) (i : HInstr) (d e : Nat) (s : State), s.hearthAt h l u i →
    i.iterates u.hearth[h] → i.op ∈ [HOp.and, .or, .xor, .test] → i.pre.atom = false → u.operands h i d e v →
    let n := opBits i.pre.wide
    let r := if i.op = .or then d ||| e else if i.op = .xor then d ^^^ e else d &&& e
    (i.op = .test → y = v) → (i.op ≠ .test → v.delivers h i u.hearth[h] r y) →
    ∃ t, exec (hearthCmd h i.op) s = .next t ∧
      flagsSet y.hearth[h].fl t.hearth[h].fl false (r == 0) (r.testBit (n - 1)) false ∧
      t = y.ran h l i { y.hearth[h] with fl := t.hearth[h].fl }) ∧
  (∀ (h : HearthId) (l : List Byte) (u : State) (i : HInstr) (a : Reg) (s : State), s.hearthAt h l u i →
    i.iterates u.hearth[h] → i.op ∈ [HOp.not, .sxb, .zxb, .swab] → i.form = .one a →
    let x := u.hearth[h]
    let n := opBits i.pre.wide
    let d := x.operand i.pre.wide a
    let b := d % 256
    let r := if i.op = .not then 2 ^ n - 1 - d else if i.op = .zxb then b else if i.op = .swab then 256 * b + d / 256 else if 128 ≤ b then 0xFF00 + b else b
    ∃ t, exec (hearthCmd h i.op) s = .next t ∧
      (∀ k, k < 16 → bit t.hearth[h].fl k = if k = 1 then r == 0 else if k = 2 then r.testBit (n - 1) else bit x.fl k) ∧
      t = u.ran h l i { x.setOperand i.pre.wide a r with fl := t.hearth[h].fl }) ∧
  (∀ (h : HearthId) (l : List Byte) (u : State) (i : HInstr) (d e : Nat) (a b : Reg) (imm : Word) (s : State), s.hearthAt h l u i →
    i.iterates u.hearth[h] → i.op = .mov → u.operands h i d e u → i.form = .rr a b ∨ i.form = .ri a imm →
    exec (.mov h) s = .next (u.ran h l i (u.hearth[h].setOperand i.pre.wide a e))) ∧
  (∀ (h : HearthId) (l : List Byte) (u : State) (i : HInstr) (r : Reg) (dir sp : Bool) (ptr am : Nat) (k : Word) (s : State),
    s.hearthAt h l u i → i.iterates u.hearth[h] → i.op = .lea → i.form = .mem r dir sp ptr am k →
    let x := u.hearth[h]
    let q := x.get { g := false, code := ptr }
    let off := if am = 0 then q else if am = 3 then k else q + k
    exec (.lea h) s = .next (u.ran h l i (x.put r off))) ∧
  (∀ (h : HearthId) (l : List Byte) (u : State) (i : HInstr) (a : Reg) (n : Nat) (s : State), s.hearthAt h l u i →
    i.iterates u.hearth[h] → i.op = .mfs → i.form = .special a n → n < 17 →
    let x := u.hearth[h]
    let v := [x.pc, x.pcode.zeroExtend 16, x.pdata.zeroExtend 16, x.pstk.zeroExtend 16, x.pxtra.zeroExtend 16, x.cnt, x.fl, BitVec.ofNat 16 (x.base + 32 * x.res), x.wsp, x.wslim, 0x1F10, x.tpc, x.tpcode.zeroExtend 16, x.tfl, x.tcause, x.tinfoLo, x.tinfoHi.zeroExtend 16].getD n 0
    exec (.mfs h) s = .next (u.ran h l i (x.put a v))) ∧
  (∀ (h : HearthId) (l : List Byte) (u : State) (i : HInstr) (a : Reg) (n : Nat) (s : State), s.hearthAt h l u i →
    i.iterates u.hearth[h] → i.op = .mfs → i.form = .special a n → n = 17 ∨ n = 21 ∨ n = 26 →
    let x := u.hearth[h]
    let live := if n = 17 then u.tick.tick else if n = 21 then u.time.tod else u.time.beat
    ∃ t, exec (.mfs h) s = .next t ∧ t = { u.ran h l i (x.put a (BitVec.ofNat 16 live)) with latch := t.latch }) ∧
  (∀ (h : HearthId) (l : List Byte) (u : State) (i : HInstr) (a : Reg) (n : Nat) (s : State), s.hearthAt h l u i →
    i.iterates u.hearth[h] → i.op = .mfs → i.form = .special a n → 17 < n → n ≠ 21 → n ≠ 26 → n < 30 →
    let x := u.hearth[h]
    let off := if n < 21 then 0x20010 + 2 * (n - 17) else if n < 26 then 0x10010 + 2 * (n - 21) else 0x10030 + 2 * (n - 26)
    let live := if n < 21 then wordOf u.tick.tick (n - 17) else if n < 26 then wordOf u.time.tod (n - 21) else wordOf u.time.beat (n - 26)
    exec (.mfs h) s = .next (u.ran h l i (x.put a ((Sparse.get none u.latch (latchKey (hearthMaster h) off)).getD live)))) ∧
  (∀ (h : HearthId) (l : List Byte) (u : State) (i : HInstr) (a : Reg) (n : Nat) (s : State), s.hearthAt h l u i →
    i.iterates u.hearth[h] → i.op = .mts → i.form = .special a n →
    let x := u.hearth[h]
    let v := x.get a
    let res := fld v 5 5
    ∃ t, exec (.mts h) s = .next t ∧
      (n = 0 ∨ n = 10 ∨ 17 ≤ n → t = u.ran h l i x) ∧ (n = 1 → t = u.ran h l i { x with pcode := v.truncate 10 }) ∧
      (n = 2 → t = u.ran h l i { x with pdata := v.truncate 10 }) ∧
      (n = 3 → t = u.ran h l i { x with pstk := v.truncate 10 }) ∧
      (n = 4 → t = u.ran h l i { x with pxtra := v.truncate 10 }) ∧ (n = 5 → t = u.ran h l i { x with cnt := v }) ∧
      (n = 6 → t = u.ran h l i { x with fl := (x.fl &&& 0xFF00) ||| (v &&& 0xFF) }) ∧
      (n = 7 → t = u.ran h l i { x with
        base := if fld v 0 5 = 31 then 30 else fld v 0 5, res := if res = 0 ∨ res = 31 then 30 else res }) ∧
      (n = 8 → t = u.ran h l i { x with wsp := v &&& 0xFFFE }) ∧ (n = 9 → t = u.ran h l i { x with wslim := v }) ∧
      (n = 11 → t = u.ran h l i { x with tpc := v }) ∧ (n = 12 → t = u.ran h l i { x with tpcode := v.truncate 10 }) ∧
      (n = 13 → t = u.ran h l i { x with tfl := v }) ∧ (n = 14 → t = u.ran h l i { x with tcause := v &&& 0xF }) ∧
      (n = 15 → t = u.ran h l i { x with tinfoLo := v }) ∧
      (n = 16 → t = u.ran h l i { x with tinfoHi := v.truncate 10 }))

/-- R322, R324 to R327, R330: MUL, MULHU, MULHS, DIVU, DIVS and the shifts and rotates. -/
def Obligations.HearthMultiplyDivideShift : Prop :=
  (∀ (h : HearthId) (l : List Byte) (u : State) (i : HInstr) (a b : Reg) (s : State), s.hearthAt h l u i →
    i.iterates u.hearth[h] → i.op = .mul → i.form = .rr a b →
    let x := u.hearth[h]
    let p := (x.get a).toNat * (x.get b).toNat
    let q := (x.get a).toInt * (x.get b).toInt
    ∃ t, exec (.mul h) s = .next t ∧
      flagsSet x.fl t.hearth[h].fl (decide (65536 ≤ p)) (p % 65536 == 0) (p.testBit 15)
        (decide (q < -32768) || decide (32767 < q)) ∧
      t = u.ran h l i { x.put a (BitVec.ofNat 16 p) with fl := t.hearth[h].fl }) ∧
  (∀ (h : HearthId) (l : List Byte) (u : State) (i : HInstr) (a b : Reg) (s : State), s.hearthAt h l u i →
    i.iterates u.hearth[h] → i.op = .mulhu ∨ i.op = .mulhs → i.form = .rr a b →
    let x := u.hearth[h]
    let p := if i.op = .mulhu then BitVec.ofNat 32 ((x.get a).toNat * (x.get b).toNat) else BitVec.ofInt 32 ((x.get a).toInt * (x.get b).toInt)
    let r := if i.pre.wide then p.toNat else p.toNat / 65536
    ∃ t, exec (hearthCmd h i.op) s = .next t ∧ flagsSet x.fl t.hearth[h].fl false (r == 0) (p.msb) false ∧
      t = u.ran h l i { x.setOperand i.pre.wide a r with fl := t.hearth[h].fl }) ∧
  (∀ (h : HearthId) (l : List Byte) (u : State) (i : HInstr) (a b : Reg) (s : State), s.hearthAt h l u i →
    i.iterates u.hearth[h] → i.op = .divu → i.form = .rr a b →
    let x := u.hearth[h]
    let d := x.get a
    let e := x.get b
    e ≠ 0 →
    ∃ t, exec (.divu h) s = .next t ∧ flagsSet x.fl t.hearth[h].fl false (d / e == 0) (d / e).msb false ∧
      t = u.ran h l i { (x.put a (d / e)).put { a with code := a.code + 1 } (d % e) with fl := t.hearth[h].fl }) ∧
  (∀ (h : HearthId) (l : List Byte) (u : State) (i : HInstr) (a b : Reg) (s : State), s.hearthAt h l u i →
    i.iterates u.hearth[h] → i.op = .divs → i.form = .rr a b →
    let x := u.hearth[h]
    let d := x.get a
    let e := x.get b
    e ≠ 0 →
    ∃ t, exec (.divs h) s = .next t ∧
      flagsSet x.fl t.hearth[h].fl false (d.sdiv e == 0) (d.sdiv e).msb (d == 0x8000 && e == 0xFFFF) ∧
      t = u.ran h l i { (x.put a (d.sdiv e)).put { a with code := a.code + 1 } (d.srem e) with fl := t.hearth[h].fl }) ∧
  (∀ (h : HearthId) (l : List Byte) (u : State) (i : HInstr) (a b : Reg) (s : State), s.hearthAt h l u i →
    i.iterates u.hearth[h] → i.op = .divu ∨ i.op = .divs → i.form = .rr a b →
    let x := u.hearth[h]
    let d := x.get a
    let q : Word := if i.op = .divu then 0xFFFF else if d.msb then 0x8000 else 0x7FFF
    x.get b = 0 → bit x.fl 6 = false →
    ∃ t, exec (hearthCmd h i.op) s = .next t ∧
      (∀ k, k < 16 → bit t.hearth[h].fl k = if k = 0 ∨ k = 1 ∨ k = 3 then false else if k = 2 then q.msb else if k = 4 then true else bit x.fl k) ∧
      t = u.ran h l i { (x.put a q).put { a with code := a.code + 1 } d with fl := t.hearth[h].fl }) ∧
  (∀ (h : HearthId) (l : List Byte) (u : State) (i : HInstr) (a b : Reg) (s : State), s.hearthAt h l u i →
    i.iterates u.hearth[h] → i.op = .divu ∨ i.op = .divs → i.form = .rr a b → u.hearth[h].get b = 0 →
    bit u.hearth[h].fl 6 = true →
    exec (hearthCmd h i.op) s = .next (u.takeTrap h 2 0 u.hearth[h].pc)) ∧
  (∀ (h : HearthId) (l : List Byte) (u : State) (i : HInstr) (a b : Reg) (n cnt : Nat) (s : State), s.hearthAt h l u i →
    i.iterates u.hearth[h] → i.op ∈ [HOp.shl, .shr, .sar] →
    let x := u.hearth[h]
    let w := opBits i.pre.wide
    let k := cnt % 32
    let d := BitVec.ofNat 32 (x.operand i.pre.wide a)
    i.form = .rr a b ∧ cnt = (x.get b).toNat ∨ i.form = .count a n ∧ cnt = n → k ≠ 0 →
    let sd := if i.pre.wide then d else (d.truncate 16).signExtend 32
    let r := (if i.op = .shl then d <<< k else if i.op = .shr then d >>> k else sd.sshiftRight k).toNat % 2 ^ w
    let c := if w < k then false else if i.op = .shl then d.getLsbD (w - k) else d.getLsbD (k - 1)
    ∃ t, exec (hearthCmd h i.op) s = .next t ∧ flagsSet x.fl t.hearth[h].fl c (r == 0) (r.testBit (w - 1)) false ∧
      t = u.ran h l i { x.setOperand i.pre.wide a r with fl := t.hearth[h].fl }) ∧
  (∀ (h : HearthId) (l : List Byte) (u : State) (i : HInstr) (a b : Reg) (n cnt : Nat) (s : State), s.hearthAt h l u i →
    i.iterates u.hearth[h] → i.op = .rol ∨ i.op = .ror →
    let x := u.hearth[h]
    let w := opBits i.pre.wide
    let k := cnt % w
    let d := x.operand i.pre.wide a
    i.form = .rr a b ∧ cnt = (x.get b).toNat ∨ i.form = .count a n ∧ cnt = n → k ≠ 0 →
    let r := if i.op = .rol then ((BitVec.ofNat w d).rotateLeft k).toNat else ((BitVec.ofNat w d).rotateRight k).toNat
    let c := if i.op = .rol then r.testBit 0 else r.testBit (w - 1)
    ∃ t, exec (hearthCmd h i.op) s = .next t ∧ flagsSet x.fl t.hearth[h].fl c (r == 0) (r.testBit (w - 1)) false ∧
      t = u.ran h l i { x.setOperand i.pre.wide a r with fl := t.hearth[h].fl }) ∧
  (∀ (h : HearthId) (l : List Byte) (u : State) (i : HInstr) (a b : Reg) (n cnt : Nat) (s : State), s.hearthAt h l u i →
    i.iterates u.hearth[h] → i.op ∈ [HOp.shl, .shr, .sar, .rol, .ror] →
    let x := u.hearth[h]
    i.form = .rr a b ∧ cnt = (x.get b).toNat ∨ i.form = .count a n ∧ cnt = n →
    cnt % 32 = 0 ∨ ((i.op = .rol ∨ i.op = .ror) ∧ cnt % opBits i.pre.wide = 0) →
    ∃ t, exec (hearthCmd h i.op) s = .next t ∧
      t = u.ran h l i (x.setOperand i.pre.wide a (x.operand i.pre.wide a)))

/-- R10, R298, R299, R330, R331, R403, R409: loads, stores and exchanges with bank memory, and what a memory operand of
bank memory gives and takes. A word lies at even offset `off` of `page`, the second word of WIDE at `off` + 2 in the same
page. -/
def Obligations.HearthMemory : Prop :=
  (∀ (h : HearthId) (l : List Byte) (u : State) (i : HInstr) (r : Reg) (dir sp : Bool) (ptr am : Nat) (k : Word) (s : State),
    s.hearthAt h l u i → i.iterates u.hearth[h] → i.op = .ld → i.form = .mem r dir sp ptr am k →
    let x := u.hearth[h]
    let page := (x.memAddr i.pre sp ptr am k).1
    let off := (x.memAddr i.pre sp ptr am k).2
    let a : Nat := page * 65536 + off
    let b : Nat := page * 65536 + (off + 2) % 65536
    page < 0x100 → off % 2 = 0 → u.bankServes (hearthMaster h) .read a 2 →
    (i.pre.wide = true → u.bankServes (hearthMaster h) .read b 2) →
    let lo := (Memory.word u.bank.mem a).toNat
    let v := if i.pre.wide then lo + 65536 * (Memory.word u.bank.mem b).toNat else lo
    exec (.ld h) s = .next (u.ran h l i (x.setOperand i.pre.wide r v))) ∧
  (∀ (h : HearthId) (l : List Byte) (u : State) (i : HInstr) (r : Reg) (dir sp : Bool) (ptr am : Nat) (k : Word) (s : State),
    s.hearthAt h l u i → i.iterates u.hearth[h] → i.op = .st → i.pre.atom = false → i.form = .mem r dir sp ptr am k →
    let x := u.hearth[h]
    let page := (x.memAddr i.pre sp ptr am k).1
    let off := (x.memAddr i.pre sp ptr am k).2
    let a : Nat := page * 65536 + off
    let b : Nat := page * 65536 + (off + 2) % 65536
    page < 0x100 → off % 2 = 0 → u.bankServes (hearthMaster h) .write a 2 →
    (i.pre.wide = true → u.bankServes (hearthMaster h) .write b 2) →
    ∃ t, exec (.st h) s = .next t ∧ Memory.word t.bank.mem a = x.get r ∧
      (i.pre.wide = true → Memory.word t.bank.mem b = x.get { r with code := r.code + 1 }) ∧
      (∀ c, c ≠ a → c ≠ a + 1 → (i.pre.wide = true → c ≠ b ∧ c ≠ b + 1) → Memory.byte t.bank.mem c = Memory.byte u.bank.mem c) ∧
      t = { u.ran h l i x with bank := { u.bank with
        mem := t.bank.mem, ecc := t.bank.ecc, writeback := t.bank.writeback, beatW := t.bank.beatW } }) ∧
  (∀ (h : HearthId) (l : List Byte) (u : State) (i : HInstr) (r : Reg) (dir sp : Bool) (ptr am : Nat) (k : Word) (s : State),
    s.hearthAt h l u i → i.iterates u.hearth[h] → i.op = .ldb ∨ i.op = .ldbs → i.form = .mem r dir sp ptr am k →
    let x := u.hearth[h]
    let page := (x.memAddr i.pre sp ptr am k).1
    let a : Nat := page * 65536 + (x.memAddr i.pre sp ptr am k).2
    page < 0x100 → u.bankServes (hearthMaster h) .read (a / 2 * 2) 2 →
    let b := Memory.byte u.bank.mem a
    exec (hearthCmd h i.op) s = .next (u.ran h l i (x.put r (if i.op = .ldb then b.zeroExtend 16 else b.signExtend 16)))) ∧
  (∀ (h : HearthId) (l : List Byte) (u : State) (i : HInstr) (r : Reg) (dir sp : Bool) (ptr am : Nat) (k : Word) (s : State),
    s.hearthAt h l u i → i.iterates u.hearth[h] → i.op = .stb → i.form = .mem r dir sp ptr am k →
    let x := u.hearth[h]
    let page := (x.memAddr i.pre sp ptr am k).1
    let a : Nat := page * 65536 + (x.memAddr i.pre sp ptr am k).2
    page < 0x100 → u.bankServes (hearthMaster h) .write (a / 2 * 2) 2 →
    ∃ t, exec (.stb h) s = .next t ∧ Memory.byte t.bank.mem a = (x.get r).truncate 8 ∧
      (∀ c, c ≠ a → Memory.byte t.bank.mem c = Memory.byte u.bank.mem c) ∧
      t = { u.ran h l i x with bank := { u.bank with
        mem := t.bank.mem, ecc := t.bank.ecc, writeback := t.bank.writeback, beatW := t.bank.beatW } }) ∧
  (∀ (h : HearthId) (l : List Byte) (u : State) (i : HInstr) (r : Reg) (dir sp : Bool) (ptr am : Nat) (k : Word) (s : State),
    s.hearthAt h l u i → i.iterates u.hearth[h] → i.pre.atom = true → i.form = .mem r dir sp ptr am k →
    i.op ∈ [HOp.st, .add, .adc, .sub, .sbb, .and, .or, .xor] →
    let x := u.hearth[h]
    let page := (x.memAddr i.pre sp ptr am k).1
    let off := (x.memAddr i.pre sp ptr am k).2
    let a : Nat := page * 65536 + off
    let b : Nat := page * 65536 + (off + 2) % 65536
    page < 0x100 → off % 2 = 0 → u.bankServes (hearthMaster h) .write a 2 →
    (i.pre.wide = true → u.bankServes (hearthMaster h) .write b 2) →
    let lo := (Memory.word u.bank.mem a).toNat
    let old := if i.pre.wide then lo + 65536 * (Memory.word u.bank.mem b).toNat else lo
    let new := twoAlu i.op (opBits i.pre.wide) old (x.operand i.pre.wide r) (bit x.fl 0)
    ∃ t, exec (hearthCmd h i.op) s = .next t ∧ (Memory.word t.bank.mem a).toNat = new.val % 65536 ∧
      (i.pre.wide = true → (Memory.word t.bank.mem b).toNat = new.val / 65536) ∧
      (∀ c, c ≠ a → c ≠ a + 1 → (i.pre.wide = true → c ≠ b ∧ c ≠ b + 1) → Memory.byte t.bank.mem c = Memory.byte u.bank.mem c) ∧
      t = { u.ran h l i ({ x with fl := new.flags x.fl }.setOperand i.pre.wide r old) with bank := { u.bank with
        mem := t.bank.mem, ecc := t.bank.ecc, writeback := t.bank.writeback, beatW := t.bank.beatW } }) ∧
  (∀ (h : HearthId) (wide : Bool) (page off : Nat) (s : State), off < 65536 → page < 0x100 → off % 2 = 0 →
    let a : Nat := page * 65536 + off
    let b : Nat := page * 65536 + (off + 2) % 65536
    s.bankServes (hearthMaster h) .read a 2 → (wide = true → s.bankServes (hearthMaster h) .read b 2) →
    let lo := (Memory.word s.bank.mem a).toNat
    s.readMem h wide page off = (s, .ok (if wide then lo + 65536 * (Memory.word s.bank.mem b).toNat else lo))) ∧
  (∀ (h : HearthId) (wide : Bool) (page off v : Nat) (s : State), off < 65536 → page < 0x100 → off % 2 = 0 →
    let a : Nat := page * 65536 + off
    let b : Nat := page * 65536 + (off + 2) % 65536
    s.bankServes (hearthMaster h) .write a 2 → (wide = true → s.bankServes (hearthMaster h) .write b 2) →
    let t := (s.writeMem h wide page off v).1
    s.writeMem h wide page off v = (t, .ok ()) ∧ (Memory.word t.bank.mem a).toNat = v % 65536 ∧
      (wide = true → (Memory.word t.bank.mem b).toNat = v / 65536 % 65536) ∧
      (∀ c, c ≠ a → c ≠ a + 1 → (wide = true → c ≠ b ∧ c ≠ b + 1) → Memory.byte t.bank.mem c = Memory.byte s.bank.mem c) ∧
      t = { s with bank := { s.bank with
        mem := t.bank.mem, ecc := t.bank.ecc, writeback := t.bank.writeback, beatW := t.bank.beatW } }) ∧
  (∀ (h : HearthId) (l : List Byte) (u : State) (i : HInstr) (r : Reg) (dir sp : Bool) (ptr am : Nat) (k : Word) (s : State),
    s.hearthAt h l u i → i.iterates u.hearth[h] → i.form = .mem r dir sp ptr am k → i.op ≠ .lea → i.op ≠ .ldb → i.op ≠ .ldbs →
    i.op ≠ .stb →
    let x := u.hearth[h]
    let page := (x.memAddr i.pre sp ptr am k).1
    let off := (x.memAddr i.pre sp ptr am k).2
    off % 2 = 1 → exec (hearthCmd h i.op) s = .next (u.takeTrap h 3 (page * 65536 + off) x.pc)) ∧
  (∀ (h : HearthId) (l : List Byte) (u : State) (i : HInstr) (r : Reg) (dir sp : Bool) (ptr am : Nat) (k : Word) (s : State),
    s.hearthAt h l u i → i.iterates u.hearth[h] → i.form = .mem r dir sp ptr am k → i.pre.atom = true →
    let x := u.hearth[h]
    let page := (x.memAddr i.pre sp ptr am k).1
    let off := (x.memAddr i.pre sp ptr am k).2
    off % 2 = 0 → 0x100 ≤ page → exec (hearthCmd h i.op) s = .next (u.takeTrap h 4 (page * 65536 + off) x.pc))

/-- R328, R334: the block instructions, and an instruction repeated with CNT = 0. -/
def Obligations.HearthBlocksAndRepeat : Prop :=
  (∀ (h : HearthId) (l : List Byte) (u v y : State) (i : HInstr) (a b : Reg) (n : Nat) (s : State), s.hearthAt h l u i →
    i.iterates u.hearth[h] → i.op = .scpy → i.form = .rr a b →
    let x := u.hearth[h]
    let src := match i.pre.page with | none => x.pdata | some 0 => x.pxtra | some 1 => x.pstk | some _ => x.pcode
    u.readMem h i.pre.wide src.toNat (x.get b).toNat = (v, .ok n) →
    v.writeMem h i.pre.wide x.pxtra.toNat (x.get a).toNat n = (y, .ok ()) →
    let z := y.hearth[h]
    let k : Word := if i.pre.wide then 4 else 2
    let z1 := z.put b (z.get b + k)
    exec (.scpy h) s = .next (y.ran h l i (z1.put a (z1.get a + k)))) ∧
  (∀ (h : HearthId) (l : List Byte) (u y : State) (i : HInstr) (a b : Reg) (s : State), s.hearthAt h l u i →
    i.iterates u.hearth[h] → i.op = .sfil → i.form = .rr a b →
    let x := u.hearth[h]
    u.writeMem h i.pre.wide x.pxtra.toNat (x.get a).toNat (x.operand i.pre.wide b) = (y, .ok ()) →
    let z := y.hearth[h]
    let k : Word := if i.pre.wide then 4 else 2
    exec (.sfil h) s = .next (y.ran h l i (z.put a (z.get a + k)))) ∧
  (∀ (h : HearthId) (l : List Byte) (u v y : State) (i : HInstr) (a b : Reg) (d e : Nat) (s : State), s.hearthAt h l u i →
    i.iterates u.hearth[h] → i.op = .scmp → i.form = .rr a b →
    let x := u.hearth[h]
    let n := opBits i.pre.wide
    let src := match i.pre.page with | none => x.pdata | some 0 => x.pxtra | some 1 => x.pstk | some _ => x.pcode
    u.readMem h i.pre.wide src.toNat (x.get b).toNat = (v, .ok d) →
    v.readMem h i.pre.wide x.pxtra.toNat (x.get a).toNat = (y, .ok e) →
    let z := y.hearth[h]
    let k : Word := if i.pre.wide then 4 else 2
    let r := (2 ^ n + d - e) % 2 ^ n
    let z1 := z.put b (z.get b + k)
    ∃ t, exec (.scmp h) s = .next t ∧
      flagsSet z.fl t.hearth[h].fl (decide (d < e)) (r == 0) (r.testBit (n - 1))
        (d.testBit (n - 1) != e.testBit (n - 1) && r.testBit (n - 1) != d.testBit (n - 1)) ∧
      t = y.ran h l i { z1.put a (z1.get a + k) with fl := t.hearth[h].fl }) ∧
  (∀ (h : HearthId) (l : List Byte) (u y : State) (i : HInstr) (a b : Reg) (e : Nat) (s : State), s.hearthAt h l u i →
    i.iterates u.hearth[h] → i.op = .ssrc → i.form = .rr a b →
    let x := u.hearth[h]
    let n := opBits i.pre.wide
    let d := x.operand i.pre.wide b
    u.readMem h i.pre.wide x.pxtra.toNat (x.get a).toNat = (y, .ok e) →
    let z := y.hearth[h]
    let k : Word := if i.pre.wide then 4 else 2
    let r := (2 ^ n + d - e) % 2 ^ n
    ∃ t, exec (.ssrc h) s = .next t ∧
      flagsSet z.fl t.hearth[h].fl (decide (d < e)) (r == 0) (r.testBit (n - 1))
        (d.testBit (n - 1) != e.testBit (n - 1) && r.testBit (n - 1) != d.testBit (n - 1)) ∧
      t = y.ran h l i { z.put a (z.get a + k) with fl := t.hearth[h].fl }) ∧
  (∀ (h : HearthId) (l : List Byte) (u : State) (i : HInstr) (s : State), s.hearthAt h l u i → i.pre.rep ≠ .once →
    i.op ≠ .trap → u.hearth[h].cnt = 0 →
    let x := u.hearth[h]
    exec (hearthCmd h i.op) s = .next { u with hearth := u.hearth.set h { x with
      pc := x.pc + BitVec.ofNat 16 i.len, rep := [], resume := false } })

/-- R302 to R304, R323, R333: transfers, calls and returns in both modes. -/
def Obligations.HearthTransfers : Prop :=
  (∀ (h : HearthId) (l : List Byte) (u : State) (i : HInstr) (cond : Nat) (d : Word) (s : State), s.hearthAt h l u i →
    i.op = .jcc ∨ i.op = .longJump → i.form = .rel cond false d →
    let x := u.hearth[h]
    let next := x.pc + BitVec.ofNat 16 i.len
    exec (hearthCmd h i.op) s = .next { u with hearth := u.hearth.set h { x with
      pc := if condHolds cond x.fl x.cnt then next + d else next, rep := [], resume := false } }) ∧
  (∀ (cond : Nat) (fl cnt : Word),
    let c := bit fl 0
    let z := bit fl 1
    let n := bit fl 2
    let v := bit fl 3
    (cond = 0 → condHolds cond fl cnt = z) ∧ (cond = 2 → condHolds cond fl cnt = c) ∧
      (cond = 4 → condHolds cond fl cnt = n) ∧ (cond = 6 → condHolds cond fl cnt = v) ∧
      (cond = 8 → condHolds cond fl cnt = (!c && !z)) ∧ (cond = 10 → condHolds cond fl cnt = (n == v)) ∧
      (cond = 12 → condHolds cond fl cnt = (!z && n == v)) ∧ (cond = 14 → condHolds cond fl cnt = true) ∧
      (cond = 15 → condHolds cond fl cnt = (cnt != 0)) ∧
      (cond < 14 → cond % 2 = 1 → condHolds cond fl cnt = !condHolds (cond - 1) fl cnt)) ∧
  (∀ (h : HearthId) (l : List Byte) (u : State) (i : HInstr) (a b : Reg) (p : BitVec 10) (o : Word) (s : State), s.hearthAt h l u i →
    let x := u.hearth[h]
    i.op = .jmpr ∧ i.form = .one a ∧ p = x.pcode ∧ o = x.get a ∨
      i.op = .jmpfr ∧ i.form = .rr a b ∧ p = (x.get a).truncate 10 ∧ o = x.get b ∨ i.op = .jmpf ∧ i.form = .far p o →
    exec (hearthCmd h i.op) s = .next { u with hearth := u.hearth.set h { x with
      pcode := p, pc := o, rep := [], resume := false } }) ∧
  (∀ (h : HearthId) (l : List Byte) (u : State) (i : HInstr) (a b : Reg) (d : Word) (far : Bool) (p : BitVec 10) (o : Word) (s : State),
    s.hearthAt h l u i →
    let x := u.hearth[h]
    let next := x.pc + BitVec.ofNat 16 i.len
    i.op = .longJump ∧ i.form = .rel 14 true d ∧ far = false ∧ p = x.pcode ∧ o = next + d ∨
      i.op = .callr ∧ i.form = .one a ∧ far = false ∧ p = x.pcode ∧ o = x.get a ∨
      i.op = .callfr ∧ i.form = .rr a b ∧ far = true ∧ p = (x.get a).truncate 10 ∧ o = x.get b ∨
      i.op = .callf ∧ i.form = .far p o ∧ far = true →
    let y0 := x.put { g := false, code := 15 } next
    let y := if far then y0.put { g := false, code := 14 } (x.pcode.zeroExtend 16) else y0
    let q : Nat := x.pstk.toNat * 65536
    let w := x.wsp.toNat - 16
    ∃ t, exec (hearthCmd h i.op) s = .next t ∧
      (bit x.fl 8 = true → t = { u with hearth := u.hearth.set h { y with pcode := p, pc := o, rep := [], resume := false } }) ∧
      (bit x.fl 8 = false → x.res < 30 → t = { u with hearth := u.hearth.set h { y with
        pcode := p, pc := o, rep := [], resume := false, base := (x.base + 1) % 31, res := x.res + 1 } }) ∧
      (bit x.fl 8 = false → 30 ≤ x.res → x.wsp.toNat < x.wslim.toNat + 16 → t = u.takeTrap h 6 x.wsp.toNat x.pc) ∧
      (bit x.fl 8 = false → 30 ≤ x.res → x.wslim.toNat + 16 ≤ x.wsp.toNat → x.pstk.toNat < 0x100 → w % 2 = 0 →
        u.bankServes (hearthMaster h) .write (q + w) 16 →
        (∀ k, k < 8 → Memory.word t.bank.mem (q + w + 2 * k) = Sparse.get 0 x.phys (8 + 8 * ((x.base + 2) % 31) + k)) ∧
        (∀ c, c < q + w ∨ q + w + 16 ≤ c → Memory.byte t.bank.mem c = Memory.byte u.bank.mem c) ∧
        t = { u with
          hearth := u.hearth.set h { y with
            pcode := p, pc := o, rep := [], resume := false, base := (x.base + 1) % 31, wsp := x.wsp - 16 }
          bank := { u.bank with
            mem := t.bank.mem, ecc := t.bank.ecc, writeback := t.bank.writeback, beatW := t.bank.beatW } })) ∧
  (∀ (h : HearthId) (l : List Byte) (u : State) (i : HInstr) (s : State), s.hearthAt h l u i → i.op = .ret ∨ i.op = .retf →
    let x := u.hearth[h]
    let k := if bit x.fl 8 then 15 else 7
    let y := if i.op = .retf then { x with pcode := (x.get { g := false, code := k - 1 }).truncate 10 } else x
    let o := x.get { g := false, code := k }
    let q : Nat := x.pstk.toNat * 65536 + x.wsp.toNat
    ∃ t, exec (hearthCmd h i.op) s = .next t ∧
      (bit x.fl 8 = true → t = { u with hearth := u.hearth.set h { y with pc := o, rep := [], resume := false } }) ∧
      (bit x.fl 8 = false → 1 < x.res → t = { u with hearth := u.hearth.set h { y with
        pc := o, rep := [], resume := false, base := (x.base + 30) % 31, res := x.res - 1 } }) ∧
      (bit x.fl 8 = false → x.res ≤ 1 → x.wsp = u.reg (hrtOff h.val + 0x14) &&& 0xFFFE →
        t = u.takeTrap h 6 x.wsp.toNat x.pc) ∧
      (bit x.fl 8 = false → x.res ≤ 1 → x.wsp ≠ u.reg (hrtOff h.val + 0x14) &&& 0xFFFE → x.pstk.toNat < 0x100 →
        x.wsp.toNat % 2 = 0 → x.wsp.toNat ≤ 65520 → u.bankServes (hearthMaster h) .read q 16 →
        (∀ n, n < 256 → Sparse.get 0 t.hearth[h].phys n =
          if 8 + 8 * ((x.base + 30) % 31) ≤ n ∧ n < 16 + 8 * ((x.base + 30) % 31) then Memory.word u.bank.mem (q + 2 * (n - (8 + 8 * ((x.base + 30) % 31))))
          else Sparse.get 0 x.phys n) ∧
        t = { u with hearth := u.hearth.set h { y with
          pc := o, rep := [], resume := false, base := (x.base + 30) % 31, wsp := x.wsp + 16
          phys := t.hearth[h].phys } }))

/-- R305, R307, R309, R321, R335, R422 to R424, R430: the system group, TRAP, and the flue instructions. -/
def Obligations.HearthSystemAndFlues : Prop :=
  (∀ (h : HearthId) (l : List Byte) (u : State) (i : HInstr) (s : State), s.hearthAt h l u i →
    i.op ∈ [HOp.nop, .flat, .wind, .ei, .di] →
    let x := u.hearth[h]
    let fl := if i.op = .flat then x.fl ||| 0x100 else if i.op = .wind then x.fl &&& 0xFEFF else if i.op = .ei then x.fl ||| 0x80 else if i.op = .di then x.fl &&& 0xFF7F else x.fl
    exec (hearthCmd h i.op) s = .next { u with hearth := u.hearth.set h { x with
      fl := fl, pc := x.pc + BitVec.ofNat 16 i.len, rep := [], resume := false } }) ∧
  (∀ (h : HearthId) (l : List Byte) (u : State) (i : HInstr) (s : State), s.hearthAt h l u i → i.op = .rett →
    let x := u.hearth[h]
    exec (.rett h) s = .next { u with hearth := u.hearth.set h { x with
      fl := x.tfl &&& 0x3FF, pc := x.tpc, pcode := x.tpcode, rep := [], resume := false } }) ∧
  (∀ (h : HearthId) (l : List Byte) (u : State) (i : HInstr) (v : Word) (s : State), s.hearthAt h l u i → i.op = .trap →
    i.form = .imm v →
    exec (.trap h) s = .next (u.takeTrap h 8 v.toNat (u.hearth[h].pc + BitVec.ofNat 16 i.len))) ∧
  (∀ (h : HearthId) (l : List Byte) (u : State) (i : HInstr) (s : State), s.hearthAt h l u i → i.op = .tend →
    let x := u.hearth[h]
    ∃ t, exec (.tend h) s = .next t ∧
      t.hearth = u.hearth.set h { x with
        st := .idle, wdgEnd := none, wdgTrapped := false, fl := x.fl &&& 0xFDFF
        pc := x.pc + BitVec.ofNat 16 i.len, rep := [], resume := false } ∧
      t.tick.tasks[h] = none ∧
      (∀ k ∈ u.tick.tasks[h], k.release + k.budget ≤ u.time.beat → t.tick.images = u.tick.images ∧
        (k.overrun = false → bit (t.reg 0x20060) h.val = true)) ∧
      (u.tick.tasks[h] = none → t.tick = u.tick ∧ t.regs = u.regs) ∧
      (∀ j : HearthId, j ≠ h → t.tick.tasks[j] = u.tick.tasks[j]) ∧
      t = { u with hearth := t.hearth, tick := t.tick, regs := t.regs, fresh := t.fresh }) ∧
  (∀ (h : HearthId) (l : List Byte) (u : State) (i : HInstr) (a b : Reg) (s : State), s.hearthAt h l u i →
    i.op = .post ∨ i.op = .postw → i.form = .rr a b →
    let x := u.hearth[h]
    let f := Fin.ofNat 64 (fld (x.get b) 0 6)
    u.isSender f.val (hearthMaster h) = true → u.flue[f].full = false →
    ∃ t, exec (hearthCmd h i.op) s = .next t ∧
      t.flue = u.flue.set f { full := true, n0 := x.get a, n1 := x.get { a with code := a.code + 1 }, n2 := u.epochOf (hearthMaster h), p0 := none } ∧
      t.hearth = u.hearth.set h { x with
        fl := x.fl &&& 0xFFFE, pc := x.pc + BitVec.ofNat 16 i.len, rep := [], resume := false } ∧
      t = { u with hearth := t.hearth, flue := t.flue }) ∧
  (∀ (h : HearthId) (l : List Byte) (u : State) (i : HInstr) (a b : Reg) (s : State), s.hearthAt h l u i →
    i.op = .post ∨ i.op = .postw → i.form = .rr a b →
    let x := u.hearth[h]
    let f := Fin.ofNat 64 (fld (x.get b) 0 6)
    u.isSender f.val (hearthMaster h) = true → u.flue[f].full = true →
    ∃ t, exec (hearthCmd h i.op) s = .next t ∧
      (i.op = .post → t.hearth[h] = { x with
        fl := x.fl ||| 1, pc := x.pc + BitVec.ofNat 16 i.len, rep := [], resume := false }) ∧
      (i.op = .postw → t.hearth[h] = { x with stall := some .postw }) ∧
      t = { u with hearth := u.hearth.set h t.hearth[h] }) ∧
  (∀ (h : HearthId) (l : List Byte) (u : State) (i : HInstr) (a b : Reg) (s : State), s.hearthAt h l u i →
    i.op = .post ∨ i.op = .postw → i.form = .rr a b → u.isSender (fld (u.hearth[h].get b) 0 6) (hearthMaster h) = false →
    ∃ t, exec (hearthCmd h i.op) s = .next t ∧ t.hearth[h].st = .clamped ∧
      t.hearth[h].pc = u.hearth[h].pc + BitVec.ofNat 16 i.len ∧ t.hearth[h].phys = u.hearth[h].phys ∧
      (∀ f : Fin 64, t.flue[f].full = u.flue[f].full)) ∧
  (∀ (h : HearthId) (l : List Byte) (u : State) (i : HInstr) (a b : Reg) (s : State), s.on → s.hearth[h].stall = some .postw →
    let s0 := { s with hearth := s.hearth.set h { s.hearth[h] with stall := none } }
    s0.hearthAt h l u i → i.op = .postw → i.form = .rr a b →
    let x := u.hearth[h]
    let f := Fin.ofNat 64 (fld (x.get b) 0 6)
    u.isSender f.val (hearthMaster h) = true → u.flue[f].full = false →
    exec (.postwComplete h) s = .next { u with
      flue := u.flue.set f { full := true, n0 := x.get a, n1 := x.get { a with code := a.code + 1 }, n2 := u.epochOf (hearthMaster h), p0 := none }
      hearth := u.hearth.set h { x with
        fl := x.fl &&& 0xFFFE, pc := x.pc + BitVec.ofNat 16 i.len, rep := [], resume := false } }) ∧
  (∀ (h : HearthId) (l : List Byte) (u : State) (i : HInstr) (a : Reg) (s : State), s.hearthAt h l u i → i.op = .waitdb →
    i.form = .one a →
    let x := u.hearth[h]
    let m := hearthMaster h
    let waits := fun (f : Fin 64) => bit (u.reg (0xD0400 + 16 * h.val + 2 * (f.val / 16))) (f.val % 16)
    let ready := fun (f : Fin 64) => waits f && (u.isReceiver f.val m && u.flue[f].full || u.isSender f.val m && !u.flue[f].full)
    let done := fun (w : Word) => { u with hearth := u.hearth.set h { x.put a w with pc := x.pc + BitVec.ofNat 16 i.len, rep := [], resume := false } }
    ∃ t, exec (.waitdb h) s = .next t ∧
      (∀ f : Fin 64, ready f = true → (∀ g : Fin 64, g < f → ready g = false) → t = done (BitVec.ofNat 16 f.val)) ∧
      ((∀ f : Fin 64, ready f = false) → (∃ f : Fin 64, waits f && (u.isReceiver f.val m || u.isSender f.val m)) →
        t = { u with hearth := u.hearth.set h { x with stall := some .waitdb } }) ∧
      ((∀ f : Fin 64, waits f = true → (u.isReceiver f.val m || u.isSender f.val m) = false) → t = done 0xFFFF)) ∧
  (∀ (h : HearthId) (l : List Byte) (u : State) (i : HInstr) (a : Reg) (f : Fin 64) (s : State), s.on →
    s.hearth[h].stall = some .waitdb →
    let s0 := { s with hearth := s.hearth.set h { s.hearth[h] with stall := none } }
    s0.hearthAt h l u i → i.op = .waitdb → i.form = .one a →
    u.flueReady h f = true → (∀ g : Fin 64, g < f → u.flueReady h g = false) →
    let x := u.hearth[h]
    exec (.waitdbWake h) s = .next { u with hearth := u.hearth.set h { x.put a (BitVec.ofNat 16 f.val) with
      pc := x.pc + BitVec.ofNat 16 i.len, rep := [], resume := false } })

/-- R338 to R341: a customer instruction of one micro-operation, the chapter's bit-field fetch, and UCODE. -/
def Obligations.CustomerInstructions : Prop :=
  (∀ (h : HearthId) (l : List Byte) (u : State) (i : HInstr) (k : Nat) (a b : Reg) (imm : Option Word) (s : State),
    s.hearthAt h l u i → i.iterates u.hearth[h] → i.form = .customer k (some a) (some b) imm →
    let x := u.hearth[h]
    let n := fld (u.reg (hrtOff h.val + 0x100 + 2 * k)) 0 9
    let w0 := Sparse.get 0 x.uops (3 * n)
    let op := fld w0 0 5
    let p := x.get a
    let q := x.get b
    (∀ j, j < 3 → Sparse.get 0 x.uopEcc (3 * n + j) ≠ 2) → w0 &&& 0xFFE0 = 0x8800 → op = 1 ∨ op = 5 ∨ op = 24 ∨ op = 28 →
    let r : Word := if op = 1 then p + q else if op = 5 then p &&& q else if op = 24 then (if p.slt q then p else q) else if p.ult q then q else p
    exec (.customerInstruction h) s = .next (u.ran h l i (x.put a r))) ∧
  (∀ (h : HearthId) (l : List Byte) (u v : State) (i : HInstr) (k m : Nat) (a b : Reg) (imm : Word) (s : State),
    s.hearthAt h l u i → i.iterates u.hearth[h] → i.form = .customer k (some a) (some b) (some imm) →
    let x := u.hearth[h]
    fld (u.reg (hrtOff h.val + 0x100 + 2 * k)) 0 9 = 0x180 →
    (∀ j, j < 9 → Sparse.get 0 x.uops (0x480 + j) = [0x0170, 0, 0, 0x0394, 0x0073, 0, 0xD41B, 0, 0].getD j 0) →
    (∀ j, j < 9 → Sparse.get 0 x.uopEcc (0x480 + j) ≠ 2) → v.hearth = u.hearth →
    u.readMem h false (x.pageOf i.pre x.pdata) (x.get b).toNat = (v, .ok m) →
    let r := BitVec.ofNat 16 (min (m / 8 % 256) imm.toNat)
    ∃ t, exec (.customerInstruction h) s = .next t ∧ flagsSet x.fl t.hearth[h].fl false (r == 0) r.msb false ∧
      t = v.ran h l i { x.put a r with fl := t.hearth[h].fl }) ∧
  (∀ (h : HearthId) (l : List Byte) (u : State) (i : HInstr) (k : Nat) (b : Option Reg) (imm : Option Word) (s : State),
    s.hearthAt h l u i → i.iterates u.hearth[h] → i.form = .customer k none b imm →
    let x := u.hearth[h]
    let n := fld (u.reg (hrtOff h.val + 0x100 + 2 * k)) 0 9
    let w0 := Sparse.get 0 x.uops (3 * n)
    fld w0 0 5 = 0 → fld w0 8 3 = 0 ∨ fld w0 5 3 = 0 →
    exec (.customerInstruction h) s = .next (u.takeTrap h 9 n x.pc)) ∧
  (∀ (h : HearthId) (l : List Byte) (u : State) (i : HInstr) (k : Nat) (a b : Option Reg) (imm : Option Word) (s : State),
    s.hearthAt h l u i → i.iterates u.hearth[h] → i.form = .customer k a b imm →
    let x := u.hearth[h]
    fld (u.reg (hrtOff h.val + 0x100 + 2 * k)) 0 9 = 511 → Sparse.get 0 x.uops 1533 = 0x0752 →
    exec (.customerInstruction h) s = .next (u.takeTrap h 9 511 x.pc))

/-- R292, R308, R309, R336: bytes that are no instruction trap, and what taking a trap does. -/
def Obligations.HearthTraps : Prop :=
  (∀ (h : HearthId) (l : List Byte) (u : State) (s : State), s.on → s.hearth[h].st = .running → s.hearth[h].stall = none →
    s.fetchInstr h = (u, .ok l) → u.hdec h l = .error .illegal →
    exec (.illegalOpcode h) s = .next (u.takeTrap h 0 0 s.hearth[h].pc)) ∧
  (∀ (h : HearthId) (l : List Byte) (u : State) (s : State), s.on → s.hearth[h].st = .running → s.hearth[h].stall = none →
    s.fetchInstr h = (u, .ok l) → u.hdec h l = .error .illpfx →
    exec (.illegalOpcode h) s = .next (u.takeTrap h 1 0 s.hearth[h].pc)) ∧
  (∀ (h : HearthId) (s : State), s.on → s.hearth[h].st = .running → s.hearth[h].stall = none → s.hearth[h].rep = [] →
    let x := s.hearth[h]
    let page := x.pcode.toNat
    0x100 ≤ page → page ≠ 0x3FF ∨ 0x4000 ≤ x.pc.toNat →
    exec (.illegalOpcode h) s = .next (s.takeTrap h 5 (page * 65536 + x.pc.toNat) x.pc)) ∧
  (∀ (h : HearthId) (v info : Nat) (pc : Word) (s : State), bit s.hearth[h].fl 9 = false ∨ v = 7 →
    let x := s.hearth[h]
    s.takeTrap h v info pc = { s with hearth := s.hearth.set h { x with
      tpc := pc, tpcode := x.pcode, tfl := x.fl, tcause := BitVec.ofNat 16 v, tinfoLo := BitVec.ofNat 16 info
      tinfoHi := BitVec.ofNat 10 (info / 65536), fl := (x.fl ||| 0x300) &&& 0xFF7F, pcode := 0x3FF
      pc := BitVec.ofNat 16 (8 * v), stall := none, resume := false, rep := [] } }) ∧
  (∀ (h : HearthId) (v info : Nat) (pc : Word) (s : State), bit s.hearth[h].fl 9 = true → v ≠ 7 →
    let t := s.takeTrap h v info pc
    t.reg (hrtOff h.val + 4) = s.reg (hrtOff h.val + 4) ||| 1 ∧
      (∀ off, off ≠ hrtOff h.val + 4 → t.reg off = s.reg off) ∧
      t = { s with
        hearth := s.hearth.set h { s.hearth[h] with st := .halted, stall := none, resume := false, wdgEnd := none }
        regs := t.regs, fresh := t.fresh })

/-! ## Motion unit (13_motion_unit.md) -/

/-- R349, R357, R358, R362, R364, R365, R367, R368: encoder edges, gears, steps and converter samples. -/
def Obligations.EncodersGearsAndSteps : Prop :=
  (∀ (x : AxisId) (a b idx : Bool) (s : State), s.on → s.mastered x = [] →
    let o := s.mot.axes[x]
    let da := a != o.filtA
    let db := b != o.filtB
    let up := (da && a != b) || (db && a == b)
    let enc := if da == db then o.enc else if up then o.enc + 1 else o.enc - 1
    ∃ t, exec (.encoderEdge x a b idx) s = .next t ∧
      t.mot = { s.mot with axes := s.mot.axes.set x { o with
        filtA := a, filtB := b, filtI := idx, enc := enc, encErr := o.encErr || (da && db)
        encIdx := if idx && !o.filtI then enc else o.encIdx } } ∧
      (da = true → db = true → bit (t.reg (motOff x.val + 4)) 3 = true) ∧
      (idx = true → o.filtI = false → bit (t.reg (motOff x.val + 4)) 4 = true) ∧
      (¬(da = true ∧ db = true) → ¬(idx = true ∧ o.filtI = false) → t.regs = s.regs) ∧
      (∀ off, off ≠ motOff x.val + 4 → t.reg off = s.reg off) ∧
      t = { s with mot := t.mot, regs := t.regs, fresh := t.fresh }) ∧
  (∀ (x y : AxisId) (a b : Bool) (g : Fin 6) (p : Int) (s : State), s.on → s.mastered x = [g] → y ≠ x →
    s.mot.groups[g].armedA = none → s.mot.groups[g].armedB = none → s.mot.groups[g].p0 = [(y.val, some p)] →
    s.mot.axes[y].mode = 3 → s.mfld (motOff y.val) 6 3 = g.val → s.mot.axes[y].frozen = false →
    let o := s.mot.axes[x]
    let d := s.mot.groups[g]
    a ≠ o.filtA → b = o.filtB →
    let enc := if a != b then o.enc + 1 else o.enc - 1
    ∃ t, exec (.encoderEdge x a b s.mot.axes[x].filtI) s = .next t ∧ t.mot.axes[x].enc = enc ∧
      t.mot.axes[y].posx = (p + (enc - d.e0).toInt * d.num * 256 / (d.den : Int)) * 32768 ∧
      t.mot.groups = s.mot.groups ∧ (∀ z : AxisId, z ≠ x → z ≠ y → t.mot.axes[z] = s.mot.axes[z]) ∧
      t.mot.axes[x] = { o with filtA := a, enc := enc } ∧ t = { s with mot := t.mot }) ∧
  (∀ (x y : AxisId) (a b : Bool) (g : Fin 6) (p : Int) (e : Sched) (s : State), s.on → s.mastered x = [g] → y ≠ x →
    s.mot.groups[g].armedA = some e → s.mot.groups[g].armedB = none → s.mot.groups[g].p0 = [(y.val, some p)] →
    s.mot.axes[y].mode = 3 → s.mfld (motOff y.val) 6 3 = g.val → s.mot.axes[y].frozen = false → 0 < e.den →
    let o := s.mot.axes[x]
    let d := s.mot.groups[g]
    a ≠ o.filtA → b = o.filtB → e.sw = (if a != b then o.enc + 1 else o.enc - 1) →
    let q := p + (e.sw - d.e0).toInt * d.num * 256 / (d.den : Int)
    ∃ t, exec (.encoderEdge x a b s.mot.axes[x].filtI) s = .next t ∧
      t.mot.groups = s.mot.groups.set g { d with
        p0 := [(y.val, some q)], e0 := e.sw, num := e.num, den := e.den, armedA := none, doneA := true } ∧
      t.mot.axes[y].posx = q * 32768 ∧ bit (t.reg (motGrp g.val + 0xC)) 0 = true ∧
      (∀ z : AxisId, z ≠ x → z ≠ y → t.mot.axes[z] = s.mot.axes[z]) ∧
      (∀ off, off ≠ motGrp g.val + 0xC → t.reg off = s.reg off) ∧
      t = { s with mot := t.mot, regs := t.regs, fresh := t.fresh }) ∧
  (∀ (x : AxisId) (dir : Bool) (s : State), s.on → s.mot.axes[x].mode = 2 → s.mot.axes[x].stopped = .none →
    let a := s.mot.axes[x]
    let c := min 10 (fld (Sparse.get 0 s.mot.par (motOff x.val)) 2 4)
    let w : Int := 2 ^ (16 - c) * 32768
    let n := 1024 / 2 ^ c
    let lim := 16 * max 1 (Sparse.get 0 s.mot.par (motOff x.val + 0x24)).toNat
    ∃ t, exec (.externalStep x dir) s = .next t ∧ t.mot.axes[x].posx = (if dir then a.posx + w else a.posx - w) ∧
      t.mot.axes[x].m = a.mTarget ∧ t.mot.axes[x].mTarget = (if dir then a.mTarget + n else a.mTarget - n) ∧
      t.mot.axes[x].mDelta = min lim (s.time.beat - a.stepBeat) ∧ t.mot.axes[x].mFrom = s.time.beat ∧
      t.mot.axes[x].stepBeat = s.time.beat ∧ t.mot.axes[x].mCount = n ∧ t.mot.axes[x].mDone = 0 ∧ t.mot.axes[x].mUp = dir ∧
      t.mot.axes[x].enc = a.enc ∧ (∀ z : AxisId, z ≠ x → t.mot.axes[z] = s.mot.axes[z]) ∧ t.mot.groups = s.mot.groups ∧
      t = { s with mot := { s.mot with axes := t.mot.axes } }) ∧
  (∀ (x : AxisId) (dir : Bool) (s : State), s.on → s.mot.axes[x].mode ≠ 2 ∨ s.mot.axes[x].stopped ≠ .none →
    exec (.externalStep x dir) s = .next s) ∧
  (∀ (x : AxisId) (due : Nat) (up : Bool) (r : List (Nat × Bool)) (s : State), s.on → s.mot.axes[x].steps = (due, up) :: r →
    (∀ e ∈ r, e.1 ≠ due) →
    let a := s.mot.axes[x]
    let n := 1024 / 2 ^ min 10 (fld (Sparse.get 0 s.mot.par (motOff x.val)) 2 4)
    ∃ t, exec (.coarseStep x) s = .next t ∧ t.time.beat = max s.time.beat due ∧ t.mot.axes[x].steps = r ∧
      t.mot.axes[x].m = a.mTarget ∧ t.mot.axes[x].mTarget = (if up then a.mTarget + n else a.mTarget - n) ∧
      t.mot.axes[x].mFrom = t.time.beat ∧ t.mot.axes[x].mCount = n ∧ t.mot.axes[x].mDone = 0 ∧
      t.mot.axes[x].posx = a.posx ∧ (∀ z : AxisId, z ≠ x → t.mot.axes[z] = s.mot.axes[z]) ∧
      t = { s with time := t.time, host := t.host, ssn := t.ssn, mot := { s.mot with axes := t.mot.axes } }) ∧
  (∀ (x : AxisId) (s : State), s.on → s.mot.axes[x].mDone < s.mot.axes[x].mCount →
    let a := s.mot.axes[x]
    ∃ t, exec (.microstep x) s = .next t ∧
      t.time.beat = max s.time.beat (a.mFrom + (a.mDone + 1) * a.mDelta / a.mCount) ∧
      t.mot.axes[x].m = (if a.mUp then a.m + 1 else a.m - 1) ∧ t.mot.axes[x].mDone = a.mDone + 1 ∧
      t.mot.axes[x].mTarget = a.mTarget ∧ t.mot.axes[x].posx = a.posx ∧
      (∀ z : AxisId, z ≠ x → t.mot.axes[z] = s.mot.axes[z]) ∧
      t = { s with time := t.time, host := t.host, ssn := t.ssn, mot := { s.mot with axes := t.mot.axes } }) ∧
  (∀ (c : Fin 4) (sample : BitVec 12) (s : State), s.on → bit (s.reg 0xA0F00) 0 = true →
    let e := if s.mot.convs[c].last < s.time.beat / 128 * 128 then s.time.beat / 128 * 128 else s.time.beat / 128 * 128 + 128
    let k := (e / 128 + 7) % 8
    ∃ t, exec (.converterSlot c sample) s = .next t ∧ t.time.beat = max s.time.beat e ∧ t.mot.convs[c].last = e ∧
      (k = 7 → s.mot.convs[c].round.length = 7 →
        t.mot.convs[c].rounds = (s.mot.convs[c].round ++ [sample.toInt]) :: s.mot.convs[c].rounds.take 15) ∧
      (0 < k → k < 7 → s.mot.convs[c].round.length = k → t.mot.convs[c].round = s.mot.convs[c].round ++ [sample.toInt] ∧
        t.mot.convs[c].rounds = s.mot.convs[c].rounds) ∧
      (∀ x : AxisId, x.val = 3 * c.val + k / 2 → k < 6 →
        fld (Sparse.get 0 s.mot.par (motOff x.val + 0x10)) 0 11 < sample.toInt.natAbs →
        t.mot.axes[x].oc = true ∧ bit (t.reg (motOff x.val + 4)) 1 = true) ∧
      (6 ≤ k → t.mot.axes = s.mot.axes ∧ t.regs = s.regs) ∧ (∀ d : Fin 4, d ≠ c → t.mot.convs[d] = s.mot.convs[d]) ∧
      t = { s with
        time := t.time, host := t.host, ssn := t.ssn, mot := { s.mot with axes := t.mot.axes, groups := t.mot.groups, convs := t.mot.convs }
        regs := t.regs, fresh := t.fresh })

/-- R348, R354, R355, R359 to R361, R363: an update: its beat, the profile, the current loops and the set points that take
effect. The current loop is stated of the command and the measured current that the update itself takes. -/
def Obligations.MotionUpdates : Prop :=
  (∀ (s : State), s.on → bit (s.reg 0xA0F00) 0 = true →
    s.mot.strike = none ∨ (s.mot.count ≤ s.mot.update ∧ s.tick.running = false) →
    ∃ t, exec .motionUpdate s = .next t ∧ t.time.beat = max s.time.beat (s.mot.updBeat + 16384) ∧
      t.mot.updBeat = t.time.beat ∧ t.mot.update = s.mot.update + 1 ∧
      (∀ off, 0xA0000 ≤ off → off < 0xA2000 → Sparse.get 0 t.mot.par off = Sparse.get 0 s.regs off) ∧
      t = { s with
        time := t.time, host := t.host, ssn := t.ssn, mot := t.mot, free := t.free, regs := t.regs, fresh := t.fresh }) ∧
  (∀ (b : Nat) (s : State), s.on → bit (s.reg 0xA0F00) 0 = true → s.mot.strike = some b → s.mot.update < s.mot.count →
    ∃ t, exec .motionUpdate s = .next t ∧ t.time.beat = max s.time.beat (b + 512 + 16384 * s.mot.update) ∧
      t.mot.update = s.mot.update + 1 ∧
      t = { s with
        time := t.time, host := t.host, ssn := t.ssn, mot := t.mot, free := t.free, regs := t.regs, fresh := t.fresh }) ∧
  (∀ (x : AxisId) (s : State), s.on → bit (s.reg 0xA0F00) 0 = true → s.mot.strike = none → s.mot.axes[x].mode = 1 →
    s.mot.axes[x].oc = false → s.mot.axes[x].frozen = false → (∀ z : AxisId, s.mot.axes[z].spNext = none) →
    (∀ g : Fin 6, s.mot.groups[g].spNext = none) →
    let a := s.mot.axes[x]
    let p := a.sp
    let rem := p.target * 32768 - a.posx
    let vs := min (s.pair (motOff x.val + 0x20)) p.vmax
    let behind := 0 < a.v ∧ ¬(if a.dir then 0 < rem else rem < 0)
    let dir := if a.v = 0 then decide (0 < rem) else a.dir
    let brakes := rem.natAbs ≤ (a.v * a.v / (131072 * p.dec) + a.v / 32768) * 32768
    let v := if behind then a.v - 2 * p.dec else if brakes then max (a.v - 2 * p.dec) vs else if a.v < p.vmax then min (a.v + 2 * p.acc) p.vmax else max (a.v - 2 * p.dec) p.vmax
    let reach := (if dir then 0 < rem else rem < 0) ∧ rem.natAbs ≤ v
    ∃ t, exec .motionUpdate s = .next t ∧
      (t.mot.axes[x].stopped = .none → rem = 0 → a.v = 0 → t.mot.axes[x].posx = a.posx ∧ t.mot.axes[x].v = 0 ∧
        t.mot.axes[x].atTarget = true ∧ (a.atTarget = false → bit (t.reg (motOff x.val + 4)) 8 = true)) ∧
      (t.mot.axes[x].stopped = .none → ¬(rem = 0 ∧ a.v = 0) → t.mot.axes[x].atTarget = false ∧ t.mot.axes[x].dir = dir ∧
        t.mot.axes[x].v = (if reach then 0 else v) ∧
        t.mot.axes[x].posx = if reach then p.target * 32768 else if dir then a.posx + v else a.posx - v)) ∧
  (∀ (x : AxisId) (s : State), s.on → bit (s.reg 0xA0F00) 0 = true → s.mot.strike = none →
    s.mot.spBeat = none →
    let o := motOff x.val
    let c := s.mot.convs[convOf x]
    let dmax : Int := min 16384 (s.reg (o + 0x16)).toNat
    ∃ t, exec .motionUpdate s = .next t ∧
      (let a := t.mot.axes[x]
       let on := a.mode ≠ 0 ∧ a.oc = false ∧ a.stopped ≠ .free
       let th := ((if bit (s.reg o) 1 then -a.m else a.m) % 4096).toNat
       let tbl := fun (i : Nat) => ((s.reg (0xA1000 + 2 * i)).toNat : Int)
       let fa := [tbl (1024 - th % 1024), -tbl (th % 1024), -tbl (1024 - th % 1024), tbl (th % 1024)].getD (th / 1024) 0
       let e := Int.tdiv (a.iSet * fa) 65536 - a.ia
       let integ := clip (-dmax) dmax (s.mot.axes[x].integA + (s.reg (o + 0x14)).toNat * e / 4096)
       (on → a.integA = integ ∧ a.dutyA = clip (-dmax) dmax ((s.reg (o + 0x12)).toNat * e / 256 + integ) ∧
         a.nowA = s.mot.axes[x].dutyA) ∧ (¬on → a.integA = 0 ∧ a.dutyA = 0 ∧ a.nowA = 0)) ∧
      (64 ≤ t.mot.axes[x].still ∨ s.mot.axes[x].frozen = true → t.mot.axes[x].iSet = fld (s.reg (o + 8)) 0 11) ∧
      (t.mot.axes[x].still < 64 → s.mot.axes[x].frozen = false → t.mot.axes[x].iSet =
        min (fld (s.reg (o + 0xA)) 0 11 + (s.reg (o + 0xE)).toNat * t.mot.axes[x].lagF / 256)
          (max (fld (s.reg (o + 0xC)) 0 11) (fld (s.reg (o + 0xA)) 0 11))) ∧
      (c.rounds.length < 16 → t.mot.axes[x].ia = Config.earlyCurrent (24 * s.free + 2 * x.val)) ∧
      (c.rounds.length = 16 → t.mot.axes[x].ia = (c.sum (2 * (x.val % 3)) - c.sum 6) / 16)) ∧
  (∀ (x : AxisId) (b : Nat) (new : AxisSp) (s : State), s.on → bit (s.reg 0xA0F00) 0 = true → s.mot.strike = none →
    s.mot.spBeat = some b → b ≤ s.time.beat → s.mot.axes[x].spNext = some new → new.clr = false →
    let a := s.mot.axes[x]
    let moving := 0 < a.v ∨ a.steps ≠ [] ∨ a.mDone < a.mCount
    ∃ t, exec .motionUpdate s = .next t ∧
      (t.mot.axes[x].stopped = .none → t.mot.axes[x].sp = new) ∧ t.mot.axes[x].spNext = none ∧
      (t.mot.axes[x].stopped ≠ .none → t.mot.axes[x].sp = { a.sp with clr := false } ∧ t.mot.axes[x].mode = a.mode) ∧
      (t.mot.axes[x].stopped = .none → new.mode = 0 ∨ ¬moving ∨ new.mode = a.mode → t.mot.axes[x].mode = new.mode) ∧
      (t.mot.axes[x].stopped = .none → new.mode ≠ 0 → moving → new.mode ≠ a.mode → t.mot.axes[x].mode = a.mode ∧
        t.mot.axes[x].modeRej = true ∧ bit (t.reg (motOff x.val + 4)) 5 = true)) ∧
  (∀ (x : AxisId) (b : Nat) (g : Fin 6) (new : GroupSp) (s : State), s.on → bit (s.reg 0xA0F00) 0 = true →
    s.mot.strike = none → s.mot.spBeat = some b → b ≤ s.time.beat → s.mot.groups[g].spNext = some new → new.en = true →
    s.mot.groups[g].sp.en = false → new.arm = false → new.clr = false → fld (s.reg (motGrp g.val)) 0 4 = x.val →
    (∀ z : AxisId, s.mot.axes[z].spNext = none) →
    let still := ∀ z : AxisId, s.mot.axes[z].v = 0 ∧ s.mot.axes[z].steps = [] ∧ s.mot.axes[z].mCount ≤ s.mot.axes[z].mDone
    let rides := fun (z : AxisId) => s.mot.axes[z].mode = 3 ∧ fld (s.reg (motOff z.val)) 6 3 = g.val
    ∃ t, exec .motionUpdate s = .next t ∧
      (t.mot.groups[g].stopped = false → still → t.mot.groups[g].engaged = true ∧ t.mot.groups[g].e0 = s.mot.axes[x].enc ∧
        t.mot.groups[g].num = new.num ∧ t.mot.groups[g].den = new.den ∧
        (∀ z : AxisId, rides z → Sparse.get none t.mot.groups[g].p0 z.val = some (s.mot.axes[z].posx / 32768)) ∧
        (∀ z : AxisId, ¬rides z → Sparse.get none t.mot.groups[g].p0 z.val = none)) ∧
      (∀ z : AxisId, rides z → s.mot.axes[z].mDone < s.mot.axes[z].mCount → t.mot.axes[z].stopped = .none →
        t.mot.groups[g].stopped = false → t.mot.groups[g].engRej = true ∧ bit (t.reg (motGrp g.val + 0xC)) 3 = true))

/-! ## Field inputs and outputs (14_field_io.md) -/

/-- R375 to R379, R381: recognised levels, the edge FIFO, open wires and the latch. -/
def Obligations.FieldInputs : Prop :=
  (∀ (i : Fin 32) (level : Bool) (s : State), s.on → s.fio.lost = false → s.fio.inputs[i].level ≠ level →
    s.fio.loBeat ≠ some s.time.beat → s.fio.hiBeat ≠ some s.time.beat →
    let x := s.fio.inputs[i]
    let cfg := Sparse.get 0 s.fio.cfg (0xB0100 + 2 * i.val)
    let filt := min 11 (fld cfg 1 4)
    let f := if filt = 0 then 0 else 2 ^ (filt + 5)
    let counts := fld cfg 5 2 = 2 ∨ (fld cfg 5 2 = 0 ∧ level = true) ∨ (fld cfg 5 2 = 1 ∧ level = false)
    let stamps := bit cfg (if level then 8 else 9) = true
    let tod := (s.time.todx - f * s.time.rate) / 2 ^ 45
    let e : FEdge := { input := i, rising := level, tod := BitVec.ofNat 80 tod, beat := s.time.beat }
    ∃ t, exec (.inputRecognised i level) s = .next t ∧ t.fio.inputs = s.fio.inputs.set i { x with
        level := level, cnt := if counts then x.cnt + 1 else x.cnt, open' := x.open' && !level
        rises := if level && bit cfg 7 then x.rises ++ [s.time.beat - f] else x.rises } ∧
      (stamps → s.fio.fifo.length < 64 → t.fio.fifo = s.fio.fifo ++ [e]) ∧
      (stamps → 64 ≤ s.fio.fifo.length → t.fio.fifo = s.fio.fifo ∧ bit (t.reg 0xB0004) 11 = true) ∧
      (¬stamps → t.fio.fifo = s.fio.fifo) ∧ t.fio.outputs = s.fio.outputs ∧
      (bit (s.reg 0xB0000) 0 = false → t.bank = s.bank) ∧
      t = { s with
        fio := t.fio, bank := t.bank, regs := t.regs, fresh := t.fresh, time := t.time, host := t.host, ssn := t.ssn }) ∧
  (∀ (i : Fin 32) (level : Bool) (s : State), s.on → s.fio.lost = true ∨ s.fio.inputs[i].level = level →
    exec (.inputRecognised i level) s = .next s) ∧
  (∀ (i : Fin 32) (level : Bool) (a : Nat) (s : State), s.on → s.fio.lost = false → s.fio.inputs[i].level ≠ level → i.val < 16 →
    s.fio.loBeat ≠ some s.time.beat → s.fio.hiBeat ≠ some s.time.beat → bit (s.reg 0xB0000) 0 = true → s.fio.inSpan = true →
    s.imgBase s.fioImage s.jnr.side = a → a % 2 = 0 → s.bankServes 21 .write a 2 →
    ∃ t, exec (.inputRecognised i level) s = .next t ∧
      (∀ j : Fin 32, j.val < 16 → bit (Memory.word t.bank.mem a) j.val = if j = i then level else s.fio.inputs[j].level) ∧
      (∀ c, c ≠ a → c ≠ a + 1 → Memory.byte t.bank.mem c = Memory.byte s.bank.mem c)) ∧
  (∀ (m : Master) (e : FEdge) (r : List FEdge) (s : State), s.reads m 0xB0032 → s.fio.fifo = e :: r →
    ∃ t, exec (.fioTsRead m) s = .next t ∧ t.resp[m].error = false ∧ t.resp[m].value = e.tod.truncate 16 ∧
      (∀ k, 1 ≤ k → k < 5 → t.latched m (0xB0032 + 2 * k) 0 = wordOf e.tod.toNat k) ∧
      t.latched m 0xB0030 0 = BitVec.ofNat 16 (e.input.val + if e.rising then 32 else 0) ∧
      ((∀ p ∈ s.fio.spill, p.1 ≠ s.time.beat) → t.fio.fifo = r ∧ t.regs = s.regs) ∧
      (∀ p ∈ s.fio.spill, p.1 = s.time.beat → t.fio.fifo = r ++ [p.2.1]) ∧
      t = { s with
        fio := { s.fio with fifo := t.fio.fifo, spill := t.fio.spill }, latch := t.latch, regs := t.regs
        fresh := t.fresh, resp := t.resp }) ∧
  (∀ (m : Master) (s : State), s.reads m 0xB0032 → s.fio.fifo = [] →
    ∃ t, exec (.fioTsRead m) s = .next t ∧ t.resp[m].value = 0 ∧ t = { s with latch := t.latch, resp := t.resp }) ∧
  (∀ (i : Fin 32) (s : State), s.on → s.fio.lost = false → bit (Sparse.get 0 s.fio.cfg (0xB0100 + 2 * i.val)) 10 = true →
    let o : Nat := if i.val < 16 then 0xB001E else 0xB0020
    ∃ t, exec (.inputOpenWire i) s = .next t ∧ bit (t.reg o) (i.val % 16) = true ∧ bit (t.reg 0xB0004) 10 = true ∧
      (∀ off, off ≠ o → off ≠ 0xB0004 → t.reg off = s.reg off) ∧
      t = { s with
        fio := { s.fio with inputs := s.fio.inputs.set i { s.fio.inputs[i] with open' := true } }, regs := t.regs
        fresh := t.fresh }) ∧
  (∀ (i : Fin 32) (rb : Word) (s : State), s.on → s.fio.lost = false → bit (Sparse.get 0 s.fio.cfg (0xB0100 + 2 * i.val)) 7 = true →
    let x := s.fio.inputs[i]
    let n := x.rises.length
    let last := x.rises.getLast?.getD 0
    ∃ t, exec (.fieldLatch rb) s = .next t ∧ t.fio.rb = rb ∧
      (∀ t0 ∈ x.t0, 1 ≤ n → t.fio.inputs[i] = { x with
        period := BitVec.ofNat 32 (min 0xFFFFFFFF (roundEven ((last : Int) - t0) n).toNat), noEdge := false, t0 := some last
        rises := [] }) ∧
      (x.t0 = none → 2 ≤ n → t.fio.inputs[i] = { x with
        period := BitVec.ofNat 32 (min 0xFFFFFFFF (roundEven ((last : Int) - x.rises.headD 0) (n - 1)).toNat), noEdge := false
        t0 := some last, rises := [] }) ∧
      (n = 0 ∨ (x.t0 = none ∧ n = 1) → t.fio.inputs[i] = { x with noEdge := true }) ∧ t.fio.fifo = s.fio.fifo ∧
      (∀ j : Fin 16, t.fio.outputs[j] = { s.fio.outputs[j] with stuckNow := s.fio.outputs[j].stuckNow && bit rb j.val }) ∧
      t = { s with
        fio := t.fio, bank := t.bank, regs := t.regs, fresh := t.fresh, time := t.time, host := t.host, ssn := t.ssn })

/-- R373, R386 to R388, R391, R392, R394: the switches of the outputs, their diagnostics, latches and releases. -/
def Obligations.FieldOutputs : Prop :=
  (∀ (j : Fin 16) (s : State), s.on → s.fio.lost = false → s.fio.outputs[j].on = true →
    s.fio.outputs[j].changed = 0 ∨ s.fio.outputs[j].changed + 2048 ≤ s.time.beat →
    let x := s.fio.outputs[j]
    let off := { x with on := false, changed := s.time.beat, openNow := false, stuckNow := false }
    ∃ t, exec (.overload j) s = .next t ∧ t.fio = { s.fio with outputs := s.fio.outputs.set j { off with ovl := true } } ∧
      t.reg 0xB0004 = s.reg 0xB0004 ||| 0x20 ∧ (∀ off, off ≠ 0xB0004 → t.reg off = s.reg off) ∧
      t = { s with fio := t.fio, regs := t.regs, fresh := t.fresh }) ∧
  (∀ (j : Fin 16) (s : State), s.on → s.fio.lost = false → s.fio.outputs[j].on = true →
    s.fio.outputs[j].changed = 0 ∨ s.fio.outputs[j].changed + 2048 ≤ s.time.beat →
    let x := s.fio.outputs[j]
    let off := { x with on := false, changed := s.time.beat, openNow := false, stuckNow := false }
    ∃ t, exec (.channelOvertemp j) s = .next t ∧ t.fio = { s.fio with outputs := s.fio.outputs.set j { off with otc := true } } ∧
      t.reg 0xB0004 = s.reg 0xB0004 ||| 0x40 ∧ (∀ off, off ≠ 0xB0004 → t.reg off = s.reg off) ∧
      t = { s with fio := t.fio, regs := t.regs, fresh := t.fresh }) ∧
  (∀ (j : Fin 16) (s : State), s.on → s.fio.outputs[j].changed ≠ 0 → s.fio.outputs[j].changed < s.time.beat →
    s.time.beat < s.fio.outputs[j].changed + 2048 →
    exec (.overload j) s = .next s ∧ exec (.channelOvertemp j) s = .next s ∧ exec (.openLoadOn j) s = .next s ∧
      exec (.openLoadOff j) s = .next s ∧ exec (.stuckHigh j) s = .next s) ∧
  (∀ (j : Fin 16) (s : State), s.on → s.fio.lost = false → s.fio.outputs[j].changed + 2048 ≤ s.time.beat →
    s.fio.outputs[j].on = true → fld (Sparse.get 0 s.fio.cfg (0xB0140 + 2 * j.val)) 3 2 ≠ 0 →
    ∃ t, exec (.openLoadOn j) s = .next t ∧ bit (t.reg 0xB0018) j.val = true ∧ bit (t.reg 0xB0004) 7 = true ∧
      t.fio = { s.fio with outputs := s.fio.outputs.set j { s.fio.outputs[j] with openNow := true } } ∧
      (∀ off, off ≠ 0xB0018 → off ≠ 0xB0004 → t.reg off = s.reg off) ∧
      t = { s with fio := t.fio, regs := t.regs, fresh := t.fresh }) ∧
  (∀ (j : Fin 16) (s : State), s.on → s.fio.lost = false → s.fio.outputs[j].changed + 2048 ≤ s.time.beat →
    s.fio.outputs[j].on = false → bit (Sparse.get 0 s.fio.cfg (0xB0140 + 2 * j.val)) 2 = true →
    ∃ t, exec (.openLoadOff j) s = .next t ∧ bit (t.reg 0xB001A) j.val = true ∧ bit (t.reg 0xB0004) 8 = true ∧
      t.fio = { s.fio with outputs := s.fio.outputs.set j { s.fio.outputs[j] with openNow := true } } ∧
      (∀ off, off ≠ 0xB001A → off ≠ 0xB0004 → t.reg off = s.reg off) ∧
      t = { s with fio := t.fio, regs := t.regs, fresh := t.fresh }) ∧
  (∀ (j : Fin 16) (s : State), s.on → s.fio.lost = false → s.fio.outputs[j].changed + 2048 ≤ s.time.beat →
    s.fio.outputs[j].on = false →
    ∃ t, exec (.stuckHigh j) s = .next t ∧ bit (t.reg 0xB001C) j.val = true ∧ bit (t.reg 0xB0004) 9 = true ∧
      t.fio = { s.fio with outputs := s.fio.outputs.set j { s.fio.outputs[j] with stuckNow := true } } ∧
      (∀ off, off ≠ 0xB001C → off ≠ 0xB0004 → t.reg off = s.reg off) ∧
      t = { s with fio := t.fio, regs := t.regs, fresh := t.fresh }) ∧
  (∀ (s : State), s.on → s.fio.lost = false → s.fio.dieOt = false →
    ∃ t, exec .dieOvertemp s = .next t ∧ t.fio.dieOt = true ∧ t.reg 0xB0004 = s.reg 0xB0004 ||| 0x10 ∧
      (s.fio.order = none → t.fio.order = some (s.time.beat, (List.finRange 16).map s.outRank)) ∧
      (s.fio.order ≠ none → t.fio.order = s.fio.order) ∧ (∀ off, off ≠ 0xB0004 → t.reg off = s.reg off) ∧
      t = { s with fio := { s.fio with dieOt := true, order := t.fio.order }, regs := t.regs, fresh := t.fresh }) ∧
  (∀ (j : Fin 16) (s : State),
    s.outRank j = if j.val = 15 then 15 else fld (Sparse.get 0 s.fio.cfg (0xB0026 + 2 * (j.val / 4))) (4 * (j.val % 4)) 4) ∧
  (∀ (s : State), s.on → s.fio.lost = false → s.fio.dieOt = true →
    ∃ t, exec .dieOtClear s = .next t ∧
      (∀ j : Fin 16, t.fio.outputs[j] = if bit (Sparse.get 0 s.fio.cfg (0xB0140 + 2 * j.val)) 1 then { s.fio.outputs[j] with wait := some s.time.beat }
        else { s.fio.outputs[j] with rearm := true }) ∧
      t = { s with fio := { s.fio with dieOt := false, outputs := t.fio.outputs } }) ∧
  (∀ (rank : Fin 16) (c : Nat) (ranks : List Nat) (s : State), s.on → s.fio.order = some (c, ranks) →
    ∃ t, exec (.cutoffRank rank) s = .next t ∧ t.time.beat = max s.time.beat (c + 512 * rank.val) ∧
      (∀ j : Fin 16, t.fio.outputs[j] = if ranks.getD j.val 15 = rank.val ∧ s.fio.outputs[j].on = true then { s.fio.outputs[j] with on := false, changed := t.time.beat, openNow := false, stuckNow := false }
        else s.fio.outputs[j]) ∧
      t.fio.order = (if rank.val = 15 then none else s.fio.order) ∧
      t = { s with
        fio := { s.fio with outputs := t.fio.outputs, order := t.fio.order }, time := t.time, host := t.host, ssn := t.ssn }) ∧
  (∀ (m : Master) (v gone : Word) (s : State), s.writes m 0xB0022 →
    ∃ t, exec (.fioOutRetry m v gone) s = .next t ∧
      (∀ j : Fin 16, t.fio.outputs[j] = if bit v j.val && bit gone j.val && (s.fio.outputs[j].ovl || s.fio.outputs[j].otc) then { s.fio.outputs[j] with ovl := false, otc := false, wait := some s.time.beat }
        else s.fio.outputs[j]) ∧
      t = { s with fio := { s.fio with outputs := t.fio.outputs }, resp := t.resp }) ∧
  (∀ (m : Master) (v : Word) (s : State), s.writes m 0xB0024 →
    ∃ t, exec (.fioOutRearm m v) s = .next t ∧ (s.fio.cut = true → bit (t.reg 0xB0004) 12 = true ∧ t.fio = s.fio) ∧
      (s.fio.cut = false → t.regs = s.regs ∧ ∀ j : Fin 16, t.fio.outputs[j] = if bit v j.val && s.fio.outputs[j].rearm then { s.fio.outputs[j] with rearm := false, wait := some s.time.beat }
        else s.fio.outputs[j]) ∧
      (∀ off, off ≠ 0xB0004 → t.reg off = s.reg off) ∧
      t = { s with fio := { s.fio with outputs := t.fio.outputs }, regs := t.regs, fresh := t.fresh, resp := t.resp }) ∧
  (∀ (m : Master) (en : Bool) (s : State), s.writes m 0xB0000 →
    ∃ t, exec (.fioCtrlEn m en) s = .next t ∧ t.reg 0xB0000 = (if en then 1 else 0) ∧ t.fio.en = en ∧
      (en = true → t.fio.outputs = s.fio.outputs) ∧ (en = false → ∀ j : Fin 16, t.fio.outputs[j].on = false) ∧
      (∀ off, off ≠ 0xB0000 → t.reg off = s.reg off) ∧
      t = { s with fio := { s.fio with en := en, outputs := t.fio.outputs }, regs := t.regs, resp := t.resp })

/-- R372, R389 to R393: the field supply and the link. -/
def Obligations.FieldSupplyAndLink : Prop :=
  (∀ (mv : Nat) (s : State), s.on → s.fio.lost = false →
    let e := if s.fio.vfBeat < s.time.beat / 256 * 256 then s.time.beat / 256 * 256 else s.time.beat / 256 * 256 + 256
    let b := max s.time.beat e
    let sagEnds := ∀ f ∈ s.fio.sagOk, b < f + 4194304
    ∃ t, exec (.vfSample mv) s = .next t ∧ t.time.beat = b ∧ t.fio.vf = min 255 (mv / 125) ∧
      (mv < 18000 → 3 ≤ s.fio.sagRun → s.fio.sag = false → t.fio.sag = true ∧ bit (t.reg 0xB0004) 0 = true ∧
        ∀ j : Fin 16, s.outShed j = true → t.fio.outputs[j].on = false) ∧
      (18000 ≤ mv → sagEnds → t.fio.sag = s.fio.sag) ∧
      (18500 ≤ mv → (∃ f ∈ s.fio.sagOk, f + 4194304 ≤ b) → t.fio.sag = false ∧
        ∀ j : Fin 16, s.fio.sag = true → s.outShed j = true → s.fio.cut = false → t.fio.outputs[j].wait = some b) ∧
      (30000 < mv → 3 ≤ s.fio.highRun → t.fio.vfHigh = true) ∧ (mv < 16800 → t.fio.supplyInv = true ∧ t.fio.cut = s.fio.cut) ∧
      (16800 ≤ mv → (∃ f ∈ s.fio.good, f + 4194304 ≤ b) → t.fio.supplyInv = false ∧ t.fio.cut = false ∧
        (s.fio.cut = true → bit (t.reg 0xB0004) 2 = true ∧
          ∀ j : Fin 16, bit (Sparse.get 0 s.fio.cfg (0xB0140 + 2 * j.val)) 1 = false → t.fio.outputs[j].rearm = true)) ∧
      t = { s with
        fio := t.fio, time := t.time, host := t.host, ssn := t.ssn, jnr := t.jnr, regs := t.regs, fresh := t.fresh }) ∧
  (∀ (s : State), s.on → s.fio.lost = false →
    ∃ t, exec .cutOff s = .next t ∧ t.fio.cut = true ∧ t.fio.supplyInv = true ∧ t.fio.good = none ∧
      (s.fio.cut = false → bit (t.reg 0xB0004) 1 = true) ∧
      (s.fio.cut = false → s.fio.order = none → t.fio.order = some (s.time.beat, (List.finRange 16).map s.outRank)) ∧
      (s.fio.cut = true ∨ s.fio.order ≠ none → t.fio.order = s.fio.order) ∧ t.fio.outputs = s.fio.outputs ∧
      t.fio.inputs = s.fio.inputs ∧ t = { s with fio := t.fio, jnr := t.jnr, regs := t.regs, fresh := t.fresh }) ∧
  (∀ (s : State), s.on → s.fio.lost = false →
    ∃ t, exec .fieldLinkLoss s = .next t ∧ t.fio.linkOk = false ∧ t.fio.lost = true ∧ t.fio.en = false ∧ t.fio.cfg = [] ∧
      t.fio.order ≠ none ∧ bit (t.reg 0xB0004) 3 = true ∧
      (∀ k, k < 48 → t.reg (0xB0100 + 2 * k) = 0) ∧ (∀ k, k < 4 → t.reg (0xB0026 + 2 * k) = 0) ∧
      (∀ off, off < 0xB0000 → off < 0x30000 ∨ 0x40000 ≤ off → t.reg off = s.reg off) ∧ t.fio.inputs = s.fio.inputs ∧
      t.fio.outputs = s.fio.outputs ∧ t = { s with fio := t.fio, jnr := t.jnr, regs := t.regs, fresh := t.fresh }) ∧
  (∀ (s : State), s.on →
    exec .fieldLinkRestored s = .next { s with fio := { s.fio with linkOk := true, lost := false } }) ∧
  (∀ (mv : Nat) (s : State), s.on → s.fio.lost = true →
    ∃ t, exec (.vfSample mv) s = .next t ∧ t.fio = s.fio ∧ exec .cutOff s = .next s ∧ exec .fieldLinkLoss s = .next s)

/-! ## Memory banks (15_memory_banks.md) -/

/-- R399, R403, R404, R406, R409: who may access a bank, the aliases, a single error, and two accesses to one word in one
beat. `memRead` and `memWrite` are every master's accesses below 0x300_0000. -/
def Obligations.BankAccesses : Prop :=
  (∀ (m : Master) (b : Fin 64) (s : State),
    let owner := fld (s.reg (0xC0000 + 16 * b.val)) 0 5 = m.val
    let inR := (s.pair (0xC0002 + 16 * b.val)).testBit m.val = true
    let inG := (s.pair (0xC0006 + 16 * b.val)).testBit m.val = true
    (s.bankPermits m b .read = true ↔ owner ∨ inR) ∧ (s.bankPermits m b .fetch = true ↔ owner ∨ inR) ∧
      (s.bankPermits m b .write = true ↔ owner) ∧ (s.bankPermits m b .aliased = true ↔ owner ∨ inG)) ∧
  (∀ (m : Master) (a : Nat) (s : State), a < 0x3000000 →
    let x := a % 0x1000000 / 2 * 2
    s.bankServes m .read x 2 → s.memRead m a .read = (s, .ok (Memory.word s.bank.mem x))) ∧
  (∀ (m : Master) (a : Nat) (sel : ByteSel) (v : Word) (s : State), a < 0x3000000 →
    let x := a % 0x1000000 / 2 * 2
    let k := if a < 0x1000000 then BKind.write else .aliased
    let mask : Word := if sel = .word then 0xFFFF else if sel = .low then 0xFF else 0xFF00
    let old := Memory.word s.bank.mem x
    let t := (s.memWrite m a sel v).1
    s.bankServes m k x 2 →
    Memory.word t.bank.mem x = (if a < 0x1000000 then (old &&& ~~~mask) ||| (v &&& mask) else if a < 0x2000000 then old ||| (v &&& mask) else old &&& ~~~(v &&& mask)) ∧
      s.memWrite m a sel v = (t, .ok old) ∧
      (∀ c, c ≠ x → c ≠ x + 1 → Memory.byte t.bank.mem c = Memory.byte s.bank.mem c) ∧
      t = { s with bank := { s.bank with
        mem := t.bank.mem, ecc := t.bank.ecc, writeback := t.bank.writeback, beatW := t.bank.beatW } }) ∧
  (∀ (m : Master) (a : Nat) (s : State), a < 0x1000000 → a % 2 = 0 → s.bankPermits m (bankIdx a) .read = true →
    s.bank.banks[bankIdx a].asleep = false → Sparse.get 0 s.bank.ecc a = 2 →
    let r := s.memRead m a .read
    r.2 = .err ∧ bit (r.1.reg 0xC0500) 1 = true ∧ r.1.bank.log.eccAddr = BitVec.ofNat 26 a ∧ r.1.bank.mem = s.bank.mem) ∧
  (∀ (m o : Master) (a : Nat) (v old w : Word) (s : State), a < 0x1000000 → a % 2 = 0 →
    (m.val < 12 ∧ 12 ≤ o.val) ∨ (12 ≤ m.val ∧ o.val < 12) → s.bank.beatW = [{ beat := s.time.beat, addr := a, master := o, old := old }] →
    Sparse.get 0 s.bank.ecc a = 0 → s.bankPermits m (bankIdx a) .aliased = true → s.bank.banks[bankIdx a].asleep = false →
    s.bankPermits m (bankIdx a) .read = true → Memory.word s.bank.mem a = w →
    let owner := fld (s.reg (0xC0000 + 16 * (a / 0x40000))) 0 5
    let wins := owner = m.val ∨ (owner ≠ o.val ∧ m.val < o.val)
    let r := s.memWrite m (a + 0x1000000) .word v
    (s.memRead m a .read).2 = .ok old ∧ (wins → Memory.word r.1.bank.mem a = old ||| v ∧ bit (r.1.reg (0xC0400 + 4 * o.val)) 0 = true) ∧
      (¬wins → Memory.word r.1.bank.mem a = w ∧ bit (r.1.reg (0xC0400 + 4 * m.val)) 0 = true ∧ r.1.bank = s.bank))

/-- R400 to R402, R407, R409: violations, handover, ember, and the write-back of a corrected word. -/
def Obligations.BankControl : Prop :=
  (∀ (m : Master) (b : Fin 64) (v : Word) (s : State), s.writes m (0xC0000 + 16 * b.val) →
    let controls := fld (s.reg (0xC0000 + 16 * b.val)) 0 5 = m.val ∨ s.isSup m = true
    let o := fld v 0 5
    ∃ t, exec (.bnkOwnerWrite m b v) s = .next t ∧
      (¬controls ∨ 21 < o → bit (t.reg 0xC0500) 4 = true ∧ t.bank = s.bank ∧ t.reg (0xC0000 + 16 * b.val) = s.reg (0xC0000 + 16 * b.val)) ∧
      (controls → o ≤ 21 → m.val ≠ 15 ∨ s.inRun = true → t.regs = s.regs ∧
        t.bank = { s.bank with banks := s.bank.banks.set b { s.bank.banks[b] with handover := some (Fin.ofNat 22 o, m) } }) ∧
      (controls → o ≤ 21 → m.val = 15 → s.inRun = false → t.bank = s.bank ∧ (t.reg (0xC0000 + 16 * b.val)).toNat = o) ∧
      (∀ off, off ≠ 0xC0500 → off ≠ 0xC0000 + 16 * b.val → t.reg off = s.reg off) ∧
      t = { s with bank := t.bank, regs := t.regs, fresh := t.fresh, resp := t.resp }) ∧
  (∀ (b : Fin 64) (new m : Master) (s : State), s.on → s.bank.banks[b].handover = some (new, m) → s.ownerWaits b = false →
    (∀ h : HearthId, s.hearth[h].stall ≠ some (.handover b)) →
    (∀ n : Fin 4, s.host[n].queue = []) →
    ∃ t, exec (.handoverEffect b) s = .next t ∧ (t.reg (0xC0000 + 16 * b.val)).toNat = new.val ∧
      (∀ off, off ≠ 0xC0000 + 16 * b.val → t.reg off = s.reg off) ∧
      t = { s with
        bank := { s.bank with banks := s.bank.banks.set b { s.bank.banks[b] with handover := none } }, regs := t.regs }) ∧
  (∀ (m : Master) (b : Fin 64) (s : State), s.writes m (0xC000A + 16 * b.val) →
    fld (s.reg (0xC0000 + 16 * b.val)) 0 5 = m.val ∨ s.isSup m = true →
    ∃ t, exec (.emberRequest m b) s = .next t ∧ t.reg (0xC000A + 16 * b.val) = s.reg (0xC000A + 16 * b.val) &&& 3 ||| 1 ∧
      (s.bank.banks[b].asleep = false → t.bank = { s.bank with
        banks := s.bank.banks.set b { s.bank.banks[b] with asked := true } }) ∧
      (s.bank.banks[b].asleep = true → t.bank = s.bank) ∧ (∀ off, off ≠ 0xC000A + 16 * b.val → t.reg off = s.reg off) ∧
      t = { s with bank := t.bank, regs := t.regs, resp := t.resp }) ∧
  (∀ (b : Fin 64) (s : State), s.on → s.bank.banks[b].asked = true →
    exec (.emberEntry b) s = .next { s with bank := { s.bank with
      banks := s.bank.banks.set b { s.bank.banks[b] with asked := false, asleep := true } } }) ∧
  (∀ (m : Master) (b : Fin 64) (s : State), s.writes m (0xC000A + 16 * b.val) →
    fld (s.reg (0xC0000 + 16 * b.val)) 0 5 = m.val ∨ s.isSup m = true →
    let x := s.bank.banks[b]
    ∃ t, exec (.emberWake m b) s = .next t ∧ t.reg (0xC000A + 16 * b.val) = s.reg (0xC000A + 16 * b.val) &&& 2 ∧
      (x.asleep = true → x.waking = none → t.bank.banks[b] = { x with asked := false, waking := some (s.time.beat + 4096) } ∧
        bit (t.reg 0xC0500) 5 = true) ∧
      (x.asleep = false ∨ x.waking ≠ none → t.bank.banks[b] = { x with asked := false } ∧ t.reg 0xC0500 = s.reg 0xC0500) ∧
      (∀ c : Fin 64, c ≠ b → t.bank.banks[c] = s.bank.banks[c]) ∧
      (∀ off, off ≠ 0xC000A + 16 * b.val → off ≠ 0xC0500 → t.reg off = s.reg off) ∧
      t = { s with bank := { s.bank with banks := t.bank.banks }, regs := t.regs, fresh := t.fresh, resp := t.resp }) ∧
  (∀ (b : Fin 64) (due : Nat) (s : State), s.on → s.bank.banks[b].waking = some due →
    (∀ h : HearthId, ∀ k ∈ s.hearth[h].stall, k = .postw ∨ k = .waitdb) → (∀ n : Fin 4, s.host[n].waits = none) →
    ∃ t, exec (.wakeComplete b) s = .next t ∧ t.time.beat = max s.time.beat due ∧
      t.bank = { s.bank with banks := s.bank.banks.set b { s.bank.banks[b] with asleep := false, waking := none } } ∧
      t = { s with bank := t.bank, time := t.time, host := t.host, ssn := t.ssn }) ∧
  (∀ (b : Fin 64) (a : Nat) (r : List Nat) (s : State), s.on → s.bank.writeback = a :: r → bankIdx a = b →
    ∃ t, exec (.eccWriteback b) s = .next t ∧ Sparse.get 0 t.bank.ecc a = 0 ∧ t.bank.mem = s.bank.mem ∧
      (∀ c, c ≠ a → Sparse.get 0 t.bank.ecc c = Sparse.get 0 s.bank.ecc c) ∧ t.bank.writeback = r.filter (fun y => y != a) ∧
      t = { s with bank := t.bank }) ∧
  (∀ (m : Master) (a : Nat) (sel : ByteSel) (v : Word) (s : State), a < 0x3000000 →
    s.bankPermits m (bankIdx (a % 0x1000000 / 2 * 2)) (if a < 0x1000000 then .write else .aliased) = false →
    let r := s.memWrite m a sel v
    r.1.bank.mem = s.bank.mem ∧ r.1.bank.log.violAddr = BitVec.ofNat 26 a ∧ bit (r.1.reg 0xC0500) 2 = true ∧
      (∀ h : HearthId, m = hearthMaster h → r.2 = .viol ∧ r.1.hearth[h].st = .clamped) ∧
      (∀ n : Fin 4, m = hostMaster n → r.2 = .viol ∧ r.1.host[n].fenced = true) ∧
      (hearthOf m = none → hostOf m = none → r.2 = .err ∧ bit r.1.bank.log.violInfo 7 = true ∧ r.1.hearth = s.hearth)) ∧
  (∀ (m : Master) (a : Nat) (s : State), a < 0x1000000 → a % 2 = 0 → s.bankPermits m (bankIdx a) .read = true →
    s.bank.banks[bankIdx a].asleep = true → s.bank.banks[bankIdx a].waking = none →
    let auto := bit (s.reg (0xC000A + 16 * (bankIdx a).val)) 1
    let r := s.memRead m a .read
    (auto = true → r.2 = .wait (bankIdx a) ∧ r.1.bank.banks[bankIdx a].waking = some (s.time.beat + 4096) ∧
      bit (r.1.reg 0xC0500) 5 = true) ∧
    (auto = false → r.2 = .err ∧ bit (r.1.reg 0xC0500) 3 = true ∧ r.1.bank = s.bank))

/-! ## Hosts and flues (16_hosts_and_flues.md) -/

/-- R411, R413 to R415, R417, R419: the requests of the hosts. The accesses of a PCIe request run from the even address
`b`; where a bank serves them all, a read delivers its words and a write stores them. -/
def Obligations.HostRequests : Prop :=
  (∀ (n : Fin 2) (a : Addr) (sels : List ByteSel) (s : State), s.on → s.hostWorks (Fin.ofNat 4 n.val) = true →
    s.host[n.val].fenced = false → s.host[n.val].queue = [] → s.host[n.val].waits = none →
    s.ownHandover (hostMaster (Fin.ofNat 4 n.val)) = false → sels ≠ [] →
    let b : Nat := a.toNat / 2 * 2
    let m := hostMaster (Fin.ofNat 4 n.val)
    let mask := fun (x : ByteSel) => if x = .word then (0xFFFF : Word) else if x = .low then 0xFF else 0xFF00
    b + 2 * sels.length ≤ 0x1000000 → s.bankServes m .read b (2 * sels.length) →
    ∃ t, exec (.hostReadRequest n a sels) s = .next t ∧ t.host = s.host.set n.val { s.host[n.val] with
        abort := false, out := (List.range sels.length).map (fun k => Memory.word s.bank.mem (b + 2 * k) &&& mask (sels.getD k .word)) } ∧
      t.resp[m] = { value := Memory.word s.bank.mem (b + 2 * (sels.length - 1)), error := false } ∧
      t = { s with host := t.host, resp := t.resp }) ∧
  (∀ (n : Fin 2) (a : Addr) (ws : List (ByteSel × Word)) (s : State), s.on → s.hostWorks (Fin.ofNat 4 n.val) = true →
    s.host[n.val].fenced = false → s.host[n.val].queue = [] → s.host[n.val].waits = none →
    s.ownHandover (hostMaster (Fin.ofNat 4 n.val)) = false →
    let b : Nat := a.toNat / 2 * 2
    let m := hostMaster (Fin.ofNat 4 n.val)
    let mask := fun (x : ByteSel) => if x = .word then (0xFFFF : Word) else if x = .low then 0xFF else 0xFF00
    b + 2 * ws.length ≤ 0x1000000 → s.bankServes m .write b (2 * ws.length) →
    ∃ t, exec (.hostWriteRequest n a ws) s = .next t ∧
      (∀ k, k < ws.length → Memory.word t.bank.mem (b + 2 * k) =
        (Memory.word s.bank.mem (b + 2 * k) &&& ~~~mask (ws.getD k (.word, 0)).1) ||| ((ws.getD k (.word, 0)).2 &&& mask (ws.getD k (.word, 0)).1)) ∧
      (∀ c, c < b ∨ b + 2 * ws.length ≤ c → Memory.byte t.bank.mem c = Memory.byte s.bank.mem c) ∧ t.host = s.host ∧
      t = { s with
        bank := { s.bank with mem := t.bank.mem, ecc := t.bank.ecc, writeback := t.bank.writeback, beatW := t.bank.beatW }
        resp := t.resp }) ∧
  (∀ (n : Fin 2) (a : BitVec 32) (count : Nat) (s : State), s.on → s.hostWorks (Fin.ofNat 4 (2 + n.val)) = true →
    s.host[2 + n.val].fenced = false → s.host[2 + n.val].queue = [] → s.host[2 + n.val].waits = none →
    s.ownHandover (hostMaster (Fin.ofNat 4 (2 + n.val))) = false → 0 < count → a.toNat % 2 = 0 →
    a.toNat + 2 * count ≤ 0x1000000 → s.bankServes (hostMaster (Fin.ofNat 4 (2 + n.val))) .read a.toNat (2 * count) →
    ∃ t, exec (.spiRead n a count) s = .next t ∧ t.host = s.host.set (2 + n.val) { s.host[2 + n.val] with
        abort := false, out := (List.range count).map (fun k => Memory.word s.bank.mem (a.toNat + 2 * k)) } ∧
      t = { s with host := t.host, resp := t.resp }) ∧
  (∀ (n : Fin 2) (a : BitVec 32) (ws : List Word) (s : State), s.on → s.hostWorks (Fin.ofNat 4 (2 + n.val)) = true →
    s.host[2 + n.val].fenced = false → s.host[2 + n.val].queue = [] → s.host[2 + n.val].waits = none →
    s.ownHandover (hostMaster (Fin.ofNat 4 (2 + n.val))) = false → a.toNat % 2 = 0 → a.toNat + 2 * ws.length ≤ 0x1000000 →
    s.bankServes (hostMaster (Fin.ofNat 4 (2 + n.val))) .write a.toNat (2 * ws.length) →
    ∃ t, exec (.spiWrite n a ws) s = .next t ∧
      (∀ k, k < ws.length → Memory.word t.bank.mem (a.toNat + 2 * k) = ws.getD k 0) ∧
      (∀ c, c < a.toNat ∨ a.toNat + 2 * ws.length ≤ c → Memory.byte t.bank.mem c = Memory.byte s.bank.mem c) ∧
      t.host = s.host ∧
      t = { s with
        bank := { s.bank with mem := t.bank.mem, ecc := t.bank.ecc, writeback := t.bank.writeback, beatW := t.bank.beatW }
        resp := t.resp }) ∧
  (∀ (n : Fin 2) (a : BitVec 32) (count : Nat) (ws : List Word) (s : State), s.on → s.hostWorks (Fin.ofNat 4 (2 + n.val)) = true →
    0x4000000 ≤ a.toNat ∨ a.toNat % 2 = 1 →
    let t := { s with host := s.host.set (2 + n.val) { s.host[2 + n.val] with err := true } }
    exec (.spiRead n a count) s = .next t ∧ exec (.spiWrite n a ws) s = .next t) ∧
  (∀ (n : Fin 2) (s : State), s.on → s.hostWorks (Fin.ofNat 4 (2 + n.val)) = true →
    let x := s.host[2 + n.val]
    ∃ t, exec (.spiStatus n) s = .next t ∧
      (∀ v ∈ t.host[2 + n.val].out, bit v 0 = x.queue.any (fun q => q.w.isSome) ∧ bit v 1 = x.err ∧ bit v 2 = x.fenced ∧
        bit v 3 = s.hostIrq (Fin.ofNat 4 (2 + n.val)) ∧ v.toNat < 16) ∧ t.host[2 + n.val].out.length = 1 ∧
      t.host = s.host.set (2 + n.val) { x with err := false, out := t.host[2 + n.val].out } ∧
      t = { s with host := t.host, resp := t.resp }) ∧
  (∀ (n : Fin 2) (a : Addr) (b : BitVec 32) (sels : List ByteSel) (ws : List (ByteSel × Word)) (vs : List Word) (s : State), s.on →
    (s.hostWorks (Fin.ofNat 4 n.val) = false → exec (.hostReadRequest n a sels) s = .next s ∧
      exec (.hostWriteRequest n a ws) s = .next s ∧ exec (.pcieLinkUp n) s = .next s) ∧
    (s.hostWorks (Fin.ofNat 4 (2 + n.val)) = false → exec (.spiRead n b sels.length) s = .next s ∧
      exec (.spiWrite n b vs) s = .next s ∧ exec (.spiStatus n) s = .next s ∧ exec (.hreset n) s = .next s)) ∧
  (∀ (n : Fin 2) (s : State), s.on → s.hostWorks (Fin.ofNat 4 (2 + n.val)) = true →
    let m := hostMaster (Fin.ofNat 4 (2 + n.val))
    ∃ t, exec (.hreset n) s = .next t ∧ t.host = s.host.set (2 + n.val) { s.host[2 + n.val] with
        queue := [], err := false, abort := false, waits := none, out := [] } ∧
      bit (t.reg 0xD0700) (10 + n.val) = true ∧ (∀ off, off ≠ 0xD0700 → t.reg off = s.reg off) ∧ t.hold[m] = none ∧
      (s.inRun = true → t.epoch[14 + n.val] = s.epoch[14 + n.val] + 1) ∧ (s.inRun = false → t.epoch = s.epoch) ∧
      (∀ f : Fin 64, s.isSender f.val m = true → t.flue[f] = { s.flue[f] with p0 := none }) ∧
      (∀ f : Fin 64, s.isSender f.val m = false → t.flue[f] = s.flue[f]) ∧
      t = { s with
        host := t.host, epoch := t.epoch, flue := t.flue, hold := t.hold, latch := t.latch, regs := t.regs
        fresh := t.fresh }) ∧
  (∀ (n : Fin 2) (cause : HostResetCause) (s : State), s.on → s.hostWorks (Fin.ofNat 4 n.val) = true →
    ¬(n = 0 ∧ s.feedRuns = true) →
    ∃ t, exec (.hostReset n cause) s = .next t ∧ t.host[n.val].link = false ∧ t.host[n.val].queue = [] ∧
      (cause = .perst → t.host[n.val].perst = true) ∧ (s.inRun = true → t.epoch[12 + n.val] = s.epoch[12 + n.val] + 1) ∧
      bit (t.reg 0xD0700) (8 + n.val) = true ∧ t.host[n.val].fenced = s.host[n.val].fenced ∧
      (∀ k : Fin 4, k.val ≠ n.val → t.host[k] = s.host[k]) ∧
      t = { s with
        host := t.host, epoch := t.epoch, flue := t.flue, hold := t.hold, latch := t.latch, regs := t.regs
        fresh := t.fresh }) ∧
  (∀ (n : Fin 2) (s : State), s.on → s.hostWorks (Fin.ofNat 4 n.val) = true →
    exec (.pcieLinkUp n) s = .next { s with host := s.host.set n.val { s.host[n.val] with link := true, perst := false } })

/-- R420 to R425, R432: flue posts and reads, host watchdogs and the interrupt acknowledge. -/
def Obligations.FluesAndHostWatchdogs : Prop :=
  (∀ (m : Master) (f : Fin 64) (v : Word) (s : State), s.writes m (0xD0004 + 16 * f.val) → s.isSender f.val m = true →
    exec (.fluP0Write m f v) s = .next (({ s with flue := s.flue.set f { s.flue[f] with p0 := some v } } : State).respond m 0 false)) ∧
  (∀ (m : Master) (f : Fin 64) (v : Word) (s : State), s.writes m (0xD0006 + 16 * f.val) → s.isSender f.val m = true →
    s.flue[f].full = false →
    exec (.fluP1Write m f v) s = .next (({ s with flue := s.flue.set f {
      full := true, n0 := s.flue[f].p0.getD 0, n1 := v, n2 := s.epochOf m, p0 := none } } : State).respond m 0 false)) ∧
  (∀ (m : Master) (f : Fin 64) (v : Word) (s : State), s.writes m (0xD0006 + 16 * f.val) → s.isSender f.val m = true →
    s.flue[f].full = true →
    (m.val < 16 → exec (.fluP1Write m f v) s = .next (s.respond m 0 false)) ∧
    (∀ n : Fin 4, m = hostMaster n → exec (.fluP1Write m f v) s = .next ((s.raise (0xD0618 + 32 * n.val) 0).respond m 0 false))) ∧
  (∀ (m : Master) (f : Fin 64) (s : State), s.reads m (0xD000C + 16 * f.val) → s.isReceiver f.val m = true →
    exec (.fluN2Read m f) s = .next (({ s with flue := s.flue.set f { s.flue[f] with full := false } } : State).respond m s.flue[f].n2 false)) ∧
  (∀ (h : HearthId) (f : Fin 64) (v : Word) (s : State), s.on → s.hearth[h].st = .running → s.hearth[h].stall = none →
    s.isSender f.val (hearthMaster h) = false →
    ∃ t, exec (.fluP1Write (hearthMaster h) f v) s = .next t ∧ t.flue = s.flue ∧ t.hearth[h].st = .clamped ∧
      t.resp[hearthMaster h].error = true ∧ (∀ e ∈ t.ssn.clog, s.ssn.clog = [] → e.cause = 7 ∧ e.target = h.val)) ∧
  (∀ (n : Fin 4) (e : Nat) (s : State), s.on → s.host[n].wdgEnd = some e →
    ∃ t, exec (.hostWdgExpiry n) s = .next t ∧ t.time.beat = max s.time.beat e ∧ t.host[n].absent = true ∧ t.host[n].wdgEnd = none ∧
      t.host[n].fenced = s.host[n].fenced ∧ bit (t.reg 0xD0700) (4 + n.val) = true ∧
      (∀ off, off ≠ 0xD0700 → t.reg off = s.reg off) ∧
      t = { s with time := t.time, host := t.host, ssn := t.ssn, regs := t.regs, fresh := t.fresh }) ∧
  (∀ (m : Master) (n : Fin 4) (v : Word) (s : State), s.writes m (0xD0612 + 32 * n.val) →
    let tmo := (s.reg (0xD0610 + 32 * n.val)).toNat
    (m = hostMaster n → exec (.hostWdgKick m n v) s = .next (({ s with host := s.host.set n { s.host[n] with
      absent := false, wdgEnd := if tmo = 0 then none else some (s.time.beat + tmo * 524288) } } : State).respond m 0 false)) ∧
    (m ≠ hostMaster n → exec (.hostWdgKick m n v) s = .next (s.respond m 0 false))) ∧
  (∀ (m : Master) (n : Fin 4) (v : Word) (s : State), s.writes m (0xD0610 + 32 * n.val) →
    exec (.hostWdgTmoWrite m n v) s = .next (({ s.setReg (0xD0610 + 32 * n.val) v with host := s.host.set n { s.host[n] with
      wdgEnd := if v = 0 then none else some (s.time.beat + v.toNat * 524288) } } : State).respond m 0 false)) ∧
  (∀ (m : Master) (n : Fin 4) (v : Word) (s : State), s.writes m (0xD060E + 32 * n.val) →
    let sends := s.hostIrq n && decide (n.val < 2) && s.hostWorks n && s.host[n].link && !s.host[n].fenced && Config.msiEnabled n.val s.time.beat
    exec (.irqAck m n v) s = .next (({ s with host := s.host.set n { s.host[n] with
      msi := if sends then s.host[n].msi + 1 else s.host[n].msi } } : State).respond m 0 false))


/-! ## Kindling and start-up (17_kindling_and_startup.md) -/

/-- R434, R435, R437 to R442, R449, R451: reset, sensing, an attempt from flash to RUN, and its failures. The first clause
tells what a failure does (`kdlFail`), the others where one happens. SENSE_DONE after 65,536 or 131,072 beats is the
model's reading (log entry 21). -/
def Obligations.BootSequence : Prop :=
  (∀ (code sect : Nat) (s : State), code < 256 →
    let k := s.kdl
    let a : Bool := k.attempt = some .a
    let b : Bool := k.attempt = some .b
    let t := s.kdlFail code sect
    t.kdl.failA.toNat = (if a then code else k.failA.toNat) ∧ t.kdl.failB.toNat = (if b then code else k.failB.toNat) ∧
      t.kdl.failH.toNat = (if a || b then k.failH.toNat else code) ∧ t.kdl.failSect = sect ∧
      (a = true → t.kdl.st = .load ∧ t.kdl.attempt = some .b) ∧
      (b = true → bit (k.straps.zeroExtend 16) 2 = false → t.kdl.st = .failed ∧ t.kdl.attempt = none) ∧
      (b = true → bit (k.straps.zeroExtend 16) 2 = true → t.kdl.st = .feed ∧ t.kdl.ready = true ∧ t.kdl.begun = false) ∧
      (a = false → b = false → t.kdl.st = .feed ∧ t.kdl.ready = true ∧ t.kdl.begun = false) ∧
      (t.kdl.st ≠ .failed → t.kdl.stream = [] ∧ t.kdl.tableOk = false ∧ t.kdl.sect = 0) ∧
      t.kdl.fuses = k.fuses ∧ bit (t.reg 0xE0010) (if a then 0 else if b then 1 else 2) = true ∧
      (∀ off, off ≠ 0xE0010 → t.reg off = if off / 65536 = 14 then s.reg off else State.reset.reg off) ∧
      (∀ n : Fin 4, t.host[n] = { HostPort.reset with link := s.host[n].link, perst := s.host[n].perst }) ∧
      t = { State.reset with
        pending := s.pending, kdl := t.kdl, regs := t.regs, host := t.host, gp := s.gp, resp := s.resp, free := s.free
        time := { State.reset.time with beat := s.time.beat, sdsBeat := s.time.beat, canSpanBeat := s.time.beat }
        ssn := { State.reset.ssn with seasonBeat := s.time.beat } }) ∧
  (∀ (s : State),
    ∃ t, exec .porst s = .next t ∧ exec .supplyMonitorTrip s = .next t ∧ t.kdl = { Kindling.reset with up := false, fuses := t.kdl.fuses } ∧
      (s.kdl.burn = none → s.kdl.advTarget = none → t.kdl.fuses = s.kdl.fuses) ∧
      (s.kdl.burn = none → t.kdl.fuses.slots = s.kdl.fuses.slots ∧ t.kdl.fuses.revoked = s.kdl.fuses.revoked ∧
        t.kdl.fuses.secure = s.kdl.fuses.secure) ∧
      s.kdl.fuses.count ≤ t.kdl.fuses.count ∧ t.kdl.fuses.count ≤ s.kdl.fuses.count + 1 ∧
      t = { State.reset with pending := s.pending, resp := s.resp, gp := s.gp, free := s.free + 1, kdl := t.kdl }) ∧
  (∀ (straps : BitVec 7) (s : State),
    (s.kdl.up = false → exec (.resetRelease straps) s = .next { s with kdl := { s.kdl with up := true, straps := straps } }) ∧
    (s.kdl.up = true → exec (.resetRelease straps) s = .next s)) ∧
  (∀ (s : State), s.on → s.kdl.st = .sense →
    let boot := s.kdl.straps.toNat % 4
    let due : Nat := if boot = 0 then 65536 else 131072
    let hosten := s.kdl.straps.getLsbD 2
    ∃ t, exec .senseDone s = .next t ∧ t.time.beat = max s.time.beat due ∧ t.kdl.sensed = true ∧
      (boot = 0 → t.kdl = { s.kdl with
        sensed := true, st := .load, attempt := some .a, stream := [], sect := 0, tableOk := false, verified := false
        starts := 0 }) ∧
      (boot = 1 → hosten = true → t.kdl.st = .feed ∧ t.kdl.attempt = some .h ∧ t.kdl.ready = true) ∧
      (boot = 2 ∨ boot = 3 ∨ boot = 1 ∧ hosten = false → t.kdl = { s.kdl with sensed := true, st := .halt }) ∧
      t = { s with time := t.time, host := t.host, ssn := t.ssn, kdl := t.kdl }) ∧
  (∀ (h1 h8 : List Byte) (s : State), s.on → s.kdl.st = .load → s.kdl.stream = [] → h1.length = 256 → h8.length = 256 →
    let f := fun (o n : Nat) => ofBytes ((h1.drop o).take n)
    let dead : Bool := h1.all (fun x => x == 0xFF) || h1.all (fun x => x == 0)
    let known : Bool := f 0 4 = 0x4C444B46 ∧ f 4 2 = 1 ∧ f 6 2 = 256 ∧ f 26 2 = 0x6412
    let ranges : Bool := f 8 4 % 64 = 0 ∧ 1024 ≤ f 8 4 ∧ f 8 4 ≤ 16777216 ∧ f 28 4 % 16 = 0 ∧ 256 ≤ f 28 4 ∧ 1 ≤ f 32 2 ∧ f 32 2 ≤ 4096
    let u := s.elapse 406528
    u = { s with time := u.time, host := u.host, ssn := u.ssn } ∧ u.time.beat = s.time.beat + 406528 ∧
      (dead = true → exec (.flashAttempt h1 h8) s = .next (u.kdlFail 1 0)) ∧
      (dead = false → known = false → exec (.flashAttempt h1 h8) s = .next (u.kdlFail 2 0)) ∧
      (dead = false → known = true → ranges = false → exec (.flashAttempt h1 h8) s = .next (u.kdlFail 4 0)) ∧
      (dead = false → known = true → ranges = true → h1 ≠ h8 → exec (.flashAttempt h1 h8) s = .next (u.kdlFail 3 0)) ∧
      (known = true → ranges = true → h1 = h8 → exec (.flashAttempt h1 h8) s = .next { u with kdl := { s.kdl with stream := h1 } })) ∧
  (∀ (l : List Byte) (s : State), s.on → s.kdl.st = .load → 256 ≤ s.kdl.stream.length → s.kdl.tableOk = true →
    s.kdl.sect < s.kdl.sectCnt →
    let k := { s.kdl with stream := s.kdl.stream ++ l }
    let x := k.section' k.sect
    let w := fun (n : Nat) => BitVec.ofNat 16 (k.field (x.offset + 2 * n) 2)
    x.offset + x.len ≤ k.stream.length → x.type = 1 ∨ x.type = 3 ∧ x.arg < 12 ∧ x.len % 2 = 0 ∨ x.type = 5 ∧ x.len % 16 = 0 →
    ∃ t, exec (.sectionLoaded l) s = .next t ∧ t.kdl = { k with sect := k.sect + 1 } ∧
      (x.type = 1 → (∀ n, n < x.len → Memory.byte t.bank.mem (x.target + n) = k.stream.getD (x.offset + n) 0) ∧
        (∀ c, c < x.target ∨ x.target + x.len ≤ c → Memory.byte t.bank.mem c = Memory.byte s.bank.mem c) ∧
        t = { s with bank := { s.bank with mem := t.bank.mem, ecc := t.bank.ecc }, kdl := t.kdl }) ∧
      (x.type = 3 → (∀ h : HearthId, h.val = x.arg → ∀ n, n < x.len / 2 → Sparse.get 0 t.hearth[h].bench (x.target / 2 + n) = w n) ∧
        (∀ h : HearthId, t.hearth[h] = if h.val = x.arg then { s.hearth[h] with
          bench := t.hearth[h].bench, benchEcc := t.hearth[h].benchEcc } else s.hearth[h]) ∧
        t = { s with hearth := t.hearth, kdl := t.kdl }) ∧
      (x.type = 5 → (∀ n, n < x.len / 2 → Sparse.get 0 t.jnr.dsc (8 * x.target + n) = w n) ∧
        (∀ n, n < 8 * x.target ∨ 8 * x.target + x.len / 2 ≤ n → Sparse.get 0 t.jnr.dsc n = Sparse.get 0 s.jnr.dsc n) ∧
        t = { s with jnr := { s.jnr with dsc := t.jnr.dsc, dscEcc := t.jnr.dscEcc }, kdl := t.kdl })) ∧
  (∀ (l : List Byte) (s : State), s.on → s.kdl.st = .load → 256 ≤ s.kdl.stream.length → s.kdl.tableOk = false →
    let k := { s.kdl with stream := s.kdl.stream ++ l }
    let n := k.sectCnt
    let x := fun (i : Nat) => k.section' i
    k.sectOfs + 16 * n ≤ k.stream.length → 0 < n →
    (x (n - 1)).type ≠ 9 ∨ (∃ i, i < n - 1 ∧ ((x i).type = 9 ∨ (x (i + 1)).offset < (x i).offset + (x i).len)) ∨
      (∃ i, i < n ∧ ((x i).offset < k.sectOfs + 16 * n ∨ k.imageLen < (x i).offset + (x i).len + 64 ∨ (x i).ok = false)) →
    exec (.sectionLoaded l) s = .next ({ s with kdl := k }.kdlFail 5 0)) ∧
  (∀ (l : List Byte) (s : State), s.on → s.kdl.st = .load → s.kdl.tableOk = true → s.kdl.sect = s.kdl.sectCnt →
    256 ≤ s.kdl.stream.length → s.kdl.imageLen ≤ s.kdl.stream.length + l.length →
    let u := { s with kdl := { s.kdl with stream := s.kdl.stream ++ l, st := .verify, ready := false } }
    (u.runsOk = false → exec (.loadComplete l) s = .next (u.kdlFail 6 0)) ∧
    (u.runsOk = true → (∃ m, m < 8 ∧ (u.kdl.field 34 1).testBit m = true ∧ u.modeOk m = false) →
      exec (.loadComplete l) s = .next (u.kdlFail 0xA 0)) ∧
    (u.runsOk = true → u.modesOk = true → exec (.loadComplete l) s = .next u)) ∧
  (∀ (s : State), s.on → s.kdl.st = .verify →
    let k := s.kdl
    let key := k.bytes 128 64
    let digest := sha256 (k.bytes 0 (k.imageLen - 64))
    let signed := ecdsaOk key digest (k.bytes (k.imageLen - 64) 64)
    let slot : Fin 4 := ⟨k.field 14 2 % 4, Nat.mod_lt _ (by decide)⟩
    let known : Bool := k.fuses.slots[slot] = some (sha256 key) ∧ k.fuses.revoked[slot] = false
    let version := k.field 12 2
    let fresh : Bool := k.fuses.count ≤ version ∧ version ≤ 64
    let t := { s with kdl := { k with st := .start, verified := true, starts := 0 } }
    (signed = false → exec .signatureCheckDone s = .next (s.kdlFail 7 0)) ∧
    (signed = true → k.fuses.secure = true → known = false → exec .signatureCheckDone s = .next (s.kdlFail 8 0)) ∧
    (signed = true → k.fuses.secure = true → known = true → fresh = false → exec .signatureCheckDone s = .next (s.kdlFail 9 0)) ∧
    (signed = true → k.fuses.secure = false ∨ (known = true ∧ fresh = true) → exec .signatureCheckDone s = .next t)) ∧
  (∀ (off : Nat) (v : Word) (s : State), s.on → s.kdl.st = .start →
    let o := s.kdl.section' (s.kdl.sectCnt - 1)
    let at' := o.offset + 8 * s.kdl.starts
    8 * s.kdl.starts + 8 ≤ o.len → at' + 8 ≤ s.kdl.stream.length → s.kdl.field at' 4 = 0x3000000 + off →
    s.kdl.field (at' + 4) 2 = v.toNat → s.kdl.field (at' + 6) 2 = 0 → startReg off = true →
    let u := (s.busWrite 15 (0x3000000 + off) .word v).1
    (refusedBetween s u = false → exec .startRecord s = .next { u with
      kdl := { u.kdl with starts := u.kdl.starts + 1, bootBeat := u.time.beat } }) ∧
    (refusedBetween s u = true → exec .startRecord s = .next (u.kdlFail 0xC (u.kdl.sectCnt - 1)))) ∧
  (∀ (s : State), s.on → s.kdl.st = .start → s.kdl.starts = s.kdl.startRecords.length →
    ∃ t, exec .kindlingRun s = .next t ∧ t.kdl.st = .run ∧ t.kdl.slot = s.kdl.attempt ∧ t.kdl.version.toNat = s.kdl.field 12 2 % 65536 ∧
      (∀ k : Fin 16, t.epoch[k] = 0) ∧ (∀ i : Fin 4, t.kdl.build[i].toNat = s.kdl.field (16 + 2 * i.val) 2 % 65536) ∧
      (16 ≤ s.kdl.field 24 2 % 32 → s.kdl.field 24 2 % 32 < 20 → t.kdl.supHost = s.kdl.field 24 2 % 32) ∧
      (s.kdl.field 24 2 % 32 = 0x1F → t.kdl.supHost = 0x1F) ∧ t.kdl.keySlot = s.kdl.field 14 2 % 4 ∧
      (∀ off ∈ (List.range 8).flatMap (fun m => [0x20100 + 0x20 * m, 0x40300 + 4 * m]), t.imageReg off = s.reg off) ∧
      t = { s with epoch := t.epoch, kdl := { s.kdl with
        st := .run, slot := t.kdl.slot, attempt := none, version := t.kdl.version, build := t.kdl.build
        supHost := t.kdl.supHost, keySlot := t.kdl.keySlot, loaded := t.kdl.loaded, stream := [] } })

/-- R444, R452, R453, R455, R456: the feed, flash commands and fuses. -/
def Obligations.FeedFlashAndFuses : Prop :=
  (∀ (m : Master) (v : Word) (s : State), s.writes m 0xE0200 → s.kdl.st = .feed → s.kdl.ready = true →
    (v.toNat % 2 = 0 → 2 ≤ v.toNat → v.toNat ≤ 32768 → exec (.feedChunk m v) s = .next (({ s with kdl := { s.kdl with
      advArmed := false, chunk := some v.toNat, ready := false, begun := true } } : State).respond m 0 false)) ∧
    (v.toNat % 2 = 1 ∨ v.toNat < 2 ∨ 32768 < v.toNat →
      exec (.feedChunk m v) s = .next (({ s with kdl := { s.kdl with advArmed := false } } : State).respond m 0 false))) ∧
  (∀ (m : Master) (off : BitVec 15) (v : Word) (s : State),
    let o := off.toNat / 2 * 2
    let u := ({ s with kdl := { s.kdl with advArmed := false } } : State)
    s.writes m (0xE8000 + o) →
    (s.kdl.st ≠ .feed ∨ s.kdl.ready = false ∨ s.kdl.readyBeat = s.time.beat →
      exec (.feedWindowWrite m .word off v) s = .next ((u.raise 0xE0010 3).respond m 0 false)) ∧
    exec (.feedWindowWrite m .low off v) s = .next (s.respond m 0 true) ∧
    exec (.feedWindowWrite m .high off v) s = .next (s.respond m 0 true)) ∧
  (∀ (m : Master) (off : BitVec 15) (v : Word) (s : State), s.writes m (0xE8000 + off.toNat / 2 * 2) → s.kdl.st = .feed →
    s.kdl.ready = true → s.kdl.readyBeat ≠ s.time.beat →
    let o := off.toNat / 2 * 2
    ∃ t, exec (.feedWindowWrite m .word off v) s = .next t ∧ Sparse.get 0 t.kdl.window o = v.truncate 8 ∧
      Sparse.get 0 t.kdl.window (o + 1) = (v >>> 8).truncate 8 ∧
      (∀ c, c ≠ o → c ≠ o + 1 → Sparse.get 0 t.kdl.window c = Sparse.get 0 s.kdl.window c) ∧
      t = { s with kdl := { s.kdl with advArmed := false, window := t.kdl.window }, resp := t.resp }) ∧
  (∀ (n : Nat) (s : State), s.on → s.kdl.chunk = some n → s.kdl.st = .feed →
    let u := { s with kdl := { s.kdl with
      stream := s.kdl.stream ++ (List.range n).map (fun i => Sparse.get 0 s.kdl.window i), window := [], chunk := none
      ready := true, readyBeat := s.time.beat } }
    (256 ≤ s.kdl.stream.length ∨ u.kdl.stream.length < 256 ∨ u.kdl.headerCode = 0 → exec .feedChunkConsumed s = .next u) ∧
    (s.kdl.stream.length < 256 → 256 ≤ u.kdl.stream.length → u.kdl.headerCode ≠ 0 →
      exec .feedChunkConsumed s = .next (u.kdlFail u.kdl.headerCode 0))) ∧
  (∀ (s : State), s.on → s.kdl.st = .feed → s.kdl.begun = true → s.kdl.ready = true →
    let u := s.until (s.kdl.readyBeat + 16777216)
    exec .feedTimeout s = .next (u.kdlFail 0xB 0) ∧ u.time.beat = max s.time.beat (s.kdl.readyBeat + 16777216) ∧
      u = { s with time := u.time, host := u.host, ssn := u.ssn }) ∧
  (∀ (m : Master) (v : Word) (s : State), s.writes m 0xE0204 →
    let u := ({ s with kdl := { s.kdl with advArmed := false } } : State)
    let w := ({ u with kdl := { u.kdl with
      st := .feed, attempt := some .h, stream := [], sect := 0, tableOk := false, verified := false, starts := 0, ready := true
      readyBeat := s.time.beat, begun := false, window := [], chunk := none } } : State)
    (s.kdl.attempt = some .h → s.kdl.begun = true ∨ s.kdl.st = .verify ∨ s.kdl.st = .start →
      exec (.feedRestart m v) s = .next ((u.kdlFail 0xB 0).respond m 0 false)) ∧
    (s.kdl.st = .feed → s.kdl.begun = false → exec (.feedRestart m v) s = .next (w.respond m 0 false))) ∧
  (∀ (n : Fin 2) (cause : HostResetCause) (s : State), s.on → n = 0 → s.hostWorks 0 = true → s.kdl.attempt = some .h → s.kdl.begun = true →
    ∃ t, exec (.hostReset n cause) s = .next t ∧ t.kdl.st = .feed ∧ t.kdl.failH = 0xB ∧ t.kdl.stream = [] ∧ t.kdl.begun = false ∧
      bit (t.reg 0xE0010) 2 = true) ∧
  (∀ (m : Master) (v : Word) (s : State), s.writes m 0xE0106 →
    let u := ({ s with kdl := { s.kdl with advArmed := false } } : State)
    (bit v 14 = true → s.inRun = true → s.kdl.xBusy = false → exec (.xspiCommand m v) s =
      .next (({ u.setReg 0xE0106 (v &&& 0x3FFF) with kdl := { u.kdl with xBusy := true } } : State).respond m 0 false)) ∧
    (bit v 14 = true → s.inRun = true → s.kdl.xBusy = true → exec (.xspiCommand m v) s = .next ((u.raise 0xE0010 4).respond m 0 false)) ∧
    (bit v 14 = false → exec (.xspiCommand m v) s = .next ((u.setReg 0xE0106 (v &&& 0x3FFF)).respond m 0 false))) ∧
  (∀ (l : List Byte) (s : State), s.on → s.kdl.xBusy = true →
    let n := min 64 (fld (s.reg 0xE0106) 0 7)
    let reads := !bit (s.reg 0xE0106) 13
    ∃ t, exec (.xspiCommandDone l) s = .next t ∧ t.kdl = { s.kdl with xBusy := false } ∧
      (∀ k, k < 64 → fld (t.reg (0xE0110 + k / 2 * 2)) (8 * (k % 2)) 8 =
        if reads && decide (k < n) then (l.getD k 0).toNat else fld (s.reg (0xE0110 + k / 2 * 2)) (8 * (k % 2)) 8) ∧
      (∀ off, off < 0xE0110 ∨ 0xE0150 ≤ off → t.reg off = s.reg off) ∧ t = { s with kdl := t.kdl, regs := t.regs }) ∧
  (∀ (m : Master) (v : Word) (s : State), s.writes m 0xE0024 →
    let arms : Bool := v = 0x4B44 ∧ s.kdl.advActed ≠ some s.time.beat
    exec (.kdlAdvKey m v) s = .next (({ s with kdl := { s.kdl with advArmed := arms } } : State).respond m 0 false)) ∧
  (∀ (m : Master) (v : Word) (s : State), s.writes m 0xE0026 →
    let k := { s.kdl with advArmed := false }
    let accepted : Bool := s.kdl.advArmed ∧ v.toNat ≤ s.kdl.version.toNat ∧ s.kdl.fuses.count < v.toNat
    (accepted = true → exec (.kdlAdv m v) s = .next (({ s with kdl := { k with
      advTarget := some v.toNat, advBeat := s.time.beat, advActed := some s.time.beat } } : State).respond m 0 false)) ∧
    (accepted = false → exec (.kdlAdv m v) s = .next ((({ s with kdl := k } : State).raise 0xE0010 5).respond m 0 false))) ∧
  (∀ (n : Nat) (s : State), s.on → s.kdl.advTarget = some n →
    ∃ t, exec .versionFuseBlown s = .next t ∧ t.time.beat = max s.time.beat (s.kdl.advBeat + 65536) ∧
      t.kdl.fuses = { s.kdl.fuses with count := s.kdl.fuses.count + 1 } ∧
      t.kdl.advTarget = (if n ≤ s.kdl.fuses.count + 1 then none else some n) ∧
      t.kdl = { s.kdl with fuses := t.kdl.fuses, advTarget := t.kdl.advTarget, advBeat := t.time.beat } ∧
      t = { s with kdl := t.kdl, time := t.time, host := t.host, ssn := t.ssn }) ∧
  (∀ (m : Master) (v : Word) (s : State), s.writes m 0xE002A →
    let f := s.kdl.fuses
    let sel := fld (s.reg 0xE0028) 0 4
    let k : Fin 4 := ⟨sel % 4, Nat.mod_lt _ (by decide)⟩
    let hash := (List.range 32).map (fun i => BitVec.ofNat 8 (fld (s.reg (0xE0040 + i / 2 * 2)) (8 * (i % 2)) 8))
    let any : Bool := (List.finRange 4).any (fun i => f.slots[i].isSome && !f.revoked[i])
    let ok : Bool := s.kdl.burn = none ∧ (if 8 ≤ sel then any else if 4 ≤ sel then !(s.kdl.slot.isSome && s.kdl.keySlot == k.val) else f.slots[k].isNone)
    let b := if 8 ≤ sel then Burn.secure else if 4 ≤ sel then .revoke k else .slot k hash
    let u := ({ s with kdl := { s.kdl with advArmed := false } } : State)
    (v = 0x0F5E → ok = true → exec (.fprogBurn m v) s = .next (({ u with kdl := { u.kdl with burn := some b } } : State).respond m 0 false)) ∧
    (v = 0x0F5E → ok = false → exec (.fprogBurn m v) s = .next ((u.raise 0xE0010 6).respond m 0 false)) ∧
    (v ≠ 0x0F5E → exec (.fprogBurn m v) s = .next (u.respond m 0 false))) ∧
  (∀ (b : Burn) (s : State), s.on → s.kdl.burn = some b →
    ∃ t, exec .fprogDone s = .next t ∧ t.kdl.burn = none ∧
      (∀ i : Fin 4, ∀ hash ∈ t.kdl.fuses.slots[i], b = .slot i hash ∨ s.kdl.fuses.slots[i] = some hash) ∧
      (∀ i : Fin 4, s.kdl.fuses.slots[i].isSome = true → t.kdl.fuses.slots[i].isSome = true) ∧
      (∀ i : Fin 4, t.kdl.fuses.revoked[i] = (s.kdl.fuses.revoked[i] || decide (b = .revoke i))) ∧
      t.kdl.fuses.secure = (s.kdl.fuses.secure || decide (b = .secure)) ∧ t.kdl.fuses.count = s.kdl.fuses.count ∧
      t = { s with kdl := { s.kdl with fuses := t.kdl.fuses, burn := none } })

/-! ## Seasoning and supervision (18_seasoning_and_supervision.md) -/

/-- R458 to R462, R465: readings, the seasoning index, the ageing factor (rounded down to 2^-48, log entry 20), the record
and the AVS line. -/
def Obligations.SeasoningMeasures : Prop :=
  (∀ (r : SensorReadings) (s : State), s.on →
    let lim := fld (s.reg 0xF003A) 0 8
    ∃ t, exec (.sensorUpdate r) s = .next t ∧ t.ssn = { s.ssn with
        slack := r.slack, osc := r.osc, temp := r.temp, eyes := r.eyes, ron := t.ssn.ron } ∧
      t.ssn.ron.length = r.ron.length ∧
      (∀ k, k < 16 → t.ssn.ron.getD k 0 = (r.ron.getD k (some 0)).getD (s.ssn.ron.getD k 0)) ∧
      (∀ p : PortId, t.mac.ports[p].eye = if p.val < 10 then r.eyes.getD p.val 0 else s.mac.ports[p].eye) ∧
      (bit (t.reg 0xF0004) 9 = true ↔ bit (s.reg 0xF0004) 9 = true ∨ ∃ k, k < r.ron.length ∧
        s.ssn.ronBase.getD k 0 ≠ 0 ∧ s.ssn.ronBase.getD k 0 * (256 + lim) < t.ssn.ron.getD k 0 * 256) ∧
      (∀ off, off ≠ 0xF0004 → t.reg off = s.reg off) ∧
      t = { s with ssn := t.ssn, mac := { s.mac with ports := t.mac.ports }, regs := t.regs, fresh := t.fresh }) ∧
  (∀ (k : Nat) (s : State), k < s.ssn.slack.length →
    let hot := s.ssn.hottest
    let slack := s.ssn.slack.getD k 0
    let tcoef : Int := (s.reg 0xF0024).toNat
    let m := s.margins.getD k 0
    m * 128 ≤ slack * 128 - tcoef * (880 - hot) ∧ slack * 128 - tcoef * (880 - hot) < m * 128 + 128 ∧ s.worstMargin ≤ m ∧
      (∀ x ∈ s.ssn.temp, x ≤ hot) ∧ (s.ssn.temp ≠ [] → hot ∈ s.ssn.temp) ∧ s.worstMargin ∈ s.margins) ∧
  (∀ (t8 : Int) (mv : Nat),
    let e : Int := 5 * (t8 - 680) + 8 * ((mv : Int) - 800) + 19200
    0 ≤ e → ageing t8 mv ^ 400 ≤ 2 ^ e.toNat ∧ 2 ^ e.toNat < (ageing t8 mv + 1) ^ 400) ∧
  (∀ (t8 : Int) (s : State), s.on →
    let d := ageing t8 s.ssn.mv * 65536 / 225
    ∃ t, exec (.seasonAdvance t8) s = .next t ∧ t.time.beat = max s.time.beat (s.ssn.seasonBeat + 2 ^ 33) ∧
      t.ssn.index = s.ssn.index + d ∧ t.ssn.sinceReset = s.ssn.sinceReset + d ∧ t.ssn.seasonBeat = t.time.beat ∧
      t = { s with
        time := t.time, host := t.host
        ssn := { s.ssn with
          index := t.ssn.index, sinceReset := t.ssn.sinceReset, seasonBeat := t.ssn.seasonBeat, adjSum := t.ssn.adjSum
          adjBeats := t.ssn.adjBeats } }) ∧
  (∀ (m : Master) (v : Word) (s : State), s.writes m 0xF0280 →
    let w := fun (k : Nat) => s.reg (0xF0200 + 2 * k)
    let crc := crc32 ((List.range 62).flatMap (fun k => [(w k).truncate 8, (w k >>> 8).truncate 8]))
    let good : Bool := w 62 = crc.truncate 16 ∧ w 63 = (crc >>> 16).truncate 16 ∧ (w 0).toNat + (w 1).toNat * 65536 + (w 2).toNat * 2 ^ 32 = s.serial
    (v ≠ 0x5E57 → exec (.srecRestore m v) s = .next (s.respond m 0 false)) ∧
    (v = 0x5E57 → s.ssn.restoreTried = true ∨ good = false → exec (.srecRestore m v) s =
      .next ((({ s with ssn := { s.ssn with restoreTried := true } } : State).raise 0xF0004 6).respond m 0 false))) ∧
  (∀ (m : Master) (s : State), s.writes m 0xF0280 → s.ssn.restoreTried = false →
    let w := fun (k : Nat) => s.reg (0xF0200 + 2 * k)
    let n3 := fun (k : Nat) => (w k).toNat + (w (k + 1)).toNat * 65536 + (w (k + 2)).toNat * 2 ^ 32
    let crc := crc32 ((List.range 62).flatMap (fun k => [(w k).truncate 8, (w k >>> 8).truncate 8]))
    w 62 = crc.truncate 16 → w 63 = (crc >>> 16).truncate 16 → n3 0 = s.serial →
    ∃ t, exec (.srecRestore m 0x5E57) s = .next t ∧ t.ssn.index = n3 3 * 2 ^ 48 + s.ssn.sinceReset ∧
      t.ssn.adjBase = (w 7 ++ w 6).toInt ∧ (∀ k, k < 8 → t.ssn.oscBase.getD k 0 = (w (8 + k)).toInt) ∧
      (∀ k, k < 16 → t.ssn.ronBase.getD k 0 = (w (16 + k)).toNat) ∧ t.ssn.kstage = fld (w 32) 0 3 ∧ t.ssn.kGood = fld (w 32) 0 3 ∧
      t.ssn.rsteps = fld (w 32) 4 4 ∧ t.ssn.anchorIdx = n3 34 * 2 ^ 48 ∧ t.ssn.anchorHead = (w 37).toInt ∧
      t.ssn.restored = true ∧ t.ssn.restoreTried = true ∧
      t = { s with
        resp := t.resp
        ssn := { s.ssn with
          index := t.ssn.index, adjBase := t.ssn.adjBase, oscBase := t.ssn.oscBase, ronBase := t.ssn.ronBase
          kstage := t.ssn.kstage, kGood := t.ssn.kGood, rsteps := t.ssn.rsteps, anchorIdx := t.ssn.anchorIdx
          anchorHead := t.ssn.anchorHead, restored := true, baseTaken := true, restoreTried := true } }) ∧
  (∀ (m : Master) (en ack : Bool) (s : State), s.writes m 0xF0010 →
    let mv := max 800 (min 880 (s.reg 0xF0014).toNat)
    ∃ t, exec (.avsEnable m en ack) s = .next t ∧ t.reg 0xF0010 = (if en then 1 else 0) ∧
      (∀ off, off ≠ 0xF0010 → off ≠ 0xF0004 → t.reg off = s.reg off) ∧
      (bit (t.reg 0xF0004) 2 = true ↔ bit (s.reg 0xF0004) 2 = true ∨ (en = true ∧ ack = false)) ∧ (en = false → t.ssn = s.ssn) ∧
      (en = true → t.ssn = { s.ssn with avsFault := !ack, avsTries := 0, mv := if ack then mv else s.ssn.mv }) ∧
      t = { s with ssn := t.ssn, regs := t.regs, fresh := t.fresh, resp := t.resp })

/-- R463 to R466: re-planning. `u` is the state after the readings or the baselines, and `replanRest` steps 2 to 4, whose
kerfs and reserves the last clauses give. -/
def Obligations.SeasoningReplans : Prop :=
  (∀ (m : Master) (nor : Option Nat) (s : State), s.writes m 0xF0000 →
    let u := s.norCount nor
    let tgt : Int := fld (s.reg 0xF0020) 0 8
    let hyst : Int := fld (s.reg 0xF0020) 8 8
    let avs : Bool := s.ssn.avsFault = false ∧ bit (s.reg 0xF0010) 0 = true
    let req := fun (mv : Nat) (low : Bool) => ({ u with ssn := { u.ssn with
      mv := mv, mBefore := s.worstMargin, avsTries := 0, plan := .voltage low } } : State)
    (s.ssn.plan ≠ .idle ∨ bit (s.reg 0xF0000) 0 = false → exec (.replan m nor) s = .next (s.respond m 0 false)) ∧
    (s.ssn.plan = .idle → bit (s.reg 0xF0000) 0 = true →
      (avs = true → s.worstMargin < tgt → s.ssn.mv < 880 → exec (.replan m nor) s = .next ((req (s.ssn.mv + 5) false).respond m 0 false)) ∧
      (avs = true → tgt + hyst ≤ s.worstMargin → 800 < s.ssn.mv →
        exec (.replan m nor) s = .next ((req (s.ssn.mv - 5) true).respond m 0 false)) ∧
      (avs = false ∨ (s.worstMargin < tgt ∧ 880 ≤ s.ssn.mv) ∨ (tgt ≤ s.worstMargin ∧ (s.worstMargin < tgt + hyst ∨ s.ssn.mv ≤ 800)) →
        exec (.replan m nor) s = .next (u.replanRest.respond m 0 false)))) ∧
  (∀ (nor : Option Nat) (s : State),
    let t := s.norCount nor
    (nor = none ∨ s.kdl.xBusy = true → t = s) ∧
    (∀ n ∈ nor, s.kdl.xBusy = false → t.ssn = { s.ssn with norLast := n } ∧
      (bit (t.reg 0xF0004) 8 = true ↔ bit (s.reg 0xF0004) 8 = true ∨ s.ssn.norLast + (s.reg 0xF0038).toNat < n) ∧
      t = { s with ssn := t.ssn, regs := t.regs, fresh := t.fresh })) ∧
  (∀ (b : Nat) (nor : Option Nat) (s : State), s.on → bit (s.reg 0xF0000) 0 = true → s.ssn.plan = .idle → s.ssn.startBeat = some b →
    s.ssn.startDone = false →
    let u := s.until (b + 2 ^ 27)
    let mean := if u.ssn.adjBeats = 0 then u.ssn.adjBase else u.ssn.adjSum / u.ssn.adjBeats
    let v := ({ u with ssn := { u.ssn with startDone := true } } : State)
    let w := (({ v with ssn := { v.ssn with
      oscBase := v.ssn.osc, ronBase := v.ssn.ron, baseTaken := true, adjBase := mean } } : State)).raise 0xF0004 7
    u.time.beat = max s.time.beat (b + 134217728) ∧
      (s.ssn.restored = true → exec (.replanStart nor) s = .next ((v.norCount nor).voltageStep true)) ∧
      (s.ssn.restored = false → exec (.replanStart nor) s = .next ((w.norCount nor).voltageStep true))) ∧
  (∀ (nor : Option Nat) (s : State), s.on → bit (s.reg 0xF0000) 0 = true → s.ssn.plan = .idle → s.ssn.startDone = true →
    s.tick.running = true → s.time.beat = s.tick.tBeat →
    let starts : Bool := (s.time.todx % 2 ^ 89 = 0 ∧ 0 < s.time.rate) ∨ 2 ^ 89 < s.time.todx % 2 ^ 89 + s.time.rate
    (starts = true → exec (.replanStart nor) s = .next ((s.norCount nor).voltageStep true)) ∧
    (starts = false → exec (.replanStart nor) s = .next s)) ∧
  (∀ (low : Bool) (r : SensorReadings) (s : State), s.on → s.ssn.plan = .voltage low →
    let u := s.takeReadings r
    let tgt : Int := fld (s.reg 0xF0020) 0 8
    let up := ({ u with ssn := { u.ssn with gain := u.worstMargin - s.ssn.mBefore } } : State)
    (s.ssn.avsTries < 2 → exec (.avsStepSettled false r) s =
      .next { s with ssn := { s.ssn with avsTries := s.ssn.avsTries + 1 } }) ∧
    (2 ≤ s.ssn.avsTries → exec (.avsStepSettled false r) s = .next
      (((({ s with ssn := { s.ssn with
        avsFault := true, avsTries := 0, mv := if low then s.ssn.mv + 5 else s.ssn.mv - 5 } } : State)).raise 0xF0004 2).replanRest)) ∧
    (low = true → tgt ≤ u.worstMargin → exec (.avsStepSettled true r) s = .next u.replanRest) ∧
    (low = true → u.worstMargin < tgt → exec (.avsStepSettled true r) s = .next
      ({ u with ssn := { u.ssn with mv := s.ssn.mv + 5 } } : State).replanRest) ∧
    (low = false → s.ssn.avsFault = false → bit (s.reg 0xF0010) 0 = true → u.worstMargin < tgt → s.ssn.mv < 880 →
      exec (.avsStepSettled true r) s = .next { up with ssn := { up.ssn with
        mv := s.ssn.mv + 5, mBefore := u.worstMargin, avsTries := 0, plan := .voltage false } }) ∧
    (low = false → tgt ≤ u.worstMargin → exec (.avsStepSettled true r) s = .next up.replanRest)) ∧
  (∀ (lane before eye : Nat) (back : Bool) (s : State), s.on → s.ssn.plan = .serdes lane before back → lane < 10 →
    let p : PortId := Fin.ofNat 11 lane
    let u := ({ s with
      ssn := { s.ssn with eyes := s.ssn.eyes.set lane eye }
      mac := { s.mac with ports := s.mac.ports.set p { s.mac.ports[p] with eye := eye } } } : State)
    let w := u.moveCtle lane (-2)
    (before < eye → exec (.eyeRemeasure eye) s = .next (u.serdesFrom (lane + 1))) ∧
    (eye ≤ before → back = false → exec (.eyeRemeasure eye) s = .next { w with ssn := { w.ssn with plan := .serdes lane before true } }) ∧
    (eye ≤ before → back = true → exec (.eyeRemeasure eye) s = .next ((u.moveCtle lane 1).serdesFrom (lane + 1)))) ∧
  (∀ (lane : Nat) (d : Int) (s : State), lane < 10 →
    let p : PortId := Fin.ofNat 11 lane
    let off : Nat := 0x50006 + 0x400 * lane
    let code := max 0 (min 15 ((fld (s.reg off) 11 4 : Int) + d))
    let t := s.moveCtle lane d
    (fld (t.reg off) 11 4 : Int) = code ∧ (t.mac.ports[p].ctleTarget : Int) = code ∧
      (∀ c, c ≠ off → t.reg c = s.reg c) ∧ (∀ q : PortId, q ≠ p → t.mac.ports[q] = s.mac.ports[q]) ∧
      t = { s with regs := t.regs, mac := { s.mac with ports := t.mac.ports } }) ∧
  (∀ (m : Nat) (s : State), m < 8 → s.reg 0xF0026 ≠ 0 → s.reg 0xF0028 ≠ 0 →
    let t := s.replanKerfs
    let drift := s.drift.natAbs / 2 ^ 24 / (s.reg 0xF0026).toNat
    let pad := s.ssn.slowdown / (s.reg 0xF0028).toNat
    let want := fld (s.imageReg (0x40300 + 4 * m)) 0 15 + t.ssn.kstage * (s.reg 0xF002A).toNat
    t.ssn.kstage = max s.ssn.kstage (min 7 (max drift pad)) ∧
      (fld (s.reg (0x40300 + 4 * m)) 0 15 ≠ want % 32768 → (t.reg (0x40302 + 4 * m)).toNat = want % 32768 + 32768) ∧
      (fld (s.reg (0x40300 + 4 * m)) 0 15 = want % 32768 → t.reg (0x40302 + 4 * m) = s.reg (0x40302 + 4 * m)) ∧
      t.reg (0x40300 + 4 * m) = s.reg (0x40300 + 4 * m) ∧
      t = { s with ssn := { s.ssn with kstage := t.ssn.kstage }, regs := t.regs, free := s.free + 1 }) ∧
  (∀ (s : State),
    let t := s.replanReserve
    let low := ((s.margins.drop 36).take 8).any (fun x => decide (x < (fld (s.reg 0xF0020) 0 8 : Int) + (fld (s.reg 0xF0022) 0 8 : Int)))
    let r := if low then min 15 (s.ssn.rsteps + 1) else s.ssn.rsteps
    t = { s with ssn := { s.ssn with rsteps := r }, regs := t.regs, fresh := t.fresh } ∧
      (low = false → t.fresh = s.fresh ∧ t.reg 0xF0004 = s.reg 0xF0004) ∧
      (∀ m, m < 8 →
        let now := fld (s.reg (0x20100 + 0x20 * m)) 4 8
        let top := fld (s.reg (0x20102 + 0x20 * m)) 0 8
        let want := min (fld (s.imageReg (0x20100 + 0x20 * m)) 4 8 + t.ssn.rsteps * fld (s.reg 0xF0030) 0 8) top
        (now ≠ want → t.reg (0x20110 + 0x20 * m) = BitVec.ofNat 16 want ||| 0x100) ∧
          (now = want → t.reg (0x20110 + 0x20 * m) = s.reg (0x20110 + 0x20 * m)) ∧
          (low = true → top ≤ now → bit (t.reg 0xF0004) 4 = true)))

/-- R468 to R473: a clamp and its log, and the release of clamps. -/
def Obligations.ClampsAndReleases : Prop :=
  (∀ (h : HearthId) (cause : Nat) (a : Addr) (s : State), s.hearth[h].st ≠ .clamped → cause < 16 →
    let t := s.clampHearth h cause a
    let e : ClampRec := { target := h.val, cause := cause, addr := a, tick := BitVec.ofNat 16 s.tick.tick, beat := s.time.beat }
    t.hearth = s.hearth.set h { s.hearth[h] with st := .clamped, stall := none, wdgEnd := none } ∧
      bit (t.reg 0xF0004) 10 = true ∧ t.tick.tasks[h] = none ∧ t.bank = s.bank ∧ t.flue = s.flue ∧
      (s.ssn.clog.length < 8 → e ∈ t.ssn.clog ∧ t.ssn.clog.length = s.ssn.clog.length + 1 ∧ ∀ x ∈ s.ssn.clog, x ∈ t.ssn.clog) ∧
      (8 ≤ s.ssn.clog.length → t.ssn.clog = s.ssn.clog ∧ bit (t.reg 0xF0004) 11 = true) ∧
      (∀ off, off ≠ 0xF0004 → off ≠ 0x90004 + 0x200 * h.val → t.reg off = s.reg off)) ∧
  (∀ (m : Master) (s : State), s.reads m 0xF0306 → s.ssn.clog = [] →
    ∃ t, exec (.clogRead m) s = .next t ∧ t.resp[m].value = 0 ∧ t.resp[m].error = false ∧
      t = { s with latch := t.latch, resp := t.resp }) ∧
  (∀ (m : Master) (e : ClampRec) (r : List ClampRec) (s : State), s.reads m 0xF0306 → s.ssn.clog = e :: r → s.ssn.clogSpill = none →
    e.beat ≠ s.time.beat → e.target < 128 → e.cause < 16 →
    ∃ t, exec (.clogRead m) s = .next t ∧ t.resp[m].value.toNat = e.target + 128 * e.cause ∧ t.ssn = { s.ssn with clog := r } ∧
      t.latched m 0xF0308 0 = BitVec.ofNat 16 e.addr.toNat ∧ t.latched m 0xF030A 0 = BitVec.ofNat 16 (e.addr.toNat / 65536) ∧
      t.latched m 0xF030C 0 = e.tick ∧ t = { s with ssn := t.ssn, latch := t.latch, resp := t.resp }) ∧
  (∀ (m : Master) (s : State), s.reads m 0xF0306 → ∃ t, exec (.clogRead m) s = .next t ∧ t.resp[m].error = false ∧
    t = { s with ssn := t.ssn, latch := t.latch, regs := t.regs, fresh := t.fresh, resp := t.resp }) ∧
  (∀ (m : Master) (v : Word) (s : State), s.writes m 0xF0312 →
    let off := ({ s with ssn := { s.ssn with unclampArmed := false } } : State)
    let on := ({ s with ssn := { s.ssn with unclampArmed := true } } : State)
    (s.ssn.unclampArmed = false → v = 0x5EA1 → exec (.unclamp m v) s = .next (on.respond m 0 false)) ∧
    (s.ssn.unclampArmed = false → v ≠ 0x5EA1 → exec (.unclamp m v) s = .next ((s.raise 0xF0004 12).respond m 0 false)) ∧
    (s.ssn.unclampArmed = true → v ≠ 0xC1A5 → exec (.unclamp m v) s = .next ((off.raise 0xF0004 12).respond m 0 false))) ∧
  (∀ (m : Master) (s : State), s.writes m 0xF0312 → s.ssn.unclampArmed = true →
    let sel := fld (s.reg 0xF0310) 0 7
    let none' := ((({ s with ssn := { s.ssn with unclampArmed := false } } : State).raise 0xF0004 12).respond m 0 false)
    (12 ≤ sel → sel < 16 ∨ (20 ≤ sel ∧ sel < 32) ∨ (64 ≤ sel ∧ sel < 127) → exec (.unclamp m 0xC1A5) s = .next none') ∧
    (∀ h : HearthId, sel = h.val → s.hearth[h].st ≠ .clamped → exec (.unclamp m 0xC1A5) s = .next none') ∧
    (∀ n : Fin 4, sel = 16 + n.val → s.host[n].fenced = false → exec (.unclamp m 0xC1A5) s = .next none') ∧
    (∀ j : JigId, sel = 32 + j.val → s.jig[j].clamped = false → exec (.unclamp m 0xC1A5) s = .next none') ∧
    (sel = 127 → (∀ h : HearthId, s.hearth[h].st ≠ .clamped) → (∀ n : Fin 4, s.host[n].fenced = false) →
      (∀ j : JigId, s.jig[j].clamped = false) → exec (.unclamp m 0xC1A5) s = .next none')) ∧
  (∀ (m : Master) (h : HearthId) (s : State), s.writes m 0xF0312 → s.ssn.unclampArmed = true → fld (s.reg 0xF0310) 0 7 = h.val →
    s.hearth[h].st = .clamped →
    ∃ t, exec (.unclamp m 0xC1A5) s = .next t ∧ t.hearth = s.hearth.set h { s.hearth[h] with
        st := .stopped, stall := none, resume := false, wdgEnd := none } ∧
      (s.inRun = true → t.epoch[h.val]'(by omega) = (s.epoch[h.val]'(by omega)) + 1) ∧ t.ssn.unclampArmed = false ∧
      t.ssn.clampHrt.getLsbD h.val = false ∧ bit (t.reg (0x90000 + 0x200 * h.val)) 0 = false ∧ t.hold[hearthMaster h] = none ∧
      (∀ off, off ≠ 0x90000 + 0x200 * h.val → t.reg off = s.reg off) ∧
      t = { s with
        hearth := t.hearth, epoch := t.epoch, hold := t.hold, flue := t.flue, regs := t.regs, resp := t.resp
        ssn := { s.ssn with unclampArmed := false, clampHrt := t.ssn.clampHrt } }) ∧
  (∀ (m : Master) (n : Fin 4) (s : State), s.writes m 0xF0312 → s.ssn.unclampArmed = true → fld (s.reg 0xF0310) 0 7 = 16 + n.val →
    s.host[n].fenced = true →
    ∃ t, exec (.unclamp m 0xC1A5) s = .next t ∧ t.host = s.host.set n { s.host[n] with
        fenced := false, queue := [], err := false, abort := false, waits := none, out := [] } ∧
      (s.inRun = true → t.epoch[12 + n.val]'(by omega) = (s.epoch[12 + n.val]'(by omega)) + 1) ∧
      bit (t.reg 0xD0700) (8 + n.val) = true ∧ t.ssn.clampHost.getLsbD n.val = false ∧
      (∀ off, off ≠ 0xD0700 → t.reg off = s.reg off) ∧
      t = { s with
        host := t.host, epoch := t.epoch, hold := t.hold, flue := t.flue, latch := t.latch, regs := t.regs
        fresh := t.fresh, resp := t.resp, ssn := { s.ssn with unclampArmed := false, clampHost := t.ssn.clampHost } }) ∧
  (∀ (m : Master) (j : JigId) (s : State), s.writes m 0xF0312 → s.ssn.unclampArmed = true → fld (s.reg 0xF0310) 0 7 = 32 + j.val →
    s.jig[j].clamped = true →
    exec (.unclamp m 0xC1A5) s = .next (({ s with
      ssn := { s.ssn with unclampArmed := false }
      jig := s.jig.set j { s.jig[j] with clamped := false, en := false, halted := false } } : State).respond m 0 false))

/-! ## The register map (19_register_map.md) -/

/-- R480: a read of a _LO register returns its word and latches the _HI word for the reading master; a read of _HI returns
the latched word, or the live one where none is latched; what keeps the latches and what clears them. The word that a
register shows at present is what a master without latches reads of it. -/
def Obligations.PairReads : Prop :=
  (∀ (m : Master) (a : Addr) (s : State),
    let off : Nat := a.toNat - 0x3000000
    let live := fun (o : Nat) => ({ s with latch := [] } : State).blockRead m o
    pairAt a 0 = true → readClears off = false → s.reads m off →
    ∃ t, exec (.pairLoRead m a) s = .next t ∧ t.resp[m] = { value := (live off).2, error := false } ∧
      Sparse.get none t.latch (latchKey m (off + 2)) = some (live (off + 2)).2 ∧
      (∀ k, k ≠ latchKey m (off + 2) → Sparse.get none t.latch k = Sparse.get none s.latch k) ∧
      t = { s with latch := t.latch, resp := t.resp }) ∧
  (∀ (m : Master) (a : Addr) (s : State),
    let off : Nat := a.toNat - 0x3000000
    let live := ({ s with latch := [] } : State).blockRead m off
    let held := Sparse.get none s.latch (latchKey m off)
    pairAt a 2 = true → s.reads m off →
    s.busRead m a.toNat = (s, .ok (held.getD live.2))) ∧
  (∀ (h : HearthId) (cause : Nat) (a : Addr) (s : State),
    (s.enterStopped h).latch = s.latch ∧ (s.haltHearth h).latch = s.latch ∧ (s.clampHearth h cause a).latch = s.latch ∧
      (s.releaseHearth h).latch = s.latch) ∧
  (∀ (n : Fin 4) (off : Nat) (s : State), off < 0x100000 →
    let t := s.hostReset n
    Sparse.get none t.latch (latchKey (hostMaster n) off) = none ∧
      (∀ m : Master, m ≠ hostMaster n → Sparse.get none t.latch (latchKey m off) = Sparse.get none s.latch (latchKey m off)))

/-- R481: a write of a _LO register is held for the writing master, one word each; a write of _HI writes both halves and
consumes the hold, whatever pair the held word names; a host reset and STOPPED discard it. The halves are given for pairs
whose bits are all RW, and for those with a narrower _HI. -/
def Obligations.PairWrites : Prop :=
  (∀ (m : Master) (a : Addr) (v : Word) (s : State),
    let off : Nat := a.toNat - 0x3000000
    pairAt a 0 = true → s.writes m off →
    ∃ t, exec (.pairLoWrite m a v) s = .next t ∧ t.hold = s.hold.set m (some (off, v)) ∧ t.resp[m].error = false ∧
      t = { s with hold := t.hold, resp := t.resp, kdl := { s.kdl with advArmed := t.kdl.advArmed } }) ∧
  (∀ (m : Master) (a : Addr) (v : Word) (s : State),
    let off : Nat := a.toNat - 0x3000000
    pairAt a 2 = true → s.writes m off →
    ∃ t, exec (.pairHiWrite m a v) s = .next t ∧ t.hold[m] = none ∧ t.resp[m].error = false) ∧
  (∀ (m : Master) (lo : Nat) (mask v : Word) (s : State),
    (lo, mask) ∈ [(0x30010, 3), (0x30030, 3), (0xE0102, 0xFFFF), (0x53002, 0x3FF), (0x5300A, 0x3FF)] →
    s.writes m (lo + 2) → (lo + 2) / 65536 ≠ 14 ∨ s.kdl.advArmed = false →
    let low := ((s.hold[m].filter (fun e => e.1 == lo)).map (fun e => e.2)).getD (s.reg lo)
    ∃ t, exec (.pairHiWrite m (BitVec.ofNat 26 (0x3000002 + lo)) v) s = .next t ∧ t.reg lo = low ∧ t.reg (lo + 2) = (s.reg (lo + 2) &&& ~~~mask) ||| (v &&& mask) ∧
      (∀ off, off ≠ lo → off ≠ lo + 2 → t.reg off = s.reg off) ∧ t.hold = s.hold.set m none ∧
      t = { s with regs := t.regs, hold := t.hold, resp := t.resp }) ∧
  (∀ (n : Fin 4) (h : HearthId) (s : State),
    (s.hostReset n).hold = s.hold.set (hostMaster n) none ∧ (s.enterStopped h).hold = s.hold.set (hearthMaster h) none)

/-- R14, R15, R476, R477, R482, R489: event registers, interrupt enables, byte writes, reserved offsets, registers that a
read clears, and accesses outside a master's rights. -/
def Obligations.RegisterAccess : Prop :=
  (∀ (m : Master) (off : Nat) (bits v : Word) (s : State),
    (off, bits) ∈ [(0x10004, 0xFF), (0x20004, 0x1FF), (0x30004, 0x7FF), (0x40004, 0x1FF), (0x60104, 0xFFFF), (0x60204, 0xFFFF),
      (0x70004, 0x7FFF), (0xC0500, 0x3F), (0xF0004, 0x1FFF)] → s.writes m off →
    ∃ t, exec (.registerWrite m .word (BitVec.ofNat 26 (0x3000000 + off)) v) s = .next t ∧ t.reg off = s.reg off &&& ~~~(v &&& bits &&& ~~~s.freshAt off) ∧
      (∀ c, c ≠ off → t.reg c = s.reg c) ∧ t.resp[m].error = false ∧ t = { s with regs := t.regs, resp := t.resp }) ∧
  (∀ (m : Master) (off : Nat) (bits v : Word) (s : State),
    (off, bits) ∈ [(0x10006, 0xFF), (0x20006, 0x1FF), (0x30006, 0x7FF), (0x40006, 0x1FF), (0x60106, 0xFFFF), (0x70006, 0x7FFF),
      (0xC0502, 0x3F), (0xF0006, 0x1FFF), (0x40400, 0xFFF)] → s.writes m off →
    ∃ t, exec (.registerWrite m .word (BitVec.ofNat 26 (0x3000000 + off)) v) s = .next t ∧ t.reg off = (s.reg off &&& ~~~bits) ||| (v &&& bits) ∧
      (∀ c, c ≠ off → t.reg c = s.reg c) ∧ t.resp[m].error = false ∧ t = { s with regs := t.regs, resp := t.resp }) ∧
  (∀ (m : Master) (a : Addr) (v : Word) (s : State), 0x3000000 ≤ a.toNat → a.toNat < 0x3100000 →
    s.writes m (a.toNat / 2 * 2 - 0x3000000) →
    exec (.registerWrite m .low a v) s = .next (s.respond m 0 true) ∧ exec (.registerWrite m .high a v) s = .next (s.respond m 0 true)) ∧
  (∀ (m : Master) (off : Nat) (v : Word) (s : State),
    (0x100 ≤ off ∧ off < 0x10000) ∨ (0x20C80 ≤ off ∧ off < 0x30000) ∨ (0xC0600 ≤ off ∧ off < 0xD0000) → off % 2 = 0 →
    s.writes m off →
    exec (.registerWrite m .word (BitVec.ofNat 26 (0x3000000 + off)) v) s = .next (s.respond m 0 false)) ∧
  (∀ (m : Master) (off : Nat) (s : State),
    (0x100 ≤ off ∧ off < 0x10000) ∨ (0x20C80 ≤ off ∧ off < 0x30000) ∨ (0xC0600 ≤ off ∧ off < 0xD0000) → off % 2 = 0 →
    s.reads m off → s.reg off = 0 →
    s.busRead m (0x3000000 + off) = (s, .ok 0)) ∧
  (∀ (m : Master) (a : Addr) (s : State),
    let off : Nat := a.toNat - 0x3000000
    (off / 65536 = 2 ∨ off / 65536 = 5 ∨ off / 65536 = 6) → 0x3000000 ≤ a.toNat → a.toNat % 2 = 0 → readClears off = true → s.reads m off →
    let pair := pairAt a 0
    ∃ t, exec (.readClear m a) s = .next t ∧ t.resp[m] = { value := s.reg off, error := false } ∧ t.reg off = s.freshAt off ∧
      (pair = true → t.reg (off + 2) = s.freshAt (off + 2) ∧ t.latched m (off + 2) 0 = s.reg (off + 2)) ∧
      (∀ c, c ≠ off → (pair = false ∨ c ≠ off + 2) → t.reg c = s.reg c) ∧
      t = { s with regs := t.regs, latch := t.latch, resp := t.resp }) ∧
  (∀ (m : Master) (i : Fin 4) (s : State), s.reads m (0x4040E + 32 * i.val) →
    ∃ t, exec (.readClear m (BitVec.ofNat 26 (0x304040E + 32 * i.val))) s = .next t ∧ t.resp[m].value = s.swf.mirrors[i].lost ∧
      t.swf.mirrors[i].lost = s.freshAt (0x4040E + 32 * i.val) ∧ t = { s with
        swf := { s.swf with mirrors := s.swf.mirrors.set i { s.swf.mirrors[i] with lost := t.swf.mirrors[i].lost } }, resp := t.resp }) ∧
  (∀ (h : HearthId) (a : Addr) (v : Word) (s : State), s.on → s.hearth[h].st = .running → s.hearth[h].stall = none →
    0x3000000 ≤ a.toNat → a.toNat < 0x3200000 →
    let m := hearthMaster h
    0x3100000 ≤ a.toNat ∨ s.mayAccess m (a.toNat / 2 * 2 - 0x3000000) true = false →
    ∃ t, exec (.registerWrite (hearthMaster h) .word a v) s = .next t ∧ t.hearth[h].st = .clamped ∧ t.resp[m].error = true ∧
      (∀ off, off ≠ 0xF0004 → off ≠ 0x90004 + 0x200 * h.val → t.reg off = s.reg off) ∧ t.bank = s.bank ∧
      (∀ g : HearthId, g ≠ h → t.hearth[g] = s.hearth[g])) ∧
  (∀ (n : Fin 4) (a : Addr) (v : Word) (s : State), s.on → s.hostWorks n = true → s.host[n].fenced = false →
    0x3000000 ≤ a.toNat →
    let m := hostMaster n
    0x3100000 ≤ a.toNat ∨ s.mayAccess m (a.toNat / 2 * 2 - 0x3000000) true = false →
    ∃ t, exec (.registerWrite (hostMaster n) .word a v) s = .next t ∧ t.host[n].fenced = true ∧ t.resp[m].error = true ∧
      bit (t.reg 0xD0700) n.val = true ∧ (∀ off, off ≠ 0xF0004 → off ≠ 0xD0700 → t.reg off = s.reg off) ∧ t.bank = s.bank ∧
      t.hearth = s.hearth)

/-! ## The whole block -/

/-- A step takes the command at the front of the queue. On an empty queue one beat passes, unless the device is held in
reset: that is the model's choice (log entry 1). -/
def Obligations.StepTakesTheFront : Prop :=
  (∀ (c : Instr) (rest : List Instr) (s : State), s.pending = c :: rest → step s = exec c { s with pending := rest }) ∧
  (∀ (s : State), s.pending = [] → s.kdl.up = true →
    ∃ t, step s = .next t ∧ t.time.beat = s.time.beat + 1 ∧ t.time.todx = s.time.todx + s.time.rate ∧
      t = { s with time := { s.time with beat := t.time.beat, todx := t.time.todx }, host := t.host, ssn := t.ssn }) ∧
  (∀ (s : State), s.pending = [] → s.kdl.up = false → step s = .next s)

/-- Reset: the values that the spec gives (R34, R42, R52, R198, R289, R400, R426, R437, R457, R474), and that the tables
are well formed. -/
def Obligations.ResetState : Prop :=
  let s := State.reset
  s.pending = [] ∧ s.memWf ∧ Sparse.wf 0 s.swf.mt ∧ s.time.beat = 0 ∧ s.time.tod = 0 ∧ s.tick.running = false ∧
    (∀ h : HearthId, s.hearth[h].st = .stopped) ∧ (∀ c : ChanId, s.ring[c].st = .off) ∧ (∀ j : JigId, s.jig[j].running = false) ∧
    (∀ b : Fin 64, s.reg (0xC0000 + 16 * b.val) = 15 ∧ s.bank.banks[b].asleep = false) ∧ (∀ k : Fin 16, s.epoch[k] = 0) ∧
    (∀ n : Fin 4, s.host[n].fenced = false ∧ s.host[n].link = false) ∧ (∀ f : Fin 64, s.flue[f].full = false) ∧
    s.kdl.st = .sense ∧ s.kdl.slot = none ∧ s.ssn.mv = 800 ∧ s.ssn.gain = 8 ∧ s.ssn.eosHrs = 0xFFFF ∧ s.ssn.plan = .idle ∧
    s.reg 0 = 0x6412 ∧ s.reg 0x10200 = 0x0330 ∧ s.reg 0x20004 = 0

/-- Every step keeps memory and the MAC address table in their canonical forms. -/
def Obligations.StepKeepsTables : Prop :=
  ∀ (s t : State), s.memWf → Sparse.wf 0 s.swf.mt → step s = .next t → t.memWf ∧ Sparse.wf 0 t.swf.mt

/-- R315 to R323, R336: every instruction that the bytes of a hearth can spell is spelt by the encoder, with every operand
that it has: decoding what it writes gives the same instruction, of the same length. -/
def Obligations.HearthEncodingRoundTrip : Prop :=
  ∀ (flat tact : Bool) (entry : Nat → Word) (l : List Byte) (i : HInstr), l.length = needLen entry l →
    hdecode flat tact entry l = .ok i → hdecode flat tact entry (hencode i) = .ok i ∧ (hencode i).length = i.len
end

