-- ==== Sys2Proof/Laws/Map.lean ====
section
/-! SUPPORT. Laws of sparse tables and of memory: what a write leaves at its key and at the others, and that every
operation keeps the canonical form. -/

namespace Sys2Proof.Machine

open Sys2Proof

section Sparse

variable {α : Type} (d : α)

/-! ## Reading one key -/

@[simp] theorem Sparse.get_nil (k : Nat) : Sparse.get d ([] : Sparse α) k = d := rfl

theorem Sparse.get_cons (e : Nat × α) (l : Sparse α) (k : Nat) :
    Sparse.get d (e :: l) k = if e.1 = k then e.2 else Sparse.get d l k := by
  by_cases h : e.1 = k <;> simp [Sparse.get, h]

theorem Sparse.erase_cons (e : Nat × α) (l : Sparse α) (k : Nat) :
    Sparse.erase (e :: l) k = if e.1 = k then Sparse.erase l k else e :: Sparse.erase l k := by
  by_cases h : e.1 = k <;> simp [Sparse.erase, h]

@[simp] theorem Sparse.get_erase_self (l : Sparse α) (k : Nat) : Sparse.get d (l.erase k) k = d := by
  induction l with
  | nil => rfl
  | cons e r ih =>
    rw [Sparse.erase_cons]
    split
    · exact ih
    · rw [Sparse.get_cons, if_neg ‹_›, ih]

theorem Sparse.get_erase_ne (l : Sparse α) {k j : Nat} (h : j ≠ k) :
    Sparse.get d (l.erase k) j = Sparse.get d l j := by
  induction l with
  | nil => rfl
  | cons e r ih =>
    rw [Sparse.erase_cons, Sparse.get_cons]
    split
    · rw [if_neg (by omega), ih]
    · rw [Sparse.get_cons, ih]

theorem Sparse.get_insert_ne (l : Sparse α) {k j : Nat} (x : α) (h : j ≠ k) :
    Sparse.get d (Sparse.insert k x l) j = Sparse.get d l j := by
  induction l with
  | nil => simp [Sparse.insert, Sparse.get_cons, Ne.symm h]
  | cons e r ih =>
    simp only [Sparse.insert]
    split
    · rw [Sparse.get_cons, if_neg (Ne.symm h)]
    · rw [Sparse.get_cons, Sparse.get_cons, ih]

theorem Sparse.get_insert_self (l : Sparse α) (k : Nat) (x : α) (h : ∀ e ∈ l, e.1 ≠ k) :
    Sparse.get d (Sparse.insert k x l) k = x := by
  induction l with
  | nil => simp [Sparse.insert, Sparse.get_cons]
  | cons e r ih =>
    simp only [Sparse.insert]
    split
    · simp [Sparse.get_cons]
    · rw [Sparse.get_cons, if_neg (h e (by simp)), ih (fun e he => h e (by simp [he]))]

theorem Sparse.mem_erase_ne (l : Sparse α) (k : Nat) : ∀ e ∈ l.erase k, e.1 ≠ k := by
  simp [Sparse.erase]

variable [DecidableEq α]

/-- A read after a write to the same key gives the value written. -/
@[simp] theorem Sparse.get_set_self (l : Sparse α) (k : Nat) (x : α) : Sparse.get d (l.set d k x) k = x := by
  unfold Sparse.set
  split
  · rw [Sparse.get_erase_self, ‹x = d›]
  · exact Sparse.get_insert_self d _ _ _ (Sparse.mem_erase_ne l k)

/-- A write leaves every other key alone. -/
theorem Sparse.get_set_ne (d' : α) (l : Sparse α) {k j : Nat} (x : α) (h : j ≠ k) :
    Sparse.get d' (l.set d k x) j = Sparse.get d' l j := by
  unfold Sparse.set
  split
  · exact Sparse.get_erase_ne d' l h
  · rw [Sparse.get_insert_ne d' _ x h, Sparse.get_erase_ne d' l h]

/-- Keys outside the span of consecutive writes stay as they are. -/
theorem Sparse.get_setAll_outside (l : Sparse α) (k : Nat) (xs : List α) {j : Nat} (h : j < k ∨ k + xs.length ≤ j) :
    Sparse.get d (l.setAll d k xs) j = Sparse.get d l j := by
  induction xs generalizing l k with
  | nil => rfl
  | cons x r ih =>
    have hj : j ≠ k := by simp at h; omega
    rw [Sparse.setAll, ih _ _ (by simp at h; omega), Sparse.get_set_ne d d l x hj]

/-- Consecutive reads give back what consecutive writes have written. -/
theorem Sparse.getAll_setAll (l : Sparse α) (k : Nat) (xs : List α) :
    Sparse.getAll d (l.setAll d k xs) k xs.length = xs := by
  induction xs generalizing l k with
  | nil => rfl
  | cons x r ih =>
    rw [List.length_cons, Sparse.getAll, Sparse.setAll, ih,
      Sparse.get_setAll_outside d _ _ _ (Or.inl (Nat.lt_succ_self k)), Sparse.get_set_self]

/-! ## The canonical form -/

omit [DecidableEq α] in
theorem Sparse.wf_nil : Sparse.wf d ([] : Sparse α) := ⟨List.Pairwise.nil, by simp⟩

omit [DecidableEq α] in
theorem Sparse.wf_erase {l : Sparse α} (h : Sparse.wf d l) (k : Nat) : Sparse.wf d (l.erase k) :=
  ⟨h.1.filter _, fun e he => h.2 e (List.mem_of_mem_filter he)⟩

omit [DecidableEq α] in
theorem Sparse.mem_insert {l : Sparse α} {k : Nat} {x : α} {e : Nat × α} (h : e ∈ Sparse.insert k x l) :
    e = (k, x) ∨ e ∈ l := by
  induction l with
  | nil => simpa [Sparse.insert] using h
  | cons a r ih =>
    simp only [Sparse.insert] at h
    split at h
    · simpa using h
    · rcases List.mem_cons.1 h with rfl | h
      · simp
      · rcases ih h with h | h <;> simp [h]

omit [DecidableEq α] in
theorem Sparse.wf_insert {l : Sparse α} (h : Sparse.wf d l) {k : Nat} {x : α} (hx : x ≠ d) (hk : ∀ e ∈ l, e.1 ≠ k) :
    Sparse.wf d (Sparse.insert k x l) := by
  induction l with
  | nil => exact ⟨by simp [Sparse.insert], by simp [Sparse.insert, hx]⟩
  | cons a r ih =>
    obtain ⟨hp, hd⟩ := h
    have hr := ih ⟨(List.pairwise_cons.1 hp).2, fun e he => hd e (by simp [he])⟩ (fun e he => hk e (by simp [he]))
    have ha := (List.pairwise_cons.1 hp).1
    simp only [Sparse.insert]
    split
    · refine ⟨List.pairwise_cons.2 ⟨fun e he => ?_, hp⟩, fun e he => ?_⟩
      · rcases List.mem_cons.1 he with rfl | he
        · assumption
        · exact Nat.lt_trans ‹_› (ha e he)
      · rcases List.mem_cons.1 he with rfl | he
        · exact hx
        · exact hd e he
    · have hak : a.1 ≠ k := hk a (by simp)
      refine ⟨List.pairwise_cons.2 ⟨fun e he => ?_, hr.1⟩, fun e he => ?_⟩
      · rcases Sparse.mem_insert he with rfl | he
        · simp only; omega
        · exact ha e he
      · rcases List.mem_cons.1 he with rfl | he
        · exact hd _ (by simp)
        · exact hr.2 e he

/-- A write keeps the canonical form. -/
theorem Sparse.wf_set {l : Sparse α} (h : Sparse.wf d l) (k : Nat) (x : α) : Sparse.wf d (l.set d k x) := by
  unfold Sparse.set
  split
  · exact Sparse.wf_erase d h k
  · exact Sparse.wf_insert d (Sparse.wf_erase d h k) ‹_› (Sparse.mem_erase_ne l k)

/-- Consecutive writes keep the canonical form. -/
theorem Sparse.wf_setAll {l : Sparse α} (h : Sparse.wf d l) (k : Nat) (xs : List α) : Sparse.wf d (l.setAll d k xs) := by
  induction xs generalizing l k with
  | nil => exact h
  | cons x r ih => exact ih (Sparse.wf_set d h k x) (k + 1)

/-- A change of every entry keeps the canonical form. -/
theorem Sparse.wf_mapAll {l : Sparse α} (h : Sparse.wf d l) (f : α → α) : Sparse.wf d (Sparse.mapAll d f l) := by
  have hp : (l.map (fun e => (e.1, f e.2))).Pairwise (fun a b => a.1 < b.1) := List.pairwise_map.2 h.1
  refine ⟨hp.filter _, fun e he => ?_⟩
  simpa using (List.mem_filter.1 he).2

end Sparse

/-! ## Memory -/

theorem Memory.wf_setByte {m : List Host.Cell} (h : Memory.wf m) (a : Nat) (b : Byte) : Memory.wf (Memory.setByte m a b) :=
  Sparse.wf_set 0 h a b

theorem Memory.wf_setWord {m : List Host.Cell} (h : Memory.wf m) (a : Nat) (w : Word) : Memory.wf (Memory.setWord m a w) :=
  Memory.wf_setByte (Memory.wf_setByte h _ _) _ _

theorem Memory.wf_setBytes {m : List Host.Cell} (h : Memory.wf m) (a : Nat) (l : List Byte) :
    Memory.wf (Memory.setBytes m a l) :=
  Sparse.wf_setAll 0 h a l

@[simp] theorem Memory.byte_setByte_self (m : List Host.Cell) (a : Nat) (b : Byte) :
    Memory.byte (Memory.setByte m a b) a = b :=
  Sparse.get_set_self 0 m a b

theorem Memory.byte_setByte_ne (m : List Host.Cell) {a c : Nat} (b : Byte) (h : c ≠ a) :
    Memory.byte (Memory.setByte m a b) c = Memory.byte m c :=
  Sparse.get_set_ne 0 0 m b h

/-- A word written reads back, low byte first. -/
@[simp] theorem Memory.word_setWord_self (m : List Host.Cell) (a : Nat) (w : Word) :
    Memory.word (Memory.setWord m a w) a = w := by
  unfold Memory.word Memory.setWord
  rw [Memory.byte_setByte_self, Memory.byte_setByte_ne _ _ (by omega), Memory.byte_setByte_self]
  ext i hi
  simp only [BitVec.getElem_append, BitVec.truncate_eq_setWidth, BitVec.getElem_setWidth, BitVec.getLsbD_ushiftRight]
  split
  · simp [BitVec.getLsbD_eq_getElem hi]
  · rw [show 8 + (i - 8) = i by omega, BitVec.getLsbD_eq_getElem hi]

/-- A word written leaves every other byte alone. -/
theorem Memory.byte_setWord_ne (m : List Host.Cell) {a c : Nat} (w : Word) (h : c ≠ a) (h1 : c ≠ a + 1) :
    Memory.byte (Memory.setWord m a w) c = Memory.byte m c := by
  unfold Memory.setWord
  rw [Memory.byte_setByte_ne _ _ h1, Memory.byte_setByte_ne _ _ h]

/-- Bytes written leave every byte outside them alone. -/
theorem Memory.byte_setBytes_outside (m : List Host.Cell) (a : Nat) (l : List Byte) {c : Nat}
    (h : c < a ∨ a + l.length ≤ c) : Memory.byte (Memory.setBytes m a l) c = Memory.byte m c :=
  Sparse.get_setAll_outside 0 m a l h

/-- Bytes written read back. -/
theorem Memory.bytes_setBytes (m : List Host.Cell) (a : Nat) (l : List Byte) :
    Memory.bytes (Memory.setBytes m a l) a l.length = l :=
  Sparse.getAll_setAll 0 m a l

/-! ## Vectors -/

@[simp] theorem upd_self {α : Type} {n : Nat} (v : Vector α n) (i : Fin n) (f : α → α) : (upd v i f)[i] = f v[i] := by
  simp [upd]

@[simp] theorem upd_val {α : Type} {n : Nat} (v : Vector α n) (i : Fin n) (f : α → α) (h : i.val < n) :
    (upd v i f)[i.val]'h = f v[i] := by
  simp [upd]

theorem upd_ne {α : Type} {n : Nat} (v : Vector α n) {i j : Fin n} (f : α → α) (h : j ≠ i) : (upd v i f)[j] = v[j] := by
  have : i.val ≠ j.val := fun e => h (Fin.ext e.symm)
  simp [upd, this]

@[simp] theorem finOf_lt {n : Nat} (i : Fin n) : finOf n i.val = some i := by simp [finOf]

end Sys2Proof.Machine
end

