-- ==== Sys2Proof/Laws/State.lean ====
section
/-! SUPPORT. What each named update of the state leaves in each field, all true by definition, so that no proof unfolds
a record update. The structure update `mapX` changes part X, `setReg` a register, `respond` a master's response. -/

namespace Sys2Proof.Machine

open Sys2Proof

/-! ## setReg -/

section
variable (s : State) (o : Nat) (v : Word)

@[simp] theorem State.setReg_pending : (s.setReg o v).pending = s.pending := rfl
@[simp] theorem State.setReg_time : (s.setReg o v).time = s.time := rfl
@[simp] theorem State.setReg_tick : (s.setReg o v).tick = s.tick := rfl
@[simp] theorem State.setReg_jnr : (s.setReg o v).jnr = s.jnr := rfl
@[simp] theorem State.setReg_swf : (s.setReg o v).swf = s.swf := rfl
@[simp] theorem State.setReg_mac : (s.setReg o v).mac = s.mac := rfl
@[simp] theorem State.setReg_ring : (s.setReg o v).ring = s.ring := rfl
@[simp] theorem State.setReg_can : (s.setReg o v).can = s.can := rfl
@[simp] theorem State.setReg_jig : (s.setReg o v).jig = s.jig := rfl
@[simp] theorem State.setReg_hearth : (s.setReg o v).hearth = s.hearth := rfl
@[simp] theorem State.setReg_mot : (s.setReg o v).mot = s.mot := rfl
@[simp] theorem State.setReg_fio : (s.setReg o v).fio = s.fio := rfl
@[simp] theorem State.setReg_bank : (s.setReg o v).bank = s.bank := rfl
@[simp] theorem State.setReg_host : (s.setReg o v).host = s.host := rfl
@[simp] theorem State.setReg_flue : (s.setReg o v).flue = s.flue := rfl
@[simp] theorem State.setReg_epoch : (s.setReg o v).epoch = s.epoch := rfl
@[simp] theorem State.setReg_kdl : (s.setReg o v).kdl = s.kdl := rfl
@[simp] theorem State.setReg_ssn : (s.setReg o v).ssn = s.ssn := rfl
@[simp] theorem State.setReg_regs : (s.setReg o v).regs = Sparse.set (Reg.resetOf o) s.regs o v := rfl
@[simp] theorem State.setReg_hold : (s.setReg o v).hold = s.hold := rfl
@[simp] theorem State.setReg_latch : (s.setReg o v).latch = s.latch := rfl
@[simp] theorem State.setReg_gp : (s.setReg o v).gp = s.gp := rfl
@[simp] theorem State.setReg_fresh : (s.setReg o v).fresh = s.fresh := rfl
@[simp] theorem State.setReg_resp : (s.setReg o v).resp = s.resp := rfl
@[simp] theorem State.setReg_free : (s.setReg o v).free = s.free := rfl
end

/-! ## markFresh -/

section
variable (s : State) (o : Nat) (v : Word)

@[simp] theorem State.markFresh_pending : (s.markFresh o v).pending = s.pending := rfl
@[simp] theorem State.markFresh_time : (s.markFresh o v).time = s.time := rfl
@[simp] theorem State.markFresh_tick : (s.markFresh o v).tick = s.tick := rfl
@[simp] theorem State.markFresh_jnr : (s.markFresh o v).jnr = s.jnr := rfl
@[simp] theorem State.markFresh_swf : (s.markFresh o v).swf = s.swf := rfl
@[simp] theorem State.markFresh_mac : (s.markFresh o v).mac = s.mac := rfl
@[simp] theorem State.markFresh_ring : (s.markFresh o v).ring = s.ring := rfl
@[simp] theorem State.markFresh_can : (s.markFresh o v).can = s.can := rfl
@[simp] theorem State.markFresh_jig : (s.markFresh o v).jig = s.jig := rfl
@[simp] theorem State.markFresh_hearth : (s.markFresh o v).hearth = s.hearth := rfl
@[simp] theorem State.markFresh_mot : (s.markFresh o v).mot = s.mot := rfl
@[simp] theorem State.markFresh_fio : (s.markFresh o v).fio = s.fio := rfl
@[simp] theorem State.markFresh_bank : (s.markFresh o v).bank = s.bank := rfl
@[simp] theorem State.markFresh_host : (s.markFresh o v).host = s.host := rfl
@[simp] theorem State.markFresh_flue : (s.markFresh o v).flue = s.flue := rfl
@[simp] theorem State.markFresh_epoch : (s.markFresh o v).epoch = s.epoch := rfl
@[simp] theorem State.markFresh_kdl : (s.markFresh o v).kdl = s.kdl := rfl
@[simp] theorem State.markFresh_ssn : (s.markFresh o v).ssn = s.ssn := rfl
@[simp] theorem State.markFresh_regs : (s.markFresh o v).regs = s.regs := rfl
@[simp] theorem State.markFresh_hold : (s.markFresh o v).hold = s.hold := rfl
@[simp] theorem State.markFresh_latch : (s.markFresh o v).latch = s.latch := rfl
@[simp] theorem State.markFresh_gp : (s.markFresh o v).gp = s.gp := rfl
@[simp] theorem State.markFresh_resp : (s.markFresh o v).resp = s.resp := rfl
@[simp] theorem State.markFresh_free : (s.markFresh o v).free = s.free := rfl
end

/-! ## respond -/

section
variable (s : State) (m : Master) (v : Word) (e : Bool)

@[simp] theorem State.respond_pending : (s.respond m v e).pending = s.pending := rfl
@[simp] theorem State.respond_time : (s.respond m v e).time = s.time := rfl
@[simp] theorem State.respond_tick : (s.respond m v e).tick = s.tick := rfl
@[simp] theorem State.respond_jnr : (s.respond m v e).jnr = s.jnr := rfl
@[simp] theorem State.respond_swf : (s.respond m v e).swf = s.swf := rfl
@[simp] theorem State.respond_mac : (s.respond m v e).mac = s.mac := rfl
@[simp] theorem State.respond_ring : (s.respond m v e).ring = s.ring := rfl
@[simp] theorem State.respond_can : (s.respond m v e).can = s.can := rfl
@[simp] theorem State.respond_jig : (s.respond m v e).jig = s.jig := rfl
@[simp] theorem State.respond_hearth : (s.respond m v e).hearth = s.hearth := rfl
@[simp] theorem State.respond_mot : (s.respond m v e).mot = s.mot := rfl
@[simp] theorem State.respond_fio : (s.respond m v e).fio = s.fio := rfl
@[simp] theorem State.respond_bank : (s.respond m v e).bank = s.bank := rfl
@[simp] theorem State.respond_host : (s.respond m v e).host = s.host := rfl
@[simp] theorem State.respond_flue : (s.respond m v e).flue = s.flue := rfl
@[simp] theorem State.respond_epoch : (s.respond m v e).epoch = s.epoch := rfl
@[simp] theorem State.respond_kdl : (s.respond m v e).kdl = s.kdl := rfl
@[simp] theorem State.respond_ssn : (s.respond m v e).ssn = s.ssn := rfl
@[simp] theorem State.respond_regs : (s.respond m v e).regs = s.regs := rfl
@[simp] theorem State.respond_hold : (s.respond m v e).hold = s.hold := rfl
@[simp] theorem State.respond_latch : (s.respond m v e).latch = s.latch := rfl
@[simp] theorem State.respond_gp : (s.respond m v e).gp = s.gp := rfl
@[simp] theorem State.respond_fresh : (s.respond m v e).fresh = s.fresh := rfl
@[simp] theorem State.respond_resp : (s.respond m v e).resp = upd s.resp m (fun _ => { value := v, error := e }) := rfl
@[simp] theorem State.respond_free : (s.respond m v e).free = s.free := rfl
end

/-! ## holdLo -/

section
variable (s : State) (m : Master) (o : Nat) (v : Word)

@[simp] theorem State.holdLo_pending : (s.holdLo m o v).pending = s.pending := rfl
@[simp] theorem State.holdLo_time : (s.holdLo m o v).time = s.time := rfl
@[simp] theorem State.holdLo_tick : (s.holdLo m o v).tick = s.tick := rfl
@[simp] theorem State.holdLo_jnr : (s.holdLo m o v).jnr = s.jnr := rfl
@[simp] theorem State.holdLo_swf : (s.holdLo m o v).swf = s.swf := rfl
@[simp] theorem State.holdLo_mac : (s.holdLo m o v).mac = s.mac := rfl
@[simp] theorem State.holdLo_ring : (s.holdLo m o v).ring = s.ring := rfl
@[simp] theorem State.holdLo_can : (s.holdLo m o v).can = s.can := rfl
@[simp] theorem State.holdLo_jig : (s.holdLo m o v).jig = s.jig := rfl
@[simp] theorem State.holdLo_hearth : (s.holdLo m o v).hearth = s.hearth := rfl
@[simp] theorem State.holdLo_mot : (s.holdLo m o v).mot = s.mot := rfl
@[simp] theorem State.holdLo_fio : (s.holdLo m o v).fio = s.fio := rfl
@[simp] theorem State.holdLo_bank : (s.holdLo m o v).bank = s.bank := rfl
@[simp] theorem State.holdLo_host : (s.holdLo m o v).host = s.host := rfl
@[simp] theorem State.holdLo_flue : (s.holdLo m o v).flue = s.flue := rfl
@[simp] theorem State.holdLo_epoch : (s.holdLo m o v).epoch = s.epoch := rfl
@[simp] theorem State.holdLo_kdl : (s.holdLo m o v).kdl = s.kdl := rfl
@[simp] theorem State.holdLo_ssn : (s.holdLo m o v).ssn = s.ssn := rfl
@[simp] theorem State.holdLo_regs : (s.holdLo m o v).regs = s.regs := rfl
@[simp] theorem State.holdLo_hold : (s.holdLo m o v).hold = upd s.hold m (fun _ => some (o, v)) := rfl
@[simp] theorem State.holdLo_latch : (s.holdLo m o v).latch = s.latch := rfl
@[simp] theorem State.holdLo_gp : (s.holdLo m o v).gp = s.gp := rfl
@[simp] theorem State.holdLo_fresh : (s.holdLo m o v).fresh = s.fresh := rfl
@[simp] theorem State.holdLo_resp : (s.holdLo m o v).resp = s.resp := rfl
@[simp] theorem State.holdLo_free : (s.holdLo m o v).free = s.free := rfl
end

/-! ## dropHold -/

section
variable (s : State) (m : Master)

@[simp] theorem State.dropHold_pending : (s.dropHold m).pending = s.pending := rfl
@[simp] theorem State.dropHold_time : (s.dropHold m).time = s.time := rfl
@[simp] theorem State.dropHold_tick : (s.dropHold m).tick = s.tick := rfl
@[simp] theorem State.dropHold_jnr : (s.dropHold m).jnr = s.jnr := rfl
@[simp] theorem State.dropHold_swf : (s.dropHold m).swf = s.swf := rfl
@[simp] theorem State.dropHold_mac : (s.dropHold m).mac = s.mac := rfl
@[simp] theorem State.dropHold_ring : (s.dropHold m).ring = s.ring := rfl
@[simp] theorem State.dropHold_can : (s.dropHold m).can = s.can := rfl
@[simp] theorem State.dropHold_jig : (s.dropHold m).jig = s.jig := rfl
@[simp] theorem State.dropHold_hearth : (s.dropHold m).hearth = s.hearth := rfl
@[simp] theorem State.dropHold_mot : (s.dropHold m).mot = s.mot := rfl
@[simp] theorem State.dropHold_fio : (s.dropHold m).fio = s.fio := rfl
@[simp] theorem State.dropHold_bank : (s.dropHold m).bank = s.bank := rfl
@[simp] theorem State.dropHold_host : (s.dropHold m).host = s.host := rfl
@[simp] theorem State.dropHold_flue : (s.dropHold m).flue = s.flue := rfl
@[simp] theorem State.dropHold_epoch : (s.dropHold m).epoch = s.epoch := rfl
@[simp] theorem State.dropHold_kdl : (s.dropHold m).kdl = s.kdl := rfl
@[simp] theorem State.dropHold_ssn : (s.dropHold m).ssn = s.ssn := rfl
@[simp] theorem State.dropHold_regs : (s.dropHold m).regs = s.regs := rfl
@[simp] theorem State.dropHold_hold : (s.dropHold m).hold = upd s.hold m (fun _ => none) := rfl
@[simp] theorem State.dropHold_latch : (s.dropHold m).latch = s.latch := rfl
@[simp] theorem State.dropHold_gp : (s.dropHold m).gp = s.gp := rfl
@[simp] theorem State.dropHold_fresh : (s.dropHold m).fresh = s.fresh := rfl
@[simp] theorem State.dropHold_resp : (s.dropHold m).resp = s.resp := rfl
@[simp] theorem State.dropHold_free : (s.dropHold m).free = s.free := rfl
end

/-! ## latchWord -/

section
variable (s : State) (m : Master) (o : Nat) (v : Word)

@[simp] theorem State.latchWord_pending : (s.latchWord m o v).pending = s.pending := rfl
@[simp] theorem State.latchWord_time : (s.latchWord m o v).time = s.time := rfl
@[simp] theorem State.latchWord_tick : (s.latchWord m o v).tick = s.tick := rfl
@[simp] theorem State.latchWord_jnr : (s.latchWord m o v).jnr = s.jnr := rfl
@[simp] theorem State.latchWord_swf : (s.latchWord m o v).swf = s.swf := rfl
@[simp] theorem State.latchWord_mac : (s.latchWord m o v).mac = s.mac := rfl
@[simp] theorem State.latchWord_ring : (s.latchWord m o v).ring = s.ring := rfl
@[simp] theorem State.latchWord_can : (s.latchWord m o v).can = s.can := rfl
@[simp] theorem State.latchWord_jig : (s.latchWord m o v).jig = s.jig := rfl
@[simp] theorem State.latchWord_hearth : (s.latchWord m o v).hearth = s.hearth := rfl
@[simp] theorem State.latchWord_mot : (s.latchWord m o v).mot = s.mot := rfl
@[simp] theorem State.latchWord_fio : (s.latchWord m o v).fio = s.fio := rfl
@[simp] theorem State.latchWord_bank : (s.latchWord m o v).bank = s.bank := rfl
@[simp] theorem State.latchWord_host : (s.latchWord m o v).host = s.host := rfl
@[simp] theorem State.latchWord_flue : (s.latchWord m o v).flue = s.flue := rfl
@[simp] theorem State.latchWord_epoch : (s.latchWord m o v).epoch = s.epoch := rfl
@[simp] theorem State.latchWord_kdl : (s.latchWord m o v).kdl = s.kdl := rfl
@[simp] theorem State.latchWord_ssn : (s.latchWord m o v).ssn = s.ssn := rfl
@[simp] theorem State.latchWord_regs : (s.latchWord m o v).regs = s.regs := rfl
@[simp] theorem State.latchWord_hold : (s.latchWord m o v).hold = s.hold := rfl
@[simp] theorem State.latchWord_latch : (s.latchWord m o v).latch = Sparse.set none s.latch (latchKey m o) (some v) := rfl
@[simp] theorem State.latchWord_gp : (s.latchWord m o v).gp = s.gp := rfl
@[simp] theorem State.latchWord_fresh : (s.latchWord m o v).fresh = s.fresh := rfl
@[simp] theorem State.latchWord_resp : (s.latchWord m o v).resp = s.resp := rfl
@[simp] theorem State.latchWord_free : (s.latchWord m o v).free = s.free := rfl
end

/-! ## mapTime -/

section
variable (s : State) (f : TimeUnit → TimeUnit)

@[simp] theorem State.mapTime_pending : (s.mapTime f).pending = s.pending := rfl
@[simp] theorem State.mapTime_time : (s.mapTime f).time = f s.time := rfl
@[simp] theorem State.mapTime_tick : (s.mapTime f).tick = s.tick := rfl
@[simp] theorem State.mapTime_jnr : (s.mapTime f).jnr = s.jnr := rfl
@[simp] theorem State.mapTime_swf : (s.mapTime f).swf = s.swf := rfl
@[simp] theorem State.mapTime_mac : (s.mapTime f).mac = s.mac := rfl
@[simp] theorem State.mapTime_ring : (s.mapTime f).ring = s.ring := rfl
@[simp] theorem State.mapTime_can : (s.mapTime f).can = s.can := rfl
@[simp] theorem State.mapTime_jig : (s.mapTime f).jig = s.jig := rfl
@[simp] theorem State.mapTime_hearth : (s.mapTime f).hearth = s.hearth := rfl
@[simp] theorem State.mapTime_mot : (s.mapTime f).mot = s.mot := rfl
@[simp] theorem State.mapTime_fio : (s.mapTime f).fio = s.fio := rfl
@[simp] theorem State.mapTime_bank : (s.mapTime f).bank = s.bank := rfl
@[simp] theorem State.mapTime_host : (s.mapTime f).host = s.host := rfl
@[simp] theorem State.mapTime_flue : (s.mapTime f).flue = s.flue := rfl
@[simp] theorem State.mapTime_epoch : (s.mapTime f).epoch = s.epoch := rfl
@[simp] theorem State.mapTime_kdl : (s.mapTime f).kdl = s.kdl := rfl
@[simp] theorem State.mapTime_ssn : (s.mapTime f).ssn = s.ssn := rfl
@[simp] theorem State.mapTime_regs : (s.mapTime f).regs = s.regs := rfl
@[simp] theorem State.mapTime_hold : (s.mapTime f).hold = s.hold := rfl
@[simp] theorem State.mapTime_latch : (s.mapTime f).latch = s.latch := rfl
@[simp] theorem State.mapTime_gp : (s.mapTime f).gp = s.gp := rfl
@[simp] theorem State.mapTime_fresh : (s.mapTime f).fresh = s.fresh := rfl
@[simp] theorem State.mapTime_resp : (s.mapTime f).resp = s.resp := rfl
@[simp] theorem State.mapTime_free : (s.mapTime f).free = s.free := rfl
end

/-! ## mapTick -/

section
variable (s : State) (f : TickCtl → TickCtl)

@[simp] theorem State.mapTick_pending : (s.mapTick f).pending = s.pending := rfl
@[simp] theorem State.mapTick_time : (s.mapTick f).time = s.time := rfl
@[simp] theorem State.mapTick_tick : (s.mapTick f).tick = f s.tick := rfl
@[simp] theorem State.mapTick_jnr : (s.mapTick f).jnr = s.jnr := rfl
@[simp] theorem State.mapTick_swf : (s.mapTick f).swf = s.swf := rfl
@[simp] theorem State.mapTick_mac : (s.mapTick f).mac = s.mac := rfl
@[simp] theorem State.mapTick_ring : (s.mapTick f).ring = s.ring := rfl
@[simp] theorem State.mapTick_can : (s.mapTick f).can = s.can := rfl
@[simp] theorem State.mapTick_jig : (s.mapTick f).jig = s.jig := rfl
@[simp] theorem State.mapTick_hearth : (s.mapTick f).hearth = s.hearth := rfl
@[simp] theorem State.mapTick_mot : (s.mapTick f).mot = s.mot := rfl
@[simp] theorem State.mapTick_fio : (s.mapTick f).fio = s.fio := rfl
@[simp] theorem State.mapTick_bank : (s.mapTick f).bank = s.bank := rfl
@[simp] theorem State.mapTick_host : (s.mapTick f).host = s.host := rfl
@[simp] theorem State.mapTick_flue : (s.mapTick f).flue = s.flue := rfl
@[simp] theorem State.mapTick_epoch : (s.mapTick f).epoch = s.epoch := rfl
@[simp] theorem State.mapTick_kdl : (s.mapTick f).kdl = s.kdl := rfl
@[simp] theorem State.mapTick_ssn : (s.mapTick f).ssn = s.ssn := rfl
@[simp] theorem State.mapTick_regs : (s.mapTick f).regs = s.regs := rfl
@[simp] theorem State.mapTick_hold : (s.mapTick f).hold = s.hold := rfl
@[simp] theorem State.mapTick_latch : (s.mapTick f).latch = s.latch := rfl
@[simp] theorem State.mapTick_gp : (s.mapTick f).gp = s.gp := rfl
@[simp] theorem State.mapTick_fresh : (s.mapTick f).fresh = s.fresh := rfl
@[simp] theorem State.mapTick_resp : (s.mapTick f).resp = s.resp := rfl
@[simp] theorem State.mapTick_free : (s.mapTick f).free = s.free := rfl
end

/-! ## mapJnr -/

section
variable (s : State) (f : Joiner → Joiner)

@[simp] theorem State.mapJnr_pending : (s.mapJnr f).pending = s.pending := rfl
@[simp] theorem State.mapJnr_time : (s.mapJnr f).time = s.time := rfl
@[simp] theorem State.mapJnr_tick : (s.mapJnr f).tick = s.tick := rfl
@[simp] theorem State.mapJnr_jnr : (s.mapJnr f).jnr = f s.jnr := rfl
@[simp] theorem State.mapJnr_swf : (s.mapJnr f).swf = s.swf := rfl
@[simp] theorem State.mapJnr_mac : (s.mapJnr f).mac = s.mac := rfl
@[simp] theorem State.mapJnr_ring : (s.mapJnr f).ring = s.ring := rfl
@[simp] theorem State.mapJnr_can : (s.mapJnr f).can = s.can := rfl
@[simp] theorem State.mapJnr_jig : (s.mapJnr f).jig = s.jig := rfl
@[simp] theorem State.mapJnr_hearth : (s.mapJnr f).hearth = s.hearth := rfl
@[simp] theorem State.mapJnr_mot : (s.mapJnr f).mot = s.mot := rfl
@[simp] theorem State.mapJnr_fio : (s.mapJnr f).fio = s.fio := rfl
@[simp] theorem State.mapJnr_bank : (s.mapJnr f).bank = s.bank := rfl
@[simp] theorem State.mapJnr_host : (s.mapJnr f).host = s.host := rfl
@[simp] theorem State.mapJnr_flue : (s.mapJnr f).flue = s.flue := rfl
@[simp] theorem State.mapJnr_epoch : (s.mapJnr f).epoch = s.epoch := rfl
@[simp] theorem State.mapJnr_kdl : (s.mapJnr f).kdl = s.kdl := rfl
@[simp] theorem State.mapJnr_ssn : (s.mapJnr f).ssn = s.ssn := rfl
@[simp] theorem State.mapJnr_regs : (s.mapJnr f).regs = s.regs := rfl
@[simp] theorem State.mapJnr_hold : (s.mapJnr f).hold = s.hold := rfl
@[simp] theorem State.mapJnr_latch : (s.mapJnr f).latch = s.latch := rfl
@[simp] theorem State.mapJnr_gp : (s.mapJnr f).gp = s.gp := rfl
@[simp] theorem State.mapJnr_fresh : (s.mapJnr f).fresh = s.fresh := rfl
@[simp] theorem State.mapJnr_resp : (s.mapJnr f).resp = s.resp := rfl
@[simp] theorem State.mapJnr_free : (s.mapJnr f).free = s.free := rfl
end

/-! ## mapSwf -/

section
variable (s : State) (f : Switch → Switch)

@[simp] theorem State.mapSwf_pending : (s.mapSwf f).pending = s.pending := rfl
@[simp] theorem State.mapSwf_time : (s.mapSwf f).time = s.time := rfl
@[simp] theorem State.mapSwf_tick : (s.mapSwf f).tick = s.tick := rfl
@[simp] theorem State.mapSwf_jnr : (s.mapSwf f).jnr = s.jnr := rfl
@[simp] theorem State.mapSwf_swf : (s.mapSwf f).swf = f s.swf := rfl
@[simp] theorem State.mapSwf_mac : (s.mapSwf f).mac = s.mac := rfl
@[simp] theorem State.mapSwf_ring : (s.mapSwf f).ring = s.ring := rfl
@[simp] theorem State.mapSwf_can : (s.mapSwf f).can = s.can := rfl
@[simp] theorem State.mapSwf_jig : (s.mapSwf f).jig = s.jig := rfl
@[simp] theorem State.mapSwf_hearth : (s.mapSwf f).hearth = s.hearth := rfl
@[simp] theorem State.mapSwf_mot : (s.mapSwf f).mot = s.mot := rfl
@[simp] theorem State.mapSwf_fio : (s.mapSwf f).fio = s.fio := rfl
@[simp] theorem State.mapSwf_bank : (s.mapSwf f).bank = s.bank := rfl
@[simp] theorem State.mapSwf_host : (s.mapSwf f).host = s.host := rfl
@[simp] theorem State.mapSwf_flue : (s.mapSwf f).flue = s.flue := rfl
@[simp] theorem State.mapSwf_epoch : (s.mapSwf f).epoch = s.epoch := rfl
@[simp] theorem State.mapSwf_kdl : (s.mapSwf f).kdl = s.kdl := rfl
@[simp] theorem State.mapSwf_ssn : (s.mapSwf f).ssn = s.ssn := rfl
@[simp] theorem State.mapSwf_regs : (s.mapSwf f).regs = s.regs := rfl
@[simp] theorem State.mapSwf_hold : (s.mapSwf f).hold = s.hold := rfl
@[simp] theorem State.mapSwf_latch : (s.mapSwf f).latch = s.latch := rfl
@[simp] theorem State.mapSwf_gp : (s.mapSwf f).gp = s.gp := rfl
@[simp] theorem State.mapSwf_fresh : (s.mapSwf f).fresh = s.fresh := rfl
@[simp] theorem State.mapSwf_resp : (s.mapSwf f).resp = s.resp := rfl
@[simp] theorem State.mapSwf_free : (s.mapSwf f).free = s.free := rfl
end

/-! ## mapMacPort -/

section
variable (s : State) (p : PortId) (f : MacPort → MacPort)

@[simp] theorem State.mapMacPort_pending : (s.mapMacPort p f).pending = s.pending := rfl
@[simp] theorem State.mapMacPort_time : (s.mapMacPort p f).time = s.time := rfl
@[simp] theorem State.mapMacPort_tick : (s.mapMacPort p f).tick = s.tick := rfl
@[simp] theorem State.mapMacPort_jnr : (s.mapMacPort p f).jnr = s.jnr := rfl
@[simp] theorem State.mapMacPort_swf : (s.mapMacPort p f).swf = s.swf := rfl
@[simp] theorem State.mapMacPort_mac : (s.mapMacPort p f).mac = { s.mac with ports := upd s.mac.ports p f } := rfl
@[simp] theorem State.mapMacPort_ring : (s.mapMacPort p f).ring = s.ring := rfl
@[simp] theorem State.mapMacPort_can : (s.mapMacPort p f).can = s.can := rfl
@[simp] theorem State.mapMacPort_jig : (s.mapMacPort p f).jig = s.jig := rfl
@[simp] theorem State.mapMacPort_hearth : (s.mapMacPort p f).hearth = s.hearth := rfl
@[simp] theorem State.mapMacPort_mot : (s.mapMacPort p f).mot = s.mot := rfl
@[simp] theorem State.mapMacPort_fio : (s.mapMacPort p f).fio = s.fio := rfl
@[simp] theorem State.mapMacPort_bank : (s.mapMacPort p f).bank = s.bank := rfl
@[simp] theorem State.mapMacPort_host : (s.mapMacPort p f).host = s.host := rfl
@[simp] theorem State.mapMacPort_flue : (s.mapMacPort p f).flue = s.flue := rfl
@[simp] theorem State.mapMacPort_epoch : (s.mapMacPort p f).epoch = s.epoch := rfl
@[simp] theorem State.mapMacPort_kdl : (s.mapMacPort p f).kdl = s.kdl := rfl
@[simp] theorem State.mapMacPort_ssn : (s.mapMacPort p f).ssn = s.ssn := rfl
@[simp] theorem State.mapMacPort_regs : (s.mapMacPort p f).regs = s.regs := rfl
@[simp] theorem State.mapMacPort_hold : (s.mapMacPort p f).hold = s.hold := rfl
@[simp] theorem State.mapMacPort_latch : (s.mapMacPort p f).latch = s.latch := rfl
@[simp] theorem State.mapMacPort_gp : (s.mapMacPort p f).gp = s.gp := rfl
@[simp] theorem State.mapMacPort_fresh : (s.mapMacPort p f).fresh = s.fresh := rfl
@[simp] theorem State.mapMacPort_resp : (s.mapMacPort p f).resp = s.resp := rfl
@[simp] theorem State.mapMacPort_free : (s.mapMacPort p f).free = s.free := rfl
end

/-! ## mapGroup -/

section
variable (s : State) (g : Fin 16) (f : Group → Group)

@[simp] theorem State.mapGroup_pending : (s.mapGroup g f).pending = s.pending := rfl
@[simp] theorem State.mapGroup_time : (s.mapGroup g f).time = s.time := rfl
@[simp] theorem State.mapGroup_tick : (s.mapGroup g f).tick = s.tick := rfl
@[simp] theorem State.mapGroup_jnr : (s.mapGroup g f).jnr = s.jnr := rfl
@[simp] theorem State.mapGroup_swf : (s.mapGroup g f).swf = s.swf := rfl
@[simp] theorem State.mapGroup_mac : (s.mapGroup g f).mac = { s.mac with groups := upd s.mac.groups g f } := rfl
@[simp] theorem State.mapGroup_ring : (s.mapGroup g f).ring = s.ring := rfl
@[simp] theorem State.mapGroup_can : (s.mapGroup g f).can = s.can := rfl
@[simp] theorem State.mapGroup_jig : (s.mapGroup g f).jig = s.jig := rfl
@[simp] theorem State.mapGroup_hearth : (s.mapGroup g f).hearth = s.hearth := rfl
@[simp] theorem State.mapGroup_mot : (s.mapGroup g f).mot = s.mot := rfl
@[simp] theorem State.mapGroup_fio : (s.mapGroup g f).fio = s.fio := rfl
@[simp] theorem State.mapGroup_bank : (s.mapGroup g f).bank = s.bank := rfl
@[simp] theorem State.mapGroup_host : (s.mapGroup g f).host = s.host := rfl
@[simp] theorem State.mapGroup_flue : (s.mapGroup g f).flue = s.flue := rfl
@[simp] theorem State.mapGroup_epoch : (s.mapGroup g f).epoch = s.epoch := rfl
@[simp] theorem State.mapGroup_kdl : (s.mapGroup g f).kdl = s.kdl := rfl
@[simp] theorem State.mapGroup_ssn : (s.mapGroup g f).ssn = s.ssn := rfl
@[simp] theorem State.mapGroup_regs : (s.mapGroup g f).regs = s.regs := rfl
@[simp] theorem State.mapGroup_hold : (s.mapGroup g f).hold = s.hold := rfl
@[simp] theorem State.mapGroup_latch : (s.mapGroup g f).latch = s.latch := rfl
@[simp] theorem State.mapGroup_gp : (s.mapGroup g f).gp = s.gp := rfl
@[simp] theorem State.mapGroup_fresh : (s.mapGroup g f).fresh = s.fresh := rfl
@[simp] theorem State.mapGroup_resp : (s.mapGroup g f).resp = s.resp := rfl
@[simp] theorem State.mapGroup_free : (s.mapGroup g f).free = s.free := rfl
end

/-! ## mapRing -/

section
variable (s : State) (c : ChanId) (f : RingChannel → RingChannel)

@[simp] theorem State.mapRing_pending : (s.mapRing c f).pending = s.pending := rfl
@[simp] theorem State.mapRing_time : (s.mapRing c f).time = s.time := rfl
@[simp] theorem State.mapRing_tick : (s.mapRing c f).tick = s.tick := rfl
@[simp] theorem State.mapRing_jnr : (s.mapRing c f).jnr = s.jnr := rfl
@[simp] theorem State.mapRing_swf : (s.mapRing c f).swf = s.swf := rfl
@[simp] theorem State.mapRing_mac : (s.mapRing c f).mac = s.mac := rfl
@[simp] theorem State.mapRing_ring : (s.mapRing c f).ring = upd s.ring c f := rfl
@[simp] theorem State.mapRing_can : (s.mapRing c f).can = s.can := rfl
@[simp] theorem State.mapRing_jig : (s.mapRing c f).jig = s.jig := rfl
@[simp] theorem State.mapRing_hearth : (s.mapRing c f).hearth = s.hearth := rfl
@[simp] theorem State.mapRing_mot : (s.mapRing c f).mot = s.mot := rfl
@[simp] theorem State.mapRing_fio : (s.mapRing c f).fio = s.fio := rfl
@[simp] theorem State.mapRing_bank : (s.mapRing c f).bank = s.bank := rfl
@[simp] theorem State.mapRing_host : (s.mapRing c f).host = s.host := rfl
@[simp] theorem State.mapRing_flue : (s.mapRing c f).flue = s.flue := rfl
@[simp] theorem State.mapRing_epoch : (s.mapRing c f).epoch = s.epoch := rfl
@[simp] theorem State.mapRing_kdl : (s.mapRing c f).kdl = s.kdl := rfl
@[simp] theorem State.mapRing_ssn : (s.mapRing c f).ssn = s.ssn := rfl
@[simp] theorem State.mapRing_regs : (s.mapRing c f).regs = s.regs := rfl
@[simp] theorem State.mapRing_hold : (s.mapRing c f).hold = s.hold := rfl
@[simp] theorem State.mapRing_latch : (s.mapRing c f).latch = s.latch := rfl
@[simp] theorem State.mapRing_gp : (s.mapRing c f).gp = s.gp := rfl
@[simp] theorem State.mapRing_fresh : (s.mapRing c f).fresh = s.fresh := rfl
@[simp] theorem State.mapRing_resp : (s.mapRing c f).resp = s.resp := rfl
@[simp] theorem State.mapRing_free : (s.mapRing c f).free = s.free := rfl
end

/-! ## mapCan -/

section
variable (s : State) (c : CanId) (f : CanChannel → CanChannel)

@[simp] theorem State.mapCan_pending : (s.mapCan c f).pending = s.pending := rfl
@[simp] theorem State.mapCan_time : (s.mapCan c f).time = s.time := rfl
@[simp] theorem State.mapCan_tick : (s.mapCan c f).tick = s.tick := rfl
@[simp] theorem State.mapCan_jnr : (s.mapCan c f).jnr = s.jnr := rfl
@[simp] theorem State.mapCan_swf : (s.mapCan c f).swf = s.swf := rfl
@[simp] theorem State.mapCan_mac : (s.mapCan c f).mac = s.mac := rfl
@[simp] theorem State.mapCan_ring : (s.mapCan c f).ring = s.ring := rfl
@[simp] theorem State.mapCan_can : (s.mapCan c f).can = upd s.can c f := rfl
@[simp] theorem State.mapCan_jig : (s.mapCan c f).jig = s.jig := rfl
@[simp] theorem State.mapCan_hearth : (s.mapCan c f).hearth = s.hearth := rfl
@[simp] theorem State.mapCan_mot : (s.mapCan c f).mot = s.mot := rfl
@[simp] theorem State.mapCan_fio : (s.mapCan c f).fio = s.fio := rfl
@[simp] theorem State.mapCan_bank : (s.mapCan c f).bank = s.bank := rfl
@[simp] theorem State.mapCan_host : (s.mapCan c f).host = s.host := rfl
@[simp] theorem State.mapCan_flue : (s.mapCan c f).flue = s.flue := rfl
@[simp] theorem State.mapCan_epoch : (s.mapCan c f).epoch = s.epoch := rfl
@[simp] theorem State.mapCan_kdl : (s.mapCan c f).kdl = s.kdl := rfl
@[simp] theorem State.mapCan_ssn : (s.mapCan c f).ssn = s.ssn := rfl
@[simp] theorem State.mapCan_regs : (s.mapCan c f).regs = s.regs := rfl
@[simp] theorem State.mapCan_hold : (s.mapCan c f).hold = s.hold := rfl
@[simp] theorem State.mapCan_latch : (s.mapCan c f).latch = s.latch := rfl
@[simp] theorem State.mapCan_gp : (s.mapCan c f).gp = s.gp := rfl
@[simp] theorem State.mapCan_fresh : (s.mapCan c f).fresh = s.fresh := rfl
@[simp] theorem State.mapCan_resp : (s.mapCan c f).resp = s.resp := rfl
@[simp] theorem State.mapCan_free : (s.mapCan c f).free = s.free := rfl
end

/-! ## mapJig -/

section
variable (s : State) (j : JigId) (f : Jig → Jig)

@[simp] theorem State.mapJig_pending : (s.mapJig j f).pending = s.pending := rfl
@[simp] theorem State.mapJig_time : (s.mapJig j f).time = s.time := rfl
@[simp] theorem State.mapJig_tick : (s.mapJig j f).tick = s.tick := rfl
@[simp] theorem State.mapJig_jnr : (s.mapJig j f).jnr = s.jnr := rfl
@[simp] theorem State.mapJig_swf : (s.mapJig j f).swf = s.swf := rfl
@[simp] theorem State.mapJig_mac : (s.mapJig j f).mac = s.mac := rfl
@[simp] theorem State.mapJig_ring : (s.mapJig j f).ring = s.ring := rfl
@[simp] theorem State.mapJig_can : (s.mapJig j f).can = s.can := rfl
@[simp] theorem State.mapJig_jig : (s.mapJig j f).jig = upd s.jig j f := rfl
@[simp] theorem State.mapJig_hearth : (s.mapJig j f).hearth = s.hearth := rfl
@[simp] theorem State.mapJig_mot : (s.mapJig j f).mot = s.mot := rfl
@[simp] theorem State.mapJig_fio : (s.mapJig j f).fio = s.fio := rfl
@[simp] theorem State.mapJig_bank : (s.mapJig j f).bank = s.bank := rfl
@[simp] theorem State.mapJig_host : (s.mapJig j f).host = s.host := rfl
@[simp] theorem State.mapJig_flue : (s.mapJig j f).flue = s.flue := rfl
@[simp] theorem State.mapJig_epoch : (s.mapJig j f).epoch = s.epoch := rfl
@[simp] theorem State.mapJig_kdl : (s.mapJig j f).kdl = s.kdl := rfl
@[simp] theorem State.mapJig_ssn : (s.mapJig j f).ssn = s.ssn := rfl
@[simp] theorem State.mapJig_regs : (s.mapJig j f).regs = s.regs := rfl
@[simp] theorem State.mapJig_hold : (s.mapJig j f).hold = s.hold := rfl
@[simp] theorem State.mapJig_latch : (s.mapJig j f).latch = s.latch := rfl
@[simp] theorem State.mapJig_gp : (s.mapJig j f).gp = s.gp := rfl
@[simp] theorem State.mapJig_fresh : (s.mapJig j f).fresh = s.fresh := rfl
@[simp] theorem State.mapJig_resp : (s.mapJig j f).resp = s.resp := rfl
@[simp] theorem State.mapJig_free : (s.mapJig j f).free = s.free := rfl
end

/-! ## mapHearth -/

section
variable (s : State) (h : HearthId) (f : Hearth → Hearth)

@[simp] theorem State.mapHearth_pending : (s.mapHearth h f).pending = s.pending := rfl
@[simp] theorem State.mapHearth_time : (s.mapHearth h f).time = s.time := rfl
@[simp] theorem State.mapHearth_tick : (s.mapHearth h f).tick = s.tick := rfl
@[simp] theorem State.mapHearth_jnr : (s.mapHearth h f).jnr = s.jnr := rfl
@[simp] theorem State.mapHearth_swf : (s.mapHearth h f).swf = s.swf := rfl
@[simp] theorem State.mapHearth_mac : (s.mapHearth h f).mac = s.mac := rfl
@[simp] theorem State.mapHearth_ring : (s.mapHearth h f).ring = s.ring := rfl
@[simp] theorem State.mapHearth_can : (s.mapHearth h f).can = s.can := rfl
@[simp] theorem State.mapHearth_jig : (s.mapHearth h f).jig = s.jig := rfl
@[simp] theorem State.mapHearth_hearth : (s.mapHearth h f).hearth = upd s.hearth h f := rfl
@[simp] theorem State.mapHearth_mot : (s.mapHearth h f).mot = s.mot := rfl
@[simp] theorem State.mapHearth_fio : (s.mapHearth h f).fio = s.fio := rfl
@[simp] theorem State.mapHearth_bank : (s.mapHearth h f).bank = s.bank := rfl
@[simp] theorem State.mapHearth_host : (s.mapHearth h f).host = s.host := rfl
@[simp] theorem State.mapHearth_flue : (s.mapHearth h f).flue = s.flue := rfl
@[simp] theorem State.mapHearth_epoch : (s.mapHearth h f).epoch = s.epoch := rfl
@[simp] theorem State.mapHearth_kdl : (s.mapHearth h f).kdl = s.kdl := rfl
@[simp] theorem State.mapHearth_ssn : (s.mapHearth h f).ssn = s.ssn := rfl
@[simp] theorem State.mapHearth_regs : (s.mapHearth h f).regs = s.regs := rfl
@[simp] theorem State.mapHearth_hold : (s.mapHearth h f).hold = s.hold := rfl
@[simp] theorem State.mapHearth_latch : (s.mapHearth h f).latch = s.latch := rfl
@[simp] theorem State.mapHearth_gp : (s.mapHearth h f).gp = s.gp := rfl
@[simp] theorem State.mapHearth_fresh : (s.mapHearth h f).fresh = s.fresh := rfl
@[simp] theorem State.mapHearth_resp : (s.mapHearth h f).resp = s.resp := rfl
@[simp] theorem State.mapHearth_free : (s.mapHearth h f).free = s.free := rfl
end

/-! ## mapMot -/

section
variable (s : State) (f : Motion → Motion)

@[simp] theorem State.mapMot_pending : (s.mapMot f).pending = s.pending := rfl
@[simp] theorem State.mapMot_time : (s.mapMot f).time = s.time := rfl
@[simp] theorem State.mapMot_tick : (s.mapMot f).tick = s.tick := rfl
@[simp] theorem State.mapMot_jnr : (s.mapMot f).jnr = s.jnr := rfl
@[simp] theorem State.mapMot_swf : (s.mapMot f).swf = s.swf := rfl
@[simp] theorem State.mapMot_mac : (s.mapMot f).mac = s.mac := rfl
@[simp] theorem State.mapMot_ring : (s.mapMot f).ring = s.ring := rfl
@[simp] theorem State.mapMot_can : (s.mapMot f).can = s.can := rfl
@[simp] theorem State.mapMot_jig : (s.mapMot f).jig = s.jig := rfl
@[simp] theorem State.mapMot_hearth : (s.mapMot f).hearth = s.hearth := rfl
@[simp] theorem State.mapMot_mot : (s.mapMot f).mot = f s.mot := rfl
@[simp] theorem State.mapMot_fio : (s.mapMot f).fio = s.fio := rfl
@[simp] theorem State.mapMot_bank : (s.mapMot f).bank = s.bank := rfl
@[simp] theorem State.mapMot_host : (s.mapMot f).host = s.host := rfl
@[simp] theorem State.mapMot_flue : (s.mapMot f).flue = s.flue := rfl
@[simp] theorem State.mapMot_epoch : (s.mapMot f).epoch = s.epoch := rfl
@[simp] theorem State.mapMot_kdl : (s.mapMot f).kdl = s.kdl := rfl
@[simp] theorem State.mapMot_ssn : (s.mapMot f).ssn = s.ssn := rfl
@[simp] theorem State.mapMot_regs : (s.mapMot f).regs = s.regs := rfl
@[simp] theorem State.mapMot_hold : (s.mapMot f).hold = s.hold := rfl
@[simp] theorem State.mapMot_latch : (s.mapMot f).latch = s.latch := rfl
@[simp] theorem State.mapMot_gp : (s.mapMot f).gp = s.gp := rfl
@[simp] theorem State.mapMot_fresh : (s.mapMot f).fresh = s.fresh := rfl
@[simp] theorem State.mapMot_resp : (s.mapMot f).resp = s.resp := rfl
@[simp] theorem State.mapMot_free : (s.mapMot f).free = s.free := rfl
end

/-! ## mapFio -/

section
variable (s : State) (f : FieldIO → FieldIO)

@[simp] theorem State.mapFio_pending : (s.mapFio f).pending = s.pending := rfl
@[simp] theorem State.mapFio_time : (s.mapFio f).time = s.time := rfl
@[simp] theorem State.mapFio_tick : (s.mapFio f).tick = s.tick := rfl
@[simp] theorem State.mapFio_jnr : (s.mapFio f).jnr = s.jnr := rfl
@[simp] theorem State.mapFio_swf : (s.mapFio f).swf = s.swf := rfl
@[simp] theorem State.mapFio_mac : (s.mapFio f).mac = s.mac := rfl
@[simp] theorem State.mapFio_ring : (s.mapFio f).ring = s.ring := rfl
@[simp] theorem State.mapFio_can : (s.mapFio f).can = s.can := rfl
@[simp] theorem State.mapFio_jig : (s.mapFio f).jig = s.jig := rfl
@[simp] theorem State.mapFio_hearth : (s.mapFio f).hearth = s.hearth := rfl
@[simp] theorem State.mapFio_mot : (s.mapFio f).mot = s.mot := rfl
@[simp] theorem State.mapFio_fio : (s.mapFio f).fio = f s.fio := rfl
@[simp] theorem State.mapFio_bank : (s.mapFio f).bank = s.bank := rfl
@[simp] theorem State.mapFio_host : (s.mapFio f).host = s.host := rfl
@[simp] theorem State.mapFio_flue : (s.mapFio f).flue = s.flue := rfl
@[simp] theorem State.mapFio_epoch : (s.mapFio f).epoch = s.epoch := rfl
@[simp] theorem State.mapFio_kdl : (s.mapFio f).kdl = s.kdl := rfl
@[simp] theorem State.mapFio_ssn : (s.mapFio f).ssn = s.ssn := rfl
@[simp] theorem State.mapFio_regs : (s.mapFio f).regs = s.regs := rfl
@[simp] theorem State.mapFio_hold : (s.mapFio f).hold = s.hold := rfl
@[simp] theorem State.mapFio_latch : (s.mapFio f).latch = s.latch := rfl
@[simp] theorem State.mapFio_gp : (s.mapFio f).gp = s.gp := rfl
@[simp] theorem State.mapFio_fresh : (s.mapFio f).fresh = s.fresh := rfl
@[simp] theorem State.mapFio_resp : (s.mapFio f).resp = s.resp := rfl
@[simp] theorem State.mapFio_free : (s.mapFio f).free = s.free := rfl
end

/-! ## mapBanks -/

section
variable (s : State) (f : Banks → Banks)

@[simp] theorem State.mapBanks_pending : (s.mapBanks f).pending = s.pending := rfl
@[simp] theorem State.mapBanks_time : (s.mapBanks f).time = s.time := rfl
@[simp] theorem State.mapBanks_tick : (s.mapBanks f).tick = s.tick := rfl
@[simp] theorem State.mapBanks_jnr : (s.mapBanks f).jnr = s.jnr := rfl
@[simp] theorem State.mapBanks_swf : (s.mapBanks f).swf = s.swf := rfl
@[simp] theorem State.mapBanks_mac : (s.mapBanks f).mac = s.mac := rfl
@[simp] theorem State.mapBanks_ring : (s.mapBanks f).ring = s.ring := rfl
@[simp] theorem State.mapBanks_can : (s.mapBanks f).can = s.can := rfl
@[simp] theorem State.mapBanks_jig : (s.mapBanks f).jig = s.jig := rfl
@[simp] theorem State.mapBanks_hearth : (s.mapBanks f).hearth = s.hearth := rfl
@[simp] theorem State.mapBanks_mot : (s.mapBanks f).mot = s.mot := rfl
@[simp] theorem State.mapBanks_fio : (s.mapBanks f).fio = s.fio := rfl
@[simp] theorem State.mapBanks_bank : (s.mapBanks f).bank = f s.bank := rfl
@[simp] theorem State.mapBanks_host : (s.mapBanks f).host = s.host := rfl
@[simp] theorem State.mapBanks_flue : (s.mapBanks f).flue = s.flue := rfl
@[simp] theorem State.mapBanks_epoch : (s.mapBanks f).epoch = s.epoch := rfl
@[simp] theorem State.mapBanks_kdl : (s.mapBanks f).kdl = s.kdl := rfl
@[simp] theorem State.mapBanks_ssn : (s.mapBanks f).ssn = s.ssn := rfl
@[simp] theorem State.mapBanks_regs : (s.mapBanks f).regs = s.regs := rfl
@[simp] theorem State.mapBanks_hold : (s.mapBanks f).hold = s.hold := rfl
@[simp] theorem State.mapBanks_latch : (s.mapBanks f).latch = s.latch := rfl
@[simp] theorem State.mapBanks_gp : (s.mapBanks f).gp = s.gp := rfl
@[simp] theorem State.mapBanks_fresh : (s.mapBanks f).fresh = s.fresh := rfl
@[simp] theorem State.mapBanks_resp : (s.mapBanks f).resp = s.resp := rfl
@[simp] theorem State.mapBanks_free : (s.mapBanks f).free = s.free := rfl
end

/-! ## mapHost -/

section
variable (s : State) (n : Fin 4) (f : HostPort → HostPort)

@[simp] theorem State.mapHost_pending : (s.mapHost n f).pending = s.pending := rfl
@[simp] theorem State.mapHost_time : (s.mapHost n f).time = s.time := rfl
@[simp] theorem State.mapHost_tick : (s.mapHost n f).tick = s.tick := rfl
@[simp] theorem State.mapHost_jnr : (s.mapHost n f).jnr = s.jnr := rfl
@[simp] theorem State.mapHost_swf : (s.mapHost n f).swf = s.swf := rfl
@[simp] theorem State.mapHost_mac : (s.mapHost n f).mac = s.mac := rfl
@[simp] theorem State.mapHost_ring : (s.mapHost n f).ring = s.ring := rfl
@[simp] theorem State.mapHost_can : (s.mapHost n f).can = s.can := rfl
@[simp] theorem State.mapHost_jig : (s.mapHost n f).jig = s.jig := rfl
@[simp] theorem State.mapHost_hearth : (s.mapHost n f).hearth = s.hearth := rfl
@[simp] theorem State.mapHost_mot : (s.mapHost n f).mot = s.mot := rfl
@[simp] theorem State.mapHost_fio : (s.mapHost n f).fio = s.fio := rfl
@[simp] theorem State.mapHost_bank : (s.mapHost n f).bank = s.bank := rfl
@[simp] theorem State.mapHost_host : (s.mapHost n f).host = upd s.host n f := rfl
@[simp] theorem State.mapHost_flue : (s.mapHost n f).flue = s.flue := rfl
@[simp] theorem State.mapHost_epoch : (s.mapHost n f).epoch = s.epoch := rfl
@[simp] theorem State.mapHost_kdl : (s.mapHost n f).kdl = s.kdl := rfl
@[simp] theorem State.mapHost_ssn : (s.mapHost n f).ssn = s.ssn := rfl
@[simp] theorem State.mapHost_regs : (s.mapHost n f).regs = s.regs := rfl
@[simp] theorem State.mapHost_hold : (s.mapHost n f).hold = s.hold := rfl
@[simp] theorem State.mapHost_latch : (s.mapHost n f).latch = s.latch := rfl
@[simp] theorem State.mapHost_gp : (s.mapHost n f).gp = s.gp := rfl
@[simp] theorem State.mapHost_fresh : (s.mapHost n f).fresh = s.fresh := rfl
@[simp] theorem State.mapHost_resp : (s.mapHost n f).resp = s.resp := rfl
@[simp] theorem State.mapHost_free : (s.mapHost n f).free = s.free := rfl
end

/-! ## mapFlue -/

section
variable (s : State) (x : Fin 64) (f : Flue → Flue)

@[simp] theorem State.mapFlue_pending : (s.mapFlue x f).pending = s.pending := rfl
@[simp] theorem State.mapFlue_time : (s.mapFlue x f).time = s.time := rfl
@[simp] theorem State.mapFlue_tick : (s.mapFlue x f).tick = s.tick := rfl
@[simp] theorem State.mapFlue_jnr : (s.mapFlue x f).jnr = s.jnr := rfl
@[simp] theorem State.mapFlue_swf : (s.mapFlue x f).swf = s.swf := rfl
@[simp] theorem State.mapFlue_mac : (s.mapFlue x f).mac = s.mac := rfl
@[simp] theorem State.mapFlue_ring : (s.mapFlue x f).ring = s.ring := rfl
@[simp] theorem State.mapFlue_can : (s.mapFlue x f).can = s.can := rfl
@[simp] theorem State.mapFlue_jig : (s.mapFlue x f).jig = s.jig := rfl
@[simp] theorem State.mapFlue_hearth : (s.mapFlue x f).hearth = s.hearth := rfl
@[simp] theorem State.mapFlue_mot : (s.mapFlue x f).mot = s.mot := rfl
@[simp] theorem State.mapFlue_fio : (s.mapFlue x f).fio = s.fio := rfl
@[simp] theorem State.mapFlue_bank : (s.mapFlue x f).bank = s.bank := rfl
@[simp] theorem State.mapFlue_host : (s.mapFlue x f).host = s.host := rfl
@[simp] theorem State.mapFlue_flue : (s.mapFlue x f).flue = upd s.flue x f := rfl
@[simp] theorem State.mapFlue_epoch : (s.mapFlue x f).epoch = s.epoch := rfl
@[simp] theorem State.mapFlue_kdl : (s.mapFlue x f).kdl = s.kdl := rfl
@[simp] theorem State.mapFlue_ssn : (s.mapFlue x f).ssn = s.ssn := rfl
@[simp] theorem State.mapFlue_regs : (s.mapFlue x f).regs = s.regs := rfl
@[simp] theorem State.mapFlue_hold : (s.mapFlue x f).hold = s.hold := rfl
@[simp] theorem State.mapFlue_latch : (s.mapFlue x f).latch = s.latch := rfl
@[simp] theorem State.mapFlue_gp : (s.mapFlue x f).gp = s.gp := rfl
@[simp] theorem State.mapFlue_fresh : (s.mapFlue x f).fresh = s.fresh := rfl
@[simp] theorem State.mapFlue_resp : (s.mapFlue x f).resp = s.resp := rfl
@[simp] theorem State.mapFlue_free : (s.mapFlue x f).free = s.free := rfl
end

/-! ## mapKdl -/

section
variable (s : State) (f : Kindling → Kindling)

@[simp] theorem State.mapKdl_pending : (s.mapKdl f).pending = s.pending := rfl
@[simp] theorem State.mapKdl_time : (s.mapKdl f).time = s.time := rfl
@[simp] theorem State.mapKdl_tick : (s.mapKdl f).tick = s.tick := rfl
@[simp] theorem State.mapKdl_jnr : (s.mapKdl f).jnr = s.jnr := rfl
@[simp] theorem State.mapKdl_swf : (s.mapKdl f).swf = s.swf := rfl
@[simp] theorem State.mapKdl_mac : (s.mapKdl f).mac = s.mac := rfl
@[simp] theorem State.mapKdl_ring : (s.mapKdl f).ring = s.ring := rfl
@[simp] theorem State.mapKdl_can : (s.mapKdl f).can = s.can := rfl
@[simp] theorem State.mapKdl_jig : (s.mapKdl f).jig = s.jig := rfl
@[simp] theorem State.mapKdl_hearth : (s.mapKdl f).hearth = s.hearth := rfl
@[simp] theorem State.mapKdl_mot : (s.mapKdl f).mot = s.mot := rfl
@[simp] theorem State.mapKdl_fio : (s.mapKdl f).fio = s.fio := rfl
@[simp] theorem State.mapKdl_bank : (s.mapKdl f).bank = s.bank := rfl
@[simp] theorem State.mapKdl_host : (s.mapKdl f).host = s.host := rfl
@[simp] theorem State.mapKdl_flue : (s.mapKdl f).flue = s.flue := rfl
@[simp] theorem State.mapKdl_epoch : (s.mapKdl f).epoch = s.epoch := rfl
@[simp] theorem State.mapKdl_kdl : (s.mapKdl f).kdl = f s.kdl := rfl
@[simp] theorem State.mapKdl_ssn : (s.mapKdl f).ssn = s.ssn := rfl
@[simp] theorem State.mapKdl_regs : (s.mapKdl f).regs = s.regs := rfl
@[simp] theorem State.mapKdl_hold : (s.mapKdl f).hold = s.hold := rfl
@[simp] theorem State.mapKdl_latch : (s.mapKdl f).latch = s.latch := rfl
@[simp] theorem State.mapKdl_gp : (s.mapKdl f).gp = s.gp := rfl
@[simp] theorem State.mapKdl_fresh : (s.mapKdl f).fresh = s.fresh := rfl
@[simp] theorem State.mapKdl_resp : (s.mapKdl f).resp = s.resp := rfl
@[simp] theorem State.mapKdl_free : (s.mapKdl f).free = s.free := rfl
end

/-! ## mapSsn -/

section
variable (s : State) (f : Season → Season)

@[simp] theorem State.mapSsn_pending : (s.mapSsn f).pending = s.pending := rfl
@[simp] theorem State.mapSsn_time : (s.mapSsn f).time = s.time := rfl
@[simp] theorem State.mapSsn_tick : (s.mapSsn f).tick = s.tick := rfl
@[simp] theorem State.mapSsn_jnr : (s.mapSsn f).jnr = s.jnr := rfl
@[simp] theorem State.mapSsn_swf : (s.mapSsn f).swf = s.swf := rfl
@[simp] theorem State.mapSsn_mac : (s.mapSsn f).mac = s.mac := rfl
@[simp] theorem State.mapSsn_ring : (s.mapSsn f).ring = s.ring := rfl
@[simp] theorem State.mapSsn_can : (s.mapSsn f).can = s.can := rfl
@[simp] theorem State.mapSsn_jig : (s.mapSsn f).jig = s.jig := rfl
@[simp] theorem State.mapSsn_hearth : (s.mapSsn f).hearth = s.hearth := rfl
@[simp] theorem State.mapSsn_mot : (s.mapSsn f).mot = s.mot := rfl
@[simp] theorem State.mapSsn_fio : (s.mapSsn f).fio = s.fio := rfl
@[simp] theorem State.mapSsn_bank : (s.mapSsn f).bank = s.bank := rfl
@[simp] theorem State.mapSsn_host : (s.mapSsn f).host = s.host := rfl
@[simp] theorem State.mapSsn_flue : (s.mapSsn f).flue = s.flue := rfl
@[simp] theorem State.mapSsn_epoch : (s.mapSsn f).epoch = s.epoch := rfl
@[simp] theorem State.mapSsn_kdl : (s.mapSsn f).kdl = s.kdl := rfl
@[simp] theorem State.mapSsn_ssn : (s.mapSsn f).ssn = f s.ssn := rfl
@[simp] theorem State.mapSsn_regs : (s.mapSsn f).regs = s.regs := rfl
@[simp] theorem State.mapSsn_hold : (s.mapSsn f).hold = s.hold := rfl
@[simp] theorem State.mapSsn_latch : (s.mapSsn f).latch = s.latch := rfl
@[simp] theorem State.mapSsn_gp : (s.mapSsn f).gp = s.gp := rfl
@[simp] theorem State.mapSsn_fresh : (s.mapSsn f).fresh = s.fresh := rfl
@[simp] theorem State.mapSsn_resp : (s.mapSsn f).resp = s.resp := rfl
@[simp] theorem State.mapSsn_free : (s.mapSsn f).free = s.free := rfl
end

/-! ## raise -/

section
variable (s : State) (o i : Nat)

@[simp] theorem State.raise_pending : (s.raise o i).pending = s.pending := rfl
@[simp] theorem State.raise_time : (s.raise o i).time = s.time := rfl
@[simp] theorem State.raise_tick : (s.raise o i).tick = s.tick := rfl
@[simp] theorem State.raise_jnr : (s.raise o i).jnr = s.jnr := rfl
@[simp] theorem State.raise_swf : (s.raise o i).swf = s.swf := rfl
@[simp] theorem State.raise_mac : (s.raise o i).mac = s.mac := rfl
@[simp] theorem State.raise_ring : (s.raise o i).ring = s.ring := rfl
@[simp] theorem State.raise_can : (s.raise o i).can = s.can := rfl
@[simp] theorem State.raise_jig : (s.raise o i).jig = s.jig := rfl
@[simp] theorem State.raise_hearth : (s.raise o i).hearth = s.hearth := rfl
@[simp] theorem State.raise_mot : (s.raise o i).mot = s.mot := rfl
@[simp] theorem State.raise_fio : (s.raise o i).fio = s.fio := rfl
@[simp] theorem State.raise_bank : (s.raise o i).bank = s.bank := rfl
@[simp] theorem State.raise_host : (s.raise o i).host = s.host := rfl
@[simp] theorem State.raise_flue : (s.raise o i).flue = s.flue := rfl
@[simp] theorem State.raise_epoch : (s.raise o i).epoch = s.epoch := rfl
@[simp] theorem State.raise_kdl : (s.raise o i).kdl = s.kdl := rfl
@[simp] theorem State.raise_ssn : (s.raise o i).ssn = s.ssn := rfl
@[simp] theorem State.raise_hold : (s.raise o i).hold = s.hold := rfl
@[simp] theorem State.raise_latch : (s.raise o i).latch = s.latch := rfl
@[simp] theorem State.raise_gp : (s.raise o i).gp = s.gp := rfl
@[simp] theorem State.raise_resp : (s.raise o i).resp = s.resp := rfl
@[simp] theorem State.raise_free : (s.raise o i).free = s.free := rfl
end

end Sys2Proof.Machine
end

