-- ==== Sys2Proof/Laws/Ops.lean ====
section
/-! SUPPORT. One law per shared operation, saying once what it can do: registers, events, responses, commands of a
master, the passing of beats, bank memory. Claims and later lemmas cite these and do not unfold the operations. -/

namespace Sys2Proof.Machine

open Sys2Proof

/-! ## Registers -/

/-- A register reads what was last written to it. -/
@[simp] theorem State.reg_setReg_self (s : State) (o : Nat) (v : Word) : (s.setReg o v).reg o = v :=
  Sparse.get_set_self _ _ _ _

/-- A write to a register leaves every other register alone. -/
theorem State.reg_setReg_ne (s : State) {o p : Nat} (v : Word) (h : p ≠ o) : (s.setReg o v).reg p = s.reg p :=
  Sparse.get_set_ne _ _ _ _ h

/-- A read of a register depends on the register file only. -/
theorem State.reg_congr {s t : State} (h : t.regs = s.regs) (o : Nat) : t.reg o = s.reg o := by
  unfold State.reg
  rw [h]

@[simp] theorem State.reg_respond (s : State) (m : Master) (v : Word) (e : Bool) (o : Nat) :
    (s.respond m v e).reg o = s.reg o := rfl
@[simp] theorem State.reg_mapTime (s : State) (f : TimeUnit → TimeUnit) (o : Nat) : (s.mapTime f).reg o = s.reg o := rfl
@[simp] theorem State.reg_markFresh (s : State) (p : Nat) (v : Word) (o : Nat) : (s.markFresh p v).reg o = s.reg o := rfl

/-- An event sets its bit of the event register and no other (R15). -/
@[simp] theorem State.reg_raise_self (s : State) (o i : Nat) : (s.raise o i).reg o = s.reg o ||| bitMask i := by
  simp [State.raise]

theorem State.reg_raise_ne (s : State) {o p : Nat} (i : Nat) (h : p ≠ o) : (s.raise o i).reg p = s.reg p := by
  simp [State.raise, State.reg_setReg_ne s _ h]

/-- The bit that an event sets reads 1. -/
theorem bit_or_bitMask (w : Word) {i : Nat} (h : i < 16) : bit (w ||| bitMask i) i = true := by
  unfold bit bitMask
  have : i = 0 ∨ i = 1 ∨ i = 2 ∨ i = 3 ∨ i = 4 ∨ i = 5 ∨ i = 6 ∨ i = 7 ∨ i = 8 ∨ i = 9 ∨ i = 10 ∨ i = 11 ∨ i = 12 ∨
      i = 13 ∨ i = 14 ∨ i = 15 := by omega
  rcases this with h | h | h | h | h | h | h | h | h | h | h | h | h | h | h | h <;> subst h <;> simp

theorem State.bit_raise (s : State) (o : Nat) {i : Nat} (h : i < 16) : bit ((s.raise o i).reg o) i = true := by
  rw [State.reg_raise_self, bit_or_bitMask _ h]

/-! ## Responses and the commands of a master -/

/-- A master's response is what its access answered. -/
@[simp] theorem State.respond_self (s : State) (m : Master) (v : Word) (e : Bool) :
    (s.respond m v e).resp[m] = { value := v, error := e } := by simp [State.respond]

/-- No other master's response changes. -/
theorem State.respond_ne (s : State) {m k : Master} (v : Word) (e : Bool) (h : k ≠ m) :
    (s.respond m v e).resp[k] = s.resp[k] := upd_ne _ _ h

/-- Out of reset, what happens happens. -/
theorem State.alive_on {s : State} (h : s.kdl.up = true) (f : State → State) : s.alive f = f s := by
  simp [State.alive, h]

/-- Under PORST# nothing happens. -/
theorem State.alive_off {s : State} (h : s.kdl.up = false) (f : State → State) : s.alive f = s := by
  simp [State.alive, h]

/-- A write command that its master may make acts and answers without error. -/
theorem State.writeCmd_of_rights {s : State} {m : Master} {off : Nat} (hc : s.canAct m = true)
    (hm : s.mayAccess m off true = true) (act : State → State) : s.writeCmd m off act = (act s).respond m 0 false := by
  simp [State.writeCmd, hc, hm]

/-- A write command outside its master's rights is a violation and gets an error response. -/
theorem State.writeCmd_of_no_rights {s : State} {m : Master} {off : Nat} (hc : s.canAct m = true)
    (hm : s.mayAccess m off true = false) (act : State → State) :
    s.writeCmd m off act = (s.regViolation m off true).respond m 0 true := by
  simp [State.writeCmd, hc, hm]

/-- A command of a master that cannot act changes nothing but its response. -/
theorem State.writeCmd_of_no_act {s : State} {m : Master} (off : Nat) (hc : s.canAct m = false) (act : State → State) :
    s.writeCmd m off act = s.respond m 0 true := by
  simp [State.writeCmd, hc]

/-- A read command that its master may make acts and answers its word. -/
theorem State.readCmd_of_rights {s : State} {m : Master} {off : Nat} (hc : s.canAct m = true)
    (hm : s.mayAccess m off false = true) (act : State → State × Word) :
    s.readCmd m off act = (act s).1.respond m (act s).2 false := by
  simp [State.readCmd, hc, hm]

/-! ## Holds of register pairs (R481) -/

/-- A held word is used by the write of _HI that names its pair. -/
theorem State.loFor_held {s : State} {m : Master} {lo : Nat} {v : Word} (h : s.hold[m] = some (lo, v)) (p : Word) :
    s.loFor m lo p = v := by simp [State.loFor, h]

/-- Without a held word the present low half is kept. -/
theorem State.loFor_none {s : State} {m : Master} (h : s.hold[m] = none) (lo : Nat) (p : Word) : s.loFor m lo p = p := by
  simp [State.loFor, h]

/-! ## The passing of beats (R34, R35) -/

@[simp] theorem TimeUnit.elapse_beat (t : TimeUnit) (n : Nat) : (t.elapse n).beat = t.beat + n := rfl
@[simp] theorem TimeUnit.elapse_todx (t : TimeUnit) (n : Nat) : (t.elapse n).todx = t.todx + n * t.rate := rfl
@[simp] theorem TimeUnit.elapse_zero (t : TimeUnit) : t.elapse 0 = t := by simp [TimeUnit.elapse]

/-- The rate does not change as beats pass, so beats add up. -/
theorem TimeUnit.elapse_add (t : TimeUnit) (m n : Nat) : (t.elapse m).elapse n = t.elapse (m + n) := by
  simp [TimeUnit.elapse, TimeUnit.rate, Nat.add_mul, Nat.add_assoc]

/-- What the passing of beats changes: time, the interrupt samples of the hosts, and the mean of ADJ. -/
theorem State.elapse_frame (s : State) (n : Nat) :
    s.elapse n = { s with time := s.time.elapse n, host := (s.elapse n).host, ssn := (s.elapse n).ssn } := by
  unfold State.elapse
  split
  · subst_vars; simp
  · rfl

@[simp] theorem State.elapse_time (s : State) (n : Nat) : (s.elapse n).time = s.time.elapse n := by
  rw [State.elapse_frame]

@[simp] theorem State.elapse_regs (s : State) (n : Nat) : (s.elapse n).regs = s.regs := by rw [State.elapse_frame]
@[simp] theorem State.elapse_bank (s : State) (n : Nat) : (s.elapse n).bank = s.bank := by rw [State.elapse_frame]
@[simp] theorem State.elapse_pending (s : State) (n : Nat) : (s.elapse n).pending = s.pending := by rw [State.elapse_frame]
@[simp] theorem State.elapse_kdl (s : State) (n : Nat) : (s.elapse n).kdl = s.kdl := by rw [State.elapse_frame]

/-- The passing of no beat changes nothing. -/
@[simp] theorem State.elapse_zero (s : State) : s.elapse 0 = s := rfl

/-- After the beats up to `due` the present beat is `due`, or as it was where `due` had come. -/
theorem State.until_beat (s : State) (due : Nat) : (s.until due).time.beat = max s.time.beat due := by
  simp only [State.until, State.elapse_time, TimeUnit.elapse_beat]
  omega

/-- Nothing passes where `due` has come. -/
theorem State.until_of_le {s : State} {due : Nat} (h : due ≤ s.time.beat) : s.until due = s := by
  unfold State.until
  rw [Nat.sub_eq_zero_of_le h]
  rfl

/-! ## The clamp (R468 to R471) -/

/-- The clamp log holds at most eight entries. -/
theorem clogInsert_length (e : ClampRec) (l : List ClampRec) : (clogInsert e l).length = l.length + 1 := by
  induction l with
  | nil => rfl
  | cons x r ih =>
    simp only [clogInsert]
    split
    · rfl
    · simp [ih]

theorem State.logClamp_length (s : State) (target cause : Nat) (addr : Addr) (h : s.ssn.clog.length ≤ 8) :
    (s.logClamp target cause addr).ssn.clog.length ≤ 8 := by
  by_cases h8 : s.ssn.clog.length < 8
  · simp [State.logClamp, h8, clogInsert_length]
  · simp [State.logClamp, h8, h]

/-! ## The step -/

/-- A step with a command at the front carries it out on the state with the rest of the queue. -/
theorem step_cons (s : State) (c : Instr) (rest : List Instr) (h : s.pending = c :: rest) :
    step s = exec c { s with pending := rest } := by
  simp [step, h]

/-- A step on an empty queue lets one beat pass. -/
theorem step_nil (s : State) (h : s.pending = []) : step s = .next (s.alive fun s => s.elapse 1) := by
  simp [step, h]

/-- Bank memory of the reset state is in its canonical form. -/
theorem reset_memWf : Memory.wf State.reset.bank.mem := Sparse.wf_nil 0

/-! ## Ring frames -/

/-- A frame with correct CRCs has a good header, and every segment of it is good (R180). -/
theorem hdrGood_good (h : RHdr) (p : List Byte) : hdrGood (RingWire.good h p) = true := by
  simp [hdrGood, RingWire.good]

theorem segGoods_good (h : RHdr) (p : List Byte) : ∀ g ∈ segGoods (RingWire.good h p), g = true := by
  intro g hg
  simp only [segGoods, RingWire.good, List.mem_map, Prod.exists] at hg
  obtain ⟨i, l, hm, rfl⟩ := hg
  have hi : (segments p)[i]? = some l := by
    rw [numbered, List.mem_iff_getElem?] at hm
    obtain ⟨k, hk⟩ := hm
    rw [List.getElem?_zip_eq_some] at hk
    obtain ⟨h1, h2⟩ := hk
    obtain ⟨_, h3⟩ := List.getElem?_eq_some_iff.mp h1
    simp only [List.getElem_range] at h3
    subst h3
    exact h2
  simp [segWhole, hi]

end Sys2Proof.Machine
end

