-- ==== Sys2Proof/Tests/Slice0.lean ====
section
/-! SUPPORT. Tests: terms of a bad shape that the check refuses, worked examples of the spec, and for every statement with
premises a state and operands that meet them, clause by clause. -/

namespace Sys2Proof.Tests

open Sys2Proof Sys2Proof.Machine

set_option maxRecDepth 4000

/-! ## Terms of a bad shape -/

/-- A register address is even and lies in the register window (R475, R477). -/
theorem test_wf_address_odd : (Instr.registerWrite 15 .word 0x3000001 0).wf = false := by decide
theorem test_wf_address_bank : (Instr.pairLoRead 15 0x2000000).wf = false := by decide
theorem test_wf_address_above : (Instr.pairLoWrite 15 0x3100000 0).wf = false := by decide
theorem test_wf_address_hi : (Instr.pairHiWrite 15 0x3000003 0).wf = false := by decide
theorem test_wf_address_clear : (Instr.readClear 15 0x0000000).wf = false := by decide

/-- A ring frame with 15 header bytes, and one without the CRC of its segment (R178). -/
theorem test_wf_ring_header : RingWire.wf { header := List.replicate 15 0, hcrc := 0, payload := [], crcs := [] } = false := by
  decide
theorem test_wf_ring_crcs :
    (Instr.frameReturn 0 { header := List.replicate 16 0, hcrc := 0, payload := [0], crcs := [] }).wf = false := by decide
theorem test_wf_ring_kinds :
    let f : RingWire := { header := [], hcrc := 0, payload := [], crcs := [] }
    (Instr.dataFrame 0 .inn f).wf = false ∧ (Instr.claim 0 .inn f).wf = false ∧ (Instr.surveyPassage 0 .inn f).wf = false ∧
      (Instr.surveyResult 0 .inn f).wf = false := by decide

/-- A CAN frame: data that its DLC does not say, a standard identifier of 12 bits, a remote frame of the FD format, a
classical frame that switches its rate (R211, R220). -/
theorem test_wf_can :
    let f : CanFrame := { id := 0, ide := false, rtr := false, fdf := false, brs := false, esi := false, dlc := 1, data := [0],
                          own := false, sofCycle := 0, valCycle := 0 }
    f.wf = true ∧ (Instr.canFrameValid 0 { f with data := [] }).wf = false ∧ { f with id := 2048 }.wf = false ∧
      { f with rtr := true, fdf := true }.wf = false ∧ { f with brs := true }.wf = false := by decide

/-- Host requests: odd, empty, too long (R412, R415). -/
theorem test_wf_host :
    (Instr.hostReadRequest 0 1 [.word]).wf = false ∧ (Instr.hostReadRequest 0 0 []).wf = false ∧
      (Instr.hostReadRequest 0 0 (List.replicate 257 .word)).wf = false ∧ (Instr.hostWriteRequest 0 0 []).wf = false ∧
      (Instr.hostWriteRequest 0 0 (List.replicate 129 (.word, 0))).wf = false := by decide

/-- Flash headers of 256 bytes, answers of at most 64 bytes, cells of 1 to 64 bytes (R439, R446, R126). -/
theorem test_wf_lengths :
    (Instr.flashAttempt [] (List.replicate 256 0)).wf = false ∧ (Instr.flashAttempt (List.replicate 256 0) []).wf = false ∧
      (Instr.xspiCommandDone (List.replicate 65 0)).wf = false ∧ (Instr.ingressCell 0 true 0 0 0 []).wf = false ∧
      (Instr.ingressCell 0 true 0 0 0 (List.replicate 65 0)).wf = false := by decide

/-- A set of readings lacks a canary (R458). -/
theorem test_wf_readings :
    (Instr.sensorUpdate { slack := [], osc := [], temp := [], eyes := [], ron := [] }).wf = false ∧
      (Instr.avsStepSettled true { slack := [], osc := [], temp := [], eyes := [], ron := [] }).wf = false := by decide

/-! ## Worked examples -/

/-- "A tick under adjustment": with ADJ = 0x4000_0000 each beat adds 8 + 2^-15 slivers (02_timebase.md, R35). -/
theorem test_rate_under_adjustment :
    let t := TimeUnit.elapse { TimeUnit.reset with adj := 0x40000000 } 2
    t.todx = 2 * (8 * 2 ^ 45 + 2 ^ 30) ∧ t.beat = 2 := by decide +kernel

/-- "The next boundary lies in beat 524,286": the tick starts in the beat that contains the boundary (R35, R38). -/
theorem test_tick_under_adjustment :
    let rate := TimeUnit.rate { TimeUnit.reset with adj := 0x40000000 }
    524286 * rate ≤ 4194304 * 2 ^ 45 ∧ 4194304 * 2 ^ 45 < 524287 * rate := by decide +kernel

/-- The default reserve: 32,768 beats of the tick of 524,288 (00_scope.md, R79); RSV 20 gives 40,960
(18_seasoning_and_supervision.md, a re-plan in a Tamsel car). -/
theorem test_reserve :
    State.modeQ { State.reset with regs := [(0x20100, 0x010A)] } 0 = 32768 ∧
      State.modeQ { State.reset with regs := [(0x20100, 0x014A)] } 0 = 40960 := by decide +kernel

/-- "A summing loop": the seven instructions, byte by byte, and the block copy of its last sentence
(12_hearth_instruction_set.md, R315 to R323). -/
def dec (l : List Byte) : Option (HOp × HForm × Nat) :=
  match hdecode false false (fun _ => 0) l with
  | .ok i => some (i.op, i.form, i.len)
  | .error _ => none

theorem test_decode_sum :
    dec [0x06, 0x20, 0x10] = some (.mov, .ri ⟨false, 2⟩ 16, 3) ∧ dec [0x06, 0x30, 0x00] = some (.mov, .ri ⟨false, 3⟩ 0, 3) ∧
      dec [0x18, 0x30] = some (.add, .mem ⟨false, 3⟩ false false 0 0 0, 2) ∧
      dec [0x16, 0x00, 0x02] = some (.add, .ri ⟨false, 0⟩ 2, 3) ∧ dec [0xB0, 0x23] = some (.dec, .one ⟨false, 2⟩, 2) ∧
      dec [0xD1, 0xF7] = some (.jcc, .rel 1 false 0xFFF7, 2) ∧ dec [0x02, 0x23] = some (.mov, .rr ⟨true, 2⟩ ⟨false, 3⟩, 2) ∧
      dec [0xC7, 0x25] = some (.mts, .special ⟨false, 2⟩ 5, 2) := by decide +kernel

theorem test_decode_repeat :
    (match hdecode false false (fun _ => 0) [0xF0, 0xB7, 0x10] with
     | .ok i => some (i.pre.rep, i.op, i.form) | .error _ => none) = some (.rpt, .scpy, .rr ⟨false, 1⟩ ⟨false, 0⟩) := by
  decide +kernel

/-- One word of each further group of the opcode map, written out from R318 to R323, and refused encodings (R316, R317,
R320). -/
theorem test_decode_groups :
    dec [0x8D, 0x5A, 0x04] = some (.xor, .mem ⟨false, 5⟩ true true 2 1 4, 3) ∧ dec [0xA2, 0x01, 0x34, 0x12] =
        some (.ldb, .mem ⟨false, 0⟩ false false 1 2 0x1234, 4) ∧ dec [0xB5, 0x25] = some (.divu, .rr ⟨false, 2⟩ ⟨false, 5⟩, 2) ∧
      dec [0xC2, 0x4F] = some (.sar, .count ⟨false, 4⟩ 15, 2) ∧ dec [0xCE, 0x34, 0x02, 0x00, 0x10] =
        some (.jmpf, .far 0x234 0x1000, 5) ∧ dec [0xF9, 0x2E] = some (.trap, .imm 0x2E, 2) ∧
      dec [0xF8, 0x04] = some (.tend, .none, 2) ∧ dec [0xFC, 0x90] = some (.waitdb, .one ⟨false, 9⟩, 2) ∧
      dec [0xF3, 0xF3, 0x00, 0x12] = none ∧ dec [0xFD] = none ∧ dec [0xB0, 0x27] = none ∧ dec [0x03, 0x29] = none ∧
      dec [0xC9, 0x21] = none := by and_intros <;> decide +kernel

/-- The check value of the CRC-32 of R139: the CRC of the digits 1 to 9. -/
theorem test_crc32 : crc32 [0x31, 0x32, 0x33, 0x34, 0x35, 0x36, 0x37, 0x38, 0x39] = 0xCBF43926 := by decide +kernel

/-- AF is 1 at 85 °C and 800 mV, and doubles with 10 °C and with 50 mV (R460). -/
theorem test_ageing : ageing 680 800 = 2 ^ 48 ∧ ageing 760 800 = 2 ^ 49 ∧ ageing 680 850 = 2 ^ 49 ∧ ageing 600 850 = 2 ^ 48 := by
  decide +kernel

/-- "A re-plan in a Tamsel car": h = 34 taps; with h down by 3 in 1,024 seasoned hours and α = 0.41 the prediction is
28,305 hours, 1,769 units of 16 hours (18_seasoning_and_supervision.md, R466). -/
theorem test_end_of_season :
    State.headroom { State.reset with ssn := { State.reset.ssn with slack := [98], temp := [880], mv := 860 },
                                      regs := [(0xF0020, 96)] } = 34 ∧
      eosUnits (eosHours 34 (-3) 1024000000 466489) = 1769 := by decide +kernel

/-- "A flag and a handover": the owner's write wins over a write of the same beat (15_memory_banks.md, R404, R406). -/
theorem test_owner_wins :
    let s : State := { State.reset with regs := [(0xC0140, 4), (0xC0144, 1), (0xC0148, 1)] }
    let t := ((s.memWrite 4 0x500100 .word 0).1.memWrite 16 0x1500100 .word 1).1
    Memory.word t.bank.mem 0x500100 = 0 := by decide +kernel

/-! ## Witnesses

For each clause of a statement that has premises: operands and a state that meet all of them together. -/

/-- A header of a ring frame. -/
def hdr (slot type : Nat) : RHdr :=
  { tick := 0, launch := 77, strike := 5, mode := 0, slot := slot, dir := false, heal := false, type := type, vreq := false,
    vmode := 0, vgo := false, vdly := 0, folded := false }

/-- A frame that comes in at port 3. -/
def frm (bytes : List Byte) (dec : Option Decision) : Frame :=
  { id := 77, ingress := 3, express := true, bytes := bytes, stamp := 0, res := 0, cellsRes := 0, cellsPool := 1, dec := dec,
    verdict := none, needs := [], opts := none, oversize := false, asIs := false }

/-- A plain decision: to port 0. -/
def plain : Decision :=
  { vid := 1, pri := 0, queue := 0, tagged := false, trapped := false, consumed := false, egress := [0], cut := [],
    rule := none, mirror := 0, drop := none }

theorem witness_ServoCommands :
  (∃ (m : Master) (s : State),
      (s.writes m 0x10000) ∧
      (s.tick.running = false)) ∧
  (∃ (m : Master) (s : State),
      (s.writes m 0x10000) ∧
      (s.tick.running = true)) ∧
  (∃ (m : Master) (s : State),
      (s.writes m 0x10000)) ∧
  (∃ (m : Master) (_en : Bool) (s : State),
      (s.writes m 0x10000)) ∧
  (∃ (m : Master) (_src : BitVec 3) (s : State),
      (s.writes m 0x10000)) ∧
  (∃ (m : Master) (_v : Word) (s : State),
      (s.writes m 0x10064) ∧
      (bit (s.reg 0x10000) 0 = true) ∧
      (fld (s.reg 0x10000) 1 3 = 1)) ∧
  (∃ (s : State),
      (s.on) ∧
      (bit (s.reg 0x10000) 0 = true) ∧
      (1 ≤ fld (s.reg 0x10000) 1 3) ∧
      (fld (s.reg 0x10000) 1 3 ≤ 4) ∧
      (s.time.hold = false)) := by
  refine ⟨⟨15, State.reset, ?_⟩,
    ⟨15, { State.reset with tick := { State.reset.tick with running := true } }, ?_⟩,
    ⟨15, State.reset, ?_⟩,
    ⟨15, false, State.reset, ?_⟩,
    ⟨15, 0, State.reset, ?_⟩,
    ⟨15, 0, { State.reset with regs := [(65536, 0x3)] }, ?_⟩,
    ⟨{ State.reset with regs := [(65536, 0x3)] }, ?_⟩⟩ <;> (try dsimp only) <;> and_intros <;> decide +kernel

theorem witness_ClockChecksAndConversion :
  (∃ (_per : BitVec 32) (s : State),
      (s.on)) ∧
  (∃ (_cycles : Nat) (s : State),
      (s.on)) ∧
  (∃ (m : Master) (_v : Word) (s : State),
      (s.writes m 0x1007A)) := by
  refine ⟨⟨0, State.reset, ?_⟩,
    ⟨0, State.reset, ?_⟩,
    ⟨15, 0, State.reset, ?_⟩⟩ <;> (try dsimp only) <;> and_intros <;> decide +kernel

theorem witness_TimestampInputs :
  (∃ (i : Fin 16) (rising : Bool) (_sub : Fin 8) (s : State),
      (s.on) ∧
      (bit (s.reg (0x10080 + 0x10 * i.val)) 0 = true) ∧
      (bit (s.reg (0x10080 + 0x10 * i.val)) (if rising then 1 else 2) = true)) ∧
  (∃ (m : Master) (i : Fin 16) (s : State),
      (s.reads m (0x10084 + 0x10 * i.val))) ∧
  (∃ (m : Master) (i : Fin 16) (s : State),
      (s.writes m (0x10080 + 0x10 * i.val))) := by
  refine ⟨⟨1, false, 0, { State.reset with regs := [(65680, 0x7)] }, ?_⟩,
    ⟨15, 0, State.reset, ?_⟩,
    ⟨15, 0, State.reset, ?_⟩⟩ <;> (try dsimp only) <;> and_intros <;> decide +kernel

theorem witness_TimedOutputs :
  (∃ (j : Fin 4) (s : State),
      (s.on) ∧
      (fld (s.reg (0x10200 + 0x10 * j.val)) 0 3 = 3) ∧
      (-2147483648 ≤ s.time.adj)) ∧
  (∃ (j : Fin 4) (b : Nat) (s : State),
      (s.on) ∧
      (s.time.tso[j].pulse = some b)) ∧
  (∃ (j : Fin 4) (h : BitVec 80) (r : List (BitVec 80)) (s : State),
      (s.on) ∧
      (s.time.tso[j].queue = h :: r) ∧
      (h.toNat < s.time.todx / 2 ^ 45 % 2 ^ 80)) ∧
  (∃ (j : Fin 4) (h : BitVec 80) (r : List (BitVec 80)) (s : State),
      (s.on) ∧
      (s.time.tso[j].queue = h :: r) ∧
      (s.time.todx / 2 ^ 45 % 2 ^ 80 ≤ h.toNat) ∧
      (-2147483648 ≤ s.time.adj)) ∧
  (∃ (m : Master) (j : Fin 4) (_v : Word) (s : State),
      (s.writes m (0x1020C + 0x10 * j.val)) ∧
      (fld (s.reg (0x10200 + 0x10 * j.val)) 0 3 = 6)) ∧
  (∃ (m : Master) (j : Fin 4) (_mode : BitVec 3) (s : State),
      (s.writes m (0x10200 + 0x10 * j.val))) := by
  refine ⟨⟨3, { State.reset with regs := [(66096, 0x333)] }, ?_⟩,
    ⟨3, 4, { State.reset with time := { State.reset.time with tso := State.reset.time.tso.set 3 ({ State.reset.time.tso[3] with pulse := (some 4) }) } }, ?_⟩,
    ⟨1, 0, [], { State.reset with time := { State.reset.time with todx := 67108863998563, tso := State.reset.time.tso.set 1 ({ State.reset.time.tso[1] with queue := [0] }) } }, ?_⟩,
    ⟨3, 0xffffffffffffffffffff, [], { State.reset with time := { State.reset.time with tso := State.reset.time.tso.set 3 ({ State.reset.time.tso[3] with queue := [0xffffffffffffffffffff] }) } }, ?_⟩,
    ⟨15, 3, 0, { State.reset with regs := [(66096, 0x6)] }, ?_⟩,
    ⟨15, 0, 0, State.reset, ?_⟩⟩ <;> (try dsimp only) <;> and_intros <;> decide +kernel

theorem witness_TickAndStrike :
  (∃ (s : State),
      (s.on) ∧
      (s.tick.running = true) ∧
      (bit (s.reg 0x20000) 0 = true)) ∧
  (∃ (s : State),
      (s.on) ∧
      (s.tick.running = true) ∧
      (bit (s.reg 0x20000) 0 = false)) ∧
  (∃ (b : Nat) (m : Fin 8) (s : State),
      (s.on) ∧
      (s.tick.running = false) ∧
      (s.tick.starting = some (b, m)) ∧
      (bit (s.reg 0x20000) 0 = true)) ∧
  (∃ (s : State),
      (s.on) ∧
      (s.tick.running = true) ∧
      (s.tick.struck = false)) ∧
  (∃ (m : Master) (_mode : BitVec 3) (s : State),
      (s.writes m 0x20000) ∧
      (s.tick.running = false)) ∧
  (∃ (m : Master) (s : State),
      (s.writes m 0x20000)) := by
  refine ⟨⟨{ State.reset with tick := { State.reset.tick with running := true }, regs := [(131072, 0x1)] }, ?_⟩,
    ⟨{ State.reset with tick := { State.reset.tick with running := true } }, ?_⟩,
    ⟨3, 0, { State.reset with tick := { State.reset.tick with starting := (some (3, 0)) }, regs := [(131072, 0x1)] }, ?_⟩,
    ⟨{ State.reset with tick := { State.reset.tick with running := true } }, ?_⟩,
    ⟨15, 0, State.reset, ?_⟩,
    ⟨15, State.reset, ?_⟩⟩ <;> (try dsimp only) <;> and_intros <;> decide +kernel

theorem witness_PhasesAndOverruns :
  (∃ (r : JRun) (s : State),
      (s.on) ∧
      (s.jnr.run = some r) ∧
      (r.out = false) ∧
      (r.next = r.stop)) ∧
  (∃ (r : JRun) (s : State),
      (s.on) ∧
      (s.jnr.run = some r) ∧
      (r.out = false) ∧
      (r.expired = false)) ∧
  (∃ (r : JRun) (s : State),
      (s.on) ∧
      (s.jnr.run = some r) ∧
      (r.out = true) ∧
      (r.expired = false)) ∧
  (∃ (s : State),
      (s.on) ∧
      (s.tick.running = true) ∧
      (s.jnr.inDone = true) ∧
      (s.jnr.outStarted = false) ∧
      (s.jnr.run = none)) ∧
  (∃ (s : State),
      (s.on) ∧
      (s.tick.running = true) ∧
      (s.tick.sealClosed = false)) ∧
  (∃ (h : HearthId) (k : Task) (s : State),
      (s.on) ∧
      (s.tick.tasks[h] = some k) ∧
      (k.overrun = false)) := by
  refine ⟨⟨{ out := false, next := 0, stop := 0, sink := none, done := [], start := 13, expired := false }, { State.reset with jnr := { State.reset.jnr with run := (some { out := false, next := 0, stop := 0, sink := none, done := [], start := 13, expired := false }) } }, ?_⟩,
    ⟨{ out := false, next := 4, stop := 0, sink := none, done := [], start := 13, expired := false }, { State.reset with jnr := { State.reset.jnr with run := (some { out := false, next := 4, stop := 0, sink := none, done := [], start := 13, expired := false }) } }, ?_⟩,
    ⟨{ out := true, next := 4, stop := 0, sink := none, done := [], start := 13, expired := false }, { State.reset with jnr := { State.reset.jnr with run := (some { out := true, next := 4, stop := 0, sink := none, done := [], start := 13, expired := false }) } }, ?_⟩,
    ⟨{ State.reset with tick := { State.reset.tick with running := true }, jnr := { State.reset.jnr with inDone := true } }, ?_⟩,
    ⟨{ State.reset with tick := { State.reset.tick with running := true } }, ?_⟩,
    ⟨5, { release := 4, budget := 0, overrun := false, thisTick := true, ended := false }, { State.reset with tick := { State.reset.tick with tasks := State.reset.tick.tasks.set 5 ((some { release := 4, budget := 0, overrun := false, thisTick := true, ended := false })) } }, ?_⟩⟩ <;> (try dsimp only) <;> and_intros <;> decide +kernel

theorem witness_SealsAndRequests :
  (∃ (m : Master) (v : Word) (s : State),
      (s.writes m 0x20020) ∧
      let i := v.toNat % 1024;
      (s.imgUnc i = false) ∧
      (s.imgProducer i = m.val) ∧
      ((s.image i).sealed = false) ∧
      (s.tick.running = true) ∧
      ((s.tick.first = false ∨ s.tick.struck = true)) ∧
      (s.tick.sealClosed = false) ∧
      (s.time.beat < s.deadline) ∧
      (s.inOverrun m = false)) ∧
  (∃ (m : Master) (v : Word) (s : State),
      (s.writes m 0x20020) ∧
      let i := v.toNat % 1024;
      (s.imgUnc i = false) ∧
      (s.imgProducer i ≠ m.val ∨ (s.image i).sealed = true ∨ s.time.beat ≥ s.deadline)) ∧
  (∃ (m : Master) (v : Word) (s : State),
      (s.writes m 0x20008) ∧
      (bit v 11 = false) ∧
      (s.tick.running = true) ∧
      (s.tick.req = none) ∧
      ((∀ c : ChanId, s.ring[c].vreq = false)) ∧
      (2 ≤ fld v 3 8) ∧
      (s.modeOk (fld v 0 3) = true)) ∧
  (∃ (m : Master) (v : Word) (s : State),
      (s.writes m 0x20008) ∧
      (bit v 11 = false) ∧
      (s.tick.running = false ∨ s.tick.req ≠ none ∨ fld v 3 8 < 2)) := by
  refine ⟨⟨15, 0x4, { State.reset with tick := { State.reset.tick with running := true, pk := 36004 }, jnr := { State.reset.jnr with img := [(64, 0xf4)] }, regs := [(131328, 0x10a)] }, ?_⟩,
    ⟨15, 0, State.reset, ?_⟩,
    ⟨15, 0x407, { State.reset with tick := { State.reset.tick with running := true }, regs := [(131552, 0x10a), (131554, 0x20)] }, ?_⟩,
    ⟨15, 0, State.reset, ?_⟩⟩ <;> (try dsimp only) <;> and_intros <;> decide +kernel

theorem witness_JoinMoveCarriesOneField :
  (∃ (r : JRun) (s : State),
      (s.on) ∧
      (s.jnr.run = some r) ∧
      (r.out = false) ∧
      (r.next < r.stop) ∧
      (s.jnr.dscEcc = []) ∧
      (s.jnr.imgEcc = []) ∧
      (s.jnr.prmEcc = []) ∧
      (s.jnr.sigEcc = []) ∧
      (s.bank.ecc = []) ∧
      (s.bank.beatW = []) ∧
      let d := s.desc r.next;
      let i := d.srcImg;
      let k := d.dstImg;
      let sa := s.imgBase i (!s.jnr.side) + d.srcBit / 16 * 2;
      let da := s.imgBase k s.jnr.side + d.dstBit / 16 * 2;
      (d.en = true) ∧
      (d.out = false) ∧
      (k ∉ r.done) ∧
      (d.srcBe = false) ∧
      (d.dstBe = false) ∧
      (d.qidx = 0xFFF) ∧
      (d.srcBit % 16 + d.srcW ≤ 16) ∧
      (d.dstBit % 16 + d.dstW ≤ 16) ∧
      (s.isIntake i = true) ∧
      (s.imgLocal i = false) ∧
      (s.imgLocal k = false) ∧
      ((s.jimage i).snap.fresh = true) ∧
      ((s.jimage i).snap.lost = false) ∧
      ((s.jimage i).snap.supplyInv = false) ∧
      (d.srcBit + d.srcW ≤ 8 * (s.jimage i).snap.len) ∧
      (s.imgBase i (!s.jnr.side) % 2 = 0) ∧
      (s.imgBase k s.jnr.side % 2 = 0) ∧
      (sa < 0x1000000) ∧
      (da < 0x1000000) ∧
      (s.bankOwner (bankIdx sa) = 12) ∧
      (s.bankOwner (bankIdx da) = 12) ∧
      (s.bank.banks[bankIdx sa].asleep = false) ∧
      (s.bank.banks[bankIdx da].asleep = false) ∧
      (s.forceOf r.next = none) ∧
      ((s.jimage i).age ≤ 254) ∧
      (d.ageMax = 255 ∨ (s.jimage i).age ≤ d.ageMax) ∧
      let raw := fld (Memory.word s.bank.mem sa) (d.srcBit % 16) d.srcW;
      (isFlt d.srcFmt = false ∨ fltBad d.srcFmt raw = false)) := by
  refine ⟨{ out := false, next := 2, stop := 3, sink := none, done := [], start := 14, expired := true }, { State.reset with jnr := { State.reset.jnr with dsc := [(16, 0x2c01), (21, 0x101), (23, 0xfff)], img := [(16, 0xc1)], images := [(1, { age := 0, filling := { fresh := false, lost := false, supplyInv := false, len := 0 }, snap := { fresh := true, lost := false, supplyInv := false, len := 64 }, good := none, goodLen := 0, hvSide := false })], run := (some { out := false, next := 2, stop := 3, sink := none, done := [], start := 14, expired := true }) }, regs := [(786432, 0xc)] }, ?_⟩ <;> (try dsimp only) <;> and_intros <;> decide +kernel

theorem witness_ConversionOfIntegers :
  (∃ (d : Desc) (p : Param) (raw : Nat) (_h : SigState),
      (d.srcFmt ≤ 1) ∧
      (d.dstFmt ≤ 1) ∧
      (d.edge = 0) ∧
      (1 ≤ d.srcW) ∧
      (1 ≤ d.dstW) ∧
      (d.srcW ≤ 64) ∧
      (d.dstW ≤ 64) ∧
      (raw < 2 ^ d.srcW) ∧
      (p.limLo ≤ p.limHi) ∧
      let x0 : Int := if d.srcFmt = 1 ∧ 2 ^ (d.srcW - 1) ≤ raw then (raw : Int) - 2 ^ d.srcW else raw;
      (x0 * p.factor ≤ 2 ^ 94) ∧
      (-(2 ^ 94) ≤ x0 * p.factor) ∧
      (p.offset.natAbs ≤ 2 ^ 31)) ∧
  (∃ (d : Desc) (_p : Param) (_raw : Nat) (_h : SigState),
      (d.srcFmt = 2) ∧
      (d.dstFmt ≤ 2) ∧
      (d.edge = 0) ∧
      (d.scale = false) ∧
      (d.limit = false) ∧
      (2 ≤ d.dstW)) ∧
  (∃ (d : Desc) (_p : Param) (_raw : Nat) (_h : SigState),
      (d.srcFmt = 0) ∧
      (d.edge ≠ 0) ∧
      (d.dstFmt = 0)) ∧
  (∃ (d : Desc) (_p : Param) (_raw : Nat) (_h : SigState),
      (d.srcFmt = 5)) := by
  refine ⟨⟨{ srcImg := 6764, srcW := 35, srcBit := 1, srcFmt := 1, srcBe := true, dstImg := 0, dstW := 33, dstBit := 65428, dstFmt := 0, dstBe := true, scale := true, limit := true, edge := 0, en := true, out := true, subst := 1, ageMax := 6, param := 10, qidx := 3 }, { factor := 1, shift := 62742, fbits := 63601, offset := 0, limLo := 0, limHi := 283, preset := 3476436 }, 0, { quality := 0x4, wrote := false, last := false, lastKnown := true }, ?_⟩,
    ⟨{ srcImg := 18, srcW := 0, srcBit := 0, srcFmt := 2, srcBe := true, dstImg := 256, dstW := 4, dstBit := 49980, dstFmt := 0, dstBe := false, scale := false, limit := false, edge := 0, en := false, out := true, subst := 0, ageMax := 0, param := 0, qidx := 64123 }, { factor := 10, shift := 2, fbits := 0, offset := -3989456, limLo := 0, limHi := 1, preset := 7 }, 0, { quality := 0x43b0, wrote := false, last := true, lastKnown := false }, ?_⟩,
    ⟨{ srcImg := 18, srcW := 0, srcBit := 0, srcFmt := 0, srcBe := true, dstImg := 256, dstW := 4, dstBit := 49980, dstFmt := 0, dstBe := false, scale := false, limit := true, edge := 187, en := false, out := true, subst := 0, ageMax := 0, param := 0, qidx := 64123 }, { factor := 10, shift := 2, fbits := 0, offset := -3989456, limLo := 0, limHi := 1, preset := 7 }, 0, { quality := 0x43b0, wrote := false, last := true, lastKnown := false }, ?_⟩,
    ⟨{ srcImg := 13, srcW := 0, srcBit := 5, srcFmt := 5, srcBe := false, dstImg := 3, dstW := 3, dstBit := 48308, dstFmt := 1, dstBe := false, scale := false, limit := false, edge := 1, en := true, out := false, subst := 29164, ageMax := 1222165, param := 64995, qidx := 1 }, { factor := -1, shift := 2, fbits := 5, offset := -3, limLo := 1, limHi := 89, preset := 1 }, 0, { quality := 0xcf03, wrote := false, last := true, lastKnown := true }, ?_⟩⟩ <;> (try dsimp only) <;> and_intros <;> decide +kernel

theorem witness_FloatSinksAreFinite :
  (∃ (fmt : Nat) (_fbits : Nat) (_x : Int),
      (fmt = 3 ∨ fmt = 4)) := by
  refine ⟨3, 0, 0, ?_⟩ <;> (try dsimp only) <;> and_intros <;> decide +kernel

theorem witness_PostsAndStaging :
  (∃ (m : Master) (_v : Word) (s : State),
      (s.writes m 0x30008)) ∧
  (∃ (m : Master) (v : Word) (s : State),
      (s.writes m 0x3000A) ∧
      let i := v.toNat % 1024;
      let len := if s.jnr.postLen[m] = 0 then 32768 else s.jnr.postLen[m].toNat;
      (s.imgUnc i = false) ∧
      (s.isIntake i = true) ∧
      (s.imgLocal i = false) ∧
      (s.imgProducer i = m.val) ∧
      (len ≤ s.imgLen i) ∧
      (bit v 10 = s.jnr.side)) ∧
  (∃ (m : Master) (v : Word) (s : State),
      (s.writes m 0x3000A) ∧
      (s.imgProducer (v.toNat % 1024) ≠ m.val)) ∧
  (∃ (m : Master) (s : State),
      (s.writes m 0x30014) ∧
      let i := s.pair 0x30010 % 262144;
      ((∀ k, k < 8 → Sparse.get 0 s.jnr.dscEcc (8 * i + k) = 0))) ∧
  (∃ (m : Master) (s : State),
      (s.writes m 0x30042) ∧
      let i := fld (s.reg 0x30040) 0 10;
      ((∀ k, k < 16 → Sparse.get 0 s.jnr.imgEcc (16 * i + k) = 0))) ∧
  (∃ (m : Master) (s : State),
      (s.writes m 0x30082) ∧
      let i := fld (s.reg 0x30080) 0 12;
      (i ≠ 4095) ∧
      ((∀ k, k < 16 → Sparse.get 0 s.jnr.prmEcc (16 * i + k) = 0))) ∧
  (∃ (m : Master) (s : State),
      (s.writes m 0x30014) ∧
      (s.jnr.heldDsc = none) ∧
      let w := (List.range 8).map (fun k => s.reg (0x30020 + 2 * k));
      let d := descOf w;
      (d.en = false ∨ (s.imgUnc d.srcImg = false ∧ s.imgUnc d.dstImg = false ∧ s.descOk d = true))) ∧
  (∃ (m : Master) (s : State),
      (s.writes m 0x30042) ∧
      (s.jnr.heldImg = none)) ∧
  (∃ (m : Master) (s : State),
      (s.writes m 0x30082) ∧
      (s.jnr.heldPrm = none) ∧
      (fld (s.reg 0x30080) 0 12 ≠ 4095)) ∧
  (∃ (m : Master) (s : State),
      (s.writes m 0x30042) ∧
      (s.jnr.heldImg ≠ none)) := by
  refine ⟨⟨15, 0, State.reset, ?_⟩,
    ⟨15, 0, { State.reset with jnr := { State.reset.jnr with img := [(0, 0xf1)] } }, ?_⟩,
    ⟨15, 0, State.reset, ?_⟩,
    ⟨15, State.reset, ?_⟩,
    ⟨15, State.reset, ?_⟩,
    ⟨15, State.reset, ?_⟩,
    ⟨15, State.reset, ?_⟩,
    ⟨15, State.reset, ?_⟩,
    ⟨15, State.reset, ?_⟩,
    ⟨15, { State.reset with jnr := { State.reset.jnr with heldImg := some { idx := 0, words := [] } } }, ?_⟩⟩ <;> (try dsimp only) <;> and_intros <;> decide +kernel

theorem witness_FramesArriveAndAreDecided :
  (∃ (p : PortId) (express : Bool) (_sub : Fin 8) (_ui : Nat) (_l : List Byte) (s : State),
      (s.on) ∧
      (bit (s.reg 0x40000) 0 = true) ∧
      (p.val < 10) ∧
      (s.mac.ports[p].up = true) ∧
      (bit (s.reg (macOff p.val)) 6 = true) ∧
      let ex := express || !s.preempts p;
      ((∀ g ∈ s.swf.frames, g.ingress = p → g.verdict = none → g.express ≠ ex)) ∧
      let res := (s.reg (swfPort p.val + 0xA)).toNat;
      let own := decide (s.swf.resUsed[p] < res);
      (own = true ∨ 0 < s.poolFree)) ∧
  (∃ (p : PortId) (express : Bool) (_sub : Fin 8) (_ui : Nat) (_l : List Byte) (f : Frame) (s : State),
      (s.on) ∧
      (bit (s.reg 0x40000) 0 = true) ∧
      (p.val < 10) ∧
      (s.mac.ports[p].up = true) ∧
      (bit (s.reg (macOff p.val)) 6 = true) ∧
      let ex := express || !s.preempts p;
      (s.swf.frames.find? (fun g => g.ingress == p && g.verdict.isNone && g.express == ex) = some f) ∧
      let own := decide (s.swf.resUsed[p] < f.res);
      (own = true ∨ 0 < s.poolFree)) ∧
  (∃ (p : PortId) (express : Bool) (_sub : Fin 8) (_ui : Nat) (_l : List Byte) (f : Frame) (s : State),
      (s.on) ∧
      (bit (s.reg 0x40000) 0 = true) ∧
      (p.val < 10) ∧
      (s.mac.ports[p].up = true) ∧
      (bit (s.reg (macOff p.val)) 6 = true) ∧
      let ex := express || !s.preempts p;
      (s.swf.frames.find? (fun g => g.ingress == p && g.verdict.isNone && g.express == ex) = some f) ∧
      (f.res ≤ s.swf.resUsed[p]) ∧
      (s.poolFree = 0) ∧
      (f.dec = none)) ∧
  (∃ (p : PortId) (f : Frame) (s : State),
      (s.on) ∧
      (s.swf.frames.find? (fun g => g.ingress == p && g.verdict.isNone && g.dec.isNone && decide (22 ≤ g.bytes.length)) = some f)) ∧
  (∃ (p : PortId) (tail : TailInfo) (f : Frame) (d : Decision) (s : State),
      (s.on) ∧
      (p.val < 10) ∧
      ((s.swf.frames.filter (fun g => g.ingress == p && g.verdict.isNone)).getLast? = some f) ∧
      (s.swf.frames.find? (fun g => g.id == f.id) = some f) ∧
      (f.dec = some d) ∧
      (d.drop = none) ∧
      (d.consumed = false) ∧
      (f.oversize = false) ∧
      (tail.reassembly = false) ∧
      (tail.code = false) ∧
      (tail.ecc = none) ∧
      (64 ≤ f.bytes.length) ∧
      (f.bytes.drop (f.bytes.length - 4) = fcsBytes (f.bytes.take (f.bytes.length - 4))) ∧
      (f.bytes.drop (f.bytes.length - 4) ≠ stompBytes (f.bytes.take (f.bytes.length - 4)))) ∧
  (∃ (p : PortId) (tail : TailInfo) (f : Frame) (d : Decision) (s : State),
      (s.on) ∧
      (p.val < 10) ∧
      ((s.swf.frames.filter (fun g => g.ingress == p && g.verdict.isNone)).getLast? = some f) ∧
      (s.swf.frames.find? (fun g => g.id == f.id) = some f) ∧
      (f.dec = some d) ∧
      (d.drop = none) ∧
      (d.consumed = false) ∧
      (f.oversize = false) ∧
      (tail.reassembly = false) ∧
      (tail.code = false) ∧
      (tail.ecc = none) ∧
      (22 ≤ f.bytes.length) ∧
      (f.bytes.drop (f.bytes.length - 4) ≠ fcsBytes (f.bytes.take (f.bytes.length - 4))) ∧
      (f.bytes.drop (f.bytes.length - 4) ≠ stompBytes (f.bytes.take (f.bytes.length - 4)))) ∧
  (∃ (p : PortId) (f : Frame) (d : Decision) (s : State),
      (s.on) ∧
      (s.swf.frames.find? (fun g => g.ingress == p && g.verdict.isNone && g.oversize) = some f) ∧
      (f.dec = some d) ∧
      (d.drop = none)) := by
  refine ⟨⟨6, false, 0, 0, [], { State.reset with mac := { State.reset.mac with ports := State.reset.mac.ports.set 6 ({ State.reset.mac.ports[6] with up := true }) }, regs := [(262144, 0x1), (333824, 0x60)] }, ?_⟩,
    ⟨3, false, 0, 0, [], { id := 77, ingress := 3, express := true, bytes := [0xf3, 0xff, 0], stamp := 0xffffffffffffffffffff, res := 2, cellsRes := 1698700, cellsPool := 1, dec := none, verdict := none, needs := [1, 41681], opts := none, oversize := true, asIs := true }, { State.reset with swf := { State.reset.swf with frames := [{ id := 77, ingress := 3, express := true, bytes := [0xf3, 0xff, 0], stamp := 0xffffffffffffffffffff, res := 2, cellsRes := 1698700, cellsPool := 1, dec := none, verdict := none, needs := [1, 41681], opts := none, oversize := true, asIs := true }] }, mac := { State.reset.mac with ports := State.reset.mac.ports.set 3 ({ State.reset.mac.ports[3] with up := true }) }, regs := [(262144, 0x1), (330752, 0x60)] }, ?_⟩,
    ⟨3, false, 0, 0, [], { id := 77, ingress := 3, express := true, bytes := [], stamp := 0xee9728e57be5f0881d1, res := 0, cellsRes := 15393, cellsPool := 3, dec := none, verdict := none, needs := [16233], opts := none, oversize := false, asIs := true }, { State.reset with swf := { State.reset.swf with frames := [{ id := 77, ingress := 3, express := true, bytes := [], stamp := 0xee9728e57be5f0881d1, res := 0, cellsRes := 15393, cellsPool := 3, dec := none, verdict := none, needs := [16233], opts := none, oversize := false, asIs := true }], free := 0 }, mac := { State.reset.mac with ports := State.reset.mac.ports.set 3 ({ State.reset.mac.ports[3] with up := true }) }, regs := [(262144, 0x1), (330752, 0x60)] }, ?_⟩,
    ⟨3, frm (List.replicate 22 0) none, { State.reset with swf := { State.reset.swf with frames := [frm (List.replicate 22 0) none] } }, ?_⟩,
    ⟨3, { code := false, ecc := none, reassembly := false }, frm (List.replicate 60 0 ++ fcsBytes (List.replicate 60 0)) (some plain), plain, { State.reset with swf := { State.reset.swf with frames := [frm (List.replicate 60 0 ++ fcsBytes (List.replicate 60 0)) (some plain)] } }, ?_⟩,
    ⟨3, { code := false, ecc := none, reassembly := false }, frm (List.replicate 22 0) (some plain), plain, { State.reset with swf := { State.reset.swf with frames := [frm (List.replicate 22 0) (some plain)] } }, ?_⟩,
    ⟨3, { frm [] (some plain) with oversize := true }, plain, { State.reset with swf := { State.reset.swf with frames := [{ frm [] (some plain) with oversize := true }] } }, ?_⟩⟩ <;> (try dsimp only) <;> and_intros <;> decide +kernel

theorem witness_FramesLeave :
  (∃ (p : PortId) (q : Fin 8) (id : Nat) (s : State),
      (s.on) ∧
      (p.val = 10 ∨ (s.mac.ports[p].up = true ∧ bit (s.reg (macOff p.val)) 5 = true)) ∧
      (s.swf.ports[p].handed = []) ∧
      (s.swf.ports[p].sending = none) ∧
      (s.paused p = false) ∧
      (s.eligible p q = some id) ∧
      ((∀ k : Fin 8, q < k → s.eligible p k = none))) ∧
  (∃ (p : PortId) (id : Nat) (r : List Nat) (s : State),
      (s.on) ∧
      (p.val = 10 ∨ (s.mac.ports[p].up = true ∧ bit (s.reg (macOff p.val)) 5 = true)) ∧
      (s.swf.ports[p].handed = id :: r) ∧
      (s.swf.ports[p].sending = none)) ∧
  (∃ (p : PortId) (id : Nat) (v : Nat) (f : Frame) (s : State),
      (s.on) ∧
      (p.val < 10) ∧
      (s.swf.ports[p].sending = some id) ∧
      (s.frame? id = some f) ∧
      (f.verdict = some v)) ∧
  (∃ (p : PortId) (id : Nat) (f : Frame) (s : State),
      (s.on) ∧
      (p.val < 10) ∧
      (s.swf.ports[p].sending = some id) ∧
      (s.frame? id = some f) ∧
      (f.verdict = none) ∧
      (f.ingress.val = 10)) ∧
  (∃ (p : PortId) (s : State),
      (s.on) ∧
      (s.tick.running = true) ∧
      (p.val < 10) ∧
      let x := s.swf.ports[p];
      let g := s.gate p.val s.tick.mode.val x.gateIdx;
      (g.last = false) ∧
      (x.gateIdx < 63) ∧
      (x.gateFrom + g.dur < s.tick.tBeat + s.tick.pk)) ∧
  (∃ (p : PortId) (e : Nat) (s : State),
      (s.on) ∧
      (s.swf.ports[p].pauseEnd = some e)) := by
  refine ⟨⟨10, 4, 0, { State.reset with swf := { State.reset.swf with ports := State.reset.swf.ports.set 10 ({ State.reset.swf.ports[10] with queues := State.reset.swf.ports[10].queues.set 4 [0] }) } }, ?_⟩,
    ⟨10, 4, [], { State.reset with swf := { State.reset.swf with ports := State.reset.swf.ports.set 10 ({ State.reset.swf.ports[10] with handed := [4] }) } }, ?_⟩,
    ⟨0, 0, 32, { id := 0, ingress := 4, express := true, bytes := [0x87, 0xc4, 0xe9], stamp := 0xe58c1159550614640614, res := 11, cellsRes := 0, cellsPool := 0, dec := none, verdict := some 32, needs := [4], opts := some { group := 6, desc := 14, tsreq := true, onestep := true, qset := some 3, tsPort := 4421430, ptpOfs := 0 }, oversize := true, asIs := false }, { State.reset with swf := { State.reset.swf with frames := [{ id := 0, ingress := 4, express := true, bytes := [0x87, 0xc4, 0xe9], stamp := 0xe58c1159550614640614, res := 11, cellsRes := 0, cellsPool := 0, dec := none, verdict := some 32, needs := [4], opts := some { group := 6, desc := 14, tsreq := true, onestep := true, qset := some 3, tsPort := 4421430, ptpOfs := 0 }, oversize := true, asIs := false }], ports := State.reset.swf.ports.set 0 ({ State.reset.swf.ports[0] with sending := (some 0) }) } }, ?_⟩,
    ⟨3, 1, { id := 1, ingress := 10, express := false, bytes := [], stamp := 0, res := 14, cellsRes := 0, cellsPool := 3, dec := none, verdict := none, needs := [], opts := some { group := 11, desc := 13, tsreq := false, onestep := true, qset := some 5, tsPort := 250, ptpOfs := 49091 }, oversize := false, asIs := false }, { State.reset with swf := { State.reset.swf with frames := [{ id := 1, ingress := 10, express := false, bytes := [], stamp := 0, res := 14, cellsRes := 0, cellsPool := 3, dec := none, verdict := none, needs := [], opts := some { group := 11, desc := 13, tsreq := false, onestep := true, qset := some 5, tsPort := 250, ptpOfs := 49091 }, oversize := false, asIs := false }], ports := State.reset.swf.ports.set 3 ({ State.reset.swf.ports[3] with sending := (some 1) }) } }, ?_⟩,
    ⟨0, { State.reset with tick := { State.reset.tick with running := true, pk := 1 } }, ?_⟩,
    ⟨6, 4, { State.reset with swf := { State.reset.swf with ports := State.reset.swf.ports.set 6 ({ State.reset.swf.ports[6] with pauseEnd := (some 4) }) } }, ?_⟩⟩ <;> (try dsimp only) <;> and_intros <;> decide +kernel

theorem witness_SwitchTables :
  (∃ (m : Master) (s : State),
      (s.writes m 0x40202) ∧
      (s.swf.staged = none)) ∧
  (∃ (m : Master) (s : State),
      (s.writes m 0x40202) ∧
      (s.swf.staged = none)) ∧
  (∃ (m : Master) (e : Nat) (s : State),
      (s.writes m 0x40202) ∧
      (s.swf.staged = none) ∧
      let w := s.mtStage;
      let vid := fld (s.reg 0x40216) 0 12;
      let addr := ofWords [s.reg 0x40210, s.reg 0x40212, s.reg 0x40214];
      (s.mtEmpty vid addr = some e) ∧
      ((mtType w ≠ 1 ∧ mtType w ≠ 2) ∨ (portsOf (fld (nthD w 4 0) 0 11)).length = 1)) ∧
  (∃ (m : Master) (s : State),
      (s.writes m 0x40202) ∧
      (s.swf.staged = none) ∧
      let vid := fld (s.reg 0x40216) 0 12;
      let addr := ofWords [s.reg 0x40210, s.reg 0x40212, s.reg 0x40214];
      (s.mtEmpty vid addr = none)) ∧
  (∃ (m : Master) (e : Nat) (s : State),
      (s.writes m 0x40202) ∧
      (s.swf.staged = none) ∧
      let vid := fld (s.reg 0x40216) 0 12;
      let addr := ofWords [s.reg 0x40210, s.reg 0x40212, s.reg 0x40214];
      (s.mtFind vid addr = some e)) ∧
  (∃ (m : Master) (s : State),
      (s.writes m 0x40202) ∧
      (s.swf.staged = none) ∧
      let vid := fld (s.reg 0x40216) 0 12;
      let addr := ofWords [s.reg 0x40210, s.reg 0x40212, s.reg 0x40214];
      (s.mtFind vid addr = none)) ∧
  (∃ (m : Master) (s : State),
      (s.writes m 0x40222) ∧
      (s.swf.staged = none)) ∧
  (∃ (m : Master) (s : State),
      (s.writes m 0x40242) ∧
      (s.swf.staged = none)) ∧
  (∃ (m : Master) (s : State),
      (s.writes m 0x40242) ∧
      (s.swf.staged = none)) ∧
  (∃ (m : Master) (s : State),
      (s.writes m 0x40282) ∧
      (s.swf.staged = none) ∧
      (fld (s.reg 0x40280) 0 4 < 10) ∧
      let g := s.gate (fld (s.reg 0x40280) 0 4) (fld (s.reg 0x40280) 4 3) (fld (s.reg 0x40280) 7 6);
      (g.dur < 2 ^ 32)) ∧
  (∃ (m : Master) (s : State),
      (s.writes m 0x40282) ∧
      (s.swf.staged = none) ∧
      (fld (s.reg 0x40280) 0 4 < 10) ∧
      let md := fld (s.reg 0x40280) 4 3;
      (s.tick.running = false ∨ (s.tick.mode.val ≠ md ∧ (∀ r ∈ s.tick.req, r.mode.val ≠ md)))) ∧
  (∃ (m : Master) (s : State),
      (s.writes m 0x40282) ∧
      (s.inRun = true) ∧
      (s.tick.running = true) ∧
      (fld (s.reg 0x40280) 0 4 < 10) ∧
      (s.tick.mode.val = fld (s.reg 0x40280) 4 3)) ∧
  (∃ (m : Master) (x : Stage) (s : State),
      (s.writes m 0x40202) ∧
      (s.writes m 0x40222) ∧
      (s.writes m 0x40242) ∧
      (s.swf.staged = some x)) ∧
  (∃ (e : Nat) (w : List Word) (s : State),
      (s.on) ∧
      (s.swf.staged = some (.mt e w)) ∧
      (w.length = 5)) ∧
  (∃ (v : Nat) (w : List Word) (s : State),
      (s.on) ∧
      (s.swf.staged = some (.vl v w)) ∧
      (w.length = 2)) ∧
  (∃ (r : Nat) (w : List Word) (s : State),
      (s.on) ∧
      (s.swf.staged = some (.rl r w)) ∧
      (w.length = 16)) ∧
  (∃ (p : Nat) (md : Nat) (i : Nat) (g : Gate) (s : State),
      (s.on) ∧
      (s.swf.staged = some (.gcl ((p * 8 + md) * 64 + i) g))) ∧
  (∃ (s : State),
      (s.on) ∧
      ((s.reg 0x4000C).toNat ≠ 0) ∧
      (s.swf.tableEcc = []) ∧
      (Sparse.wf 0 s.swf.mt)) := by
  refine ⟨⟨15, State.reset, ?_⟩,
    ⟨15, State.reset, ?_⟩,
    ⟨15, 15188, { State.reset with regs := [(262672, 0x3), (262674, 0x4), (262676, 0x5)] }, ?_⟩,
    ⟨15, { State.reset with swf := { State.reset.swf with mt := [(75943, 0x2001), (75948, 0x2001), (75953, 0x2001), (75958, 0x2001)] }, regs := [(262672, 0x3), (262674, 0x4), (262676, 0x5)] }, ?_⟩,
    ⟨15, 15191, { State.reset with swf := { State.reset.swf with mt := [(75955, 0x3), (75956, 0x4), (75957, 0x5), (75958, 0x2000)] }, regs := [(262672, 0x3), (262674, 0x4), (262676, 0x5)] }, ?_⟩,
    ⟨15, State.reset, ?_⟩,
    ⟨15, State.reset, ?_⟩,
    ⟨15, State.reset, ?_⟩,
    ⟨15, State.reset, ?_⟩,
    ⟨15, State.reset, ?_⟩,
    ⟨15, State.reset, ?_⟩,
    ⟨15, { State.reset with tick := { State.reset.tick with running := true }, kdl := { State.reset.kdl with st := .run } }, ?_⟩,
    ⟨15, (Stage.vl 0 []), { State.reset with swf := { State.reset.swf with staged := (some (Stage.vl 0 [])) } }, ?_⟩,
    ⟨3, [0, 0x4d, 0x9a, 0xe7, 0x134], { State.reset with swf := { State.reset.swf with staged := (some (Stage.mt 3 [0, 0x4d, 0x9a, 0xe7, 0x134])) } }, ?_⟩,
    ⟨3, [0, 0x4d], { State.reset with swf := { State.reset.swf with staged := (some (Stage.vl 3 [0, 0x4d])) } }, ?_⟩,
    ⟨3, [0, 0x4d, 0x9a, 0xe7, 0x134, 0x181, 0x1ce, 0x21b, 0x268, 0x2b5, 0x302, 0x34f, 0x39c, 0x3e9, 0x436, 0x483], { State.reset with swf := { State.reset.swf with staged := (some (Stage.rl 3 [0, 0x4d, 0x9a, 0xe7, 0x134, 0x181, 0x1ce, 0x21b, 0x268, 0x2b5, 0x302, 0x34f, 0x39c, 0x3e9, 0x436, 0x483])) } }, ?_⟩,
    ⟨2, 3, 5, { gates := 0x2c, last := true, dur := 0 }, { State.reset with swf := { State.reset.swf with staged := (some (Stage.gcl 1221 { gates := 0x2c, last := true, dur := 0 })) } }, ?_⟩,
    ⟨{ State.reset with regs := [(262156, 0x3)] }, ?_⟩⟩ <;> (try dsimp only) <;> and_intros <;> decide +kernel

theorem witness_ReservesAndMirrorRings :
  (∃ (m : Master) (p : PortId) (_v : Word) (s : State),
      (s.writes m (swfPort p.val + 0xA))) ∧
  (∃ (m : Master) (n : Fin 4) (v : Word) (s : State),
      (s.writes m (mirOff n.val + 8)) ∧
      (4 ≤ fld v 0 4) ∧
      (fld v 0 4 ≤ 11)) ∧
  (∃ (m : Master) (n : Fin 4) (_v : Word) (s : State),
      (s.writes m (mirOff n.val + 0xC))) ∧
  (∃ (n : Fin 4) (r : CapRec) (q : List CapRec) (s : State),
      (s.on) ∧
      (s.swf.mirrors[n].queue = r :: q) ∧
      let x := s.swf.mirrors[n];
      ((x.wr - x.rd).toNat = 2 ^ fld (s.reg (mirOff n.val + 8)) 0 4)) ∧
  (∃ (n : Fin 4) (r : CapRec) (q : List CapRec) (s : State),
      (s.on) ∧
      (s.swf.mirrors[n].queue = r :: q) ∧
      (r.bytes.length = 128) ∧
      let x := s.swf.mirrors[n];
      let size := 2 ^ fld (s.reg (mirOff n.val + 8)) 0 4;
      let a : Nat := s.pair (mirOff n.val + 4) % 2 ^ 26 + 128 * (x.wr.toNat % size);
      let b := bankIdx a;
      (size < 65536) ∧
      ((x.wr - x.rd).toNat ≠ size) ∧
      (a % 128 = 0) ∧
      (a < 0x1000000) ∧
      (s.bankOwner b = 14) ∧
      (s.bank.banks[b].asleep = false) ∧
      (s.bank.beatW = [])) := by
  refine ⟨⟨15, 0, 0, State.reset, ?_⟩,
    ⟨15, 0, 0x4, State.reset, ?_⟩,
    ⟨15, 0, 0, State.reset, ?_⟩,
    ⟨1, { bytes := [] }, [], { State.reset with swf := { State.reset.swf with mirrors := State.reset.swf.mirrors.set 1 ({ State.reset.swf.mirrors[1] with rd := 0xfff0, queue := [{ bytes := [] }] }) }, regs := [(263208, 0x4)] }, ?_⟩,
    ⟨3, { bytes := List.replicate 128 0 }, [], { State.reset with swf := { State.reset.swf with mirrors := State.reset.swf.mirrors.set 3 { State.reset.swf.mirrors[3] with queue := [{ bytes := List.replicate 128 0 }] } }, regs := [(0xC0000, 14)] }, ?_⟩⟩ <;> (try dsimp only) <;> and_intros <;> decide +kernel

theorem witness_LinksAndLanes :
  (∃ (p : PortId) (_half : Bool) (rate : BitVec 4) (s : State),
      (s.on) ∧
      (s.macMode p.val ≠ 0) ∧
      let mode := s.macMode p.val;
      let an := bit (s.reg (macOff p.val)) 4 = true ∧ mode ≠ 1 ∧ mode ≠ 9;
      ((an → if mode ≤ 5 then 2 ≤ rate.toNat ∧ rate.toNat ≤ 5 else 6 ≤ rate.toNat ∧ rate.toNat ≤ 8))) ∧
  (∃ (p : PortId) (s : State),
      (s.on) ∧
      (p.val < 10)) ∧
  (∃ (m : Master) (p : PortId) (_v : Word) (s : State),
      (s.writes m (macOff p.val + 6))) ∧
  (∃ (p : PortId) (s : State),
      (s.on) ∧
      (s.mac.ports[p].ctle ≠ s.mac.ports[p].ctleTarget)) := by
  refine ⟨⟨6, false, 0x7, { State.reset with regs := [(333824, 0x16)] }, ?_⟩,
    ⟨0, State.reset, ?_⟩,
    ⟨15, 0, 0, State.reset, ?_⟩,
    ⟨0, { State.reset with mac := { State.reset.mac with ports := State.reset.mac.ports.set 0 { State.reset.mac.ports[0] with ctleTarget := 1 } } }, ?_⟩⟩ <;> (try dsimp only) <;> and_intros <;> decide +kernel

theorem witness_EndpointGroups :
  (∃ (m : Master) (g : Fin 16) (_v : Word) (s : State),
      (s.writes m (grpOff g.val + 8))) ∧
  (∃ (m : Master) (g : Fin 16) (_v : Word) (s : State),
      (s.writes m (grpOff g.val + 0x10))) ∧
  (∃ (m : Master) (g : Fin 16) (_v : Word) (s : State),
      (s.writes m (grpOff g.val))) ∧
  (∃ (m : Master) (g : Fin 16) (_v : Word) (s : State),
      (s.writes m (grpOff g.val + 0xE))) ∧
  (∃ (m : Master) (g : Fin 16) (e : TsEntry) (r : List TsEntry) (s : State),
      (s.reads m (grpOff g.val + 0x1A)) ∧
      (s.mac.groups[g].ts = e :: r)) ∧
  (∃ (g : Fin 16) (f : Frame) (id : Nat) (v : Nat) (d : Decision) (s : State),
      (s.on) ∧
      (s.swf.ports[(10 : PortId)].sending = some id) ∧
      (s.frame? id = some f) ∧
      (f.verdict = some v) ∧
      (f.dec = some d) ∧
      (s.swf.ports[(10 : PortId)].delivered = false) ∧
      (v < 256) ∧
      let body := s.egressBody f 10 0;
      let n := body.length;
      let x := s.mac.groups[g];
      let a : Nat := s.pair (grpOff g.val + 2) % 2 ^ 26 + s.grpSlot g.val * (x.rxwr.toNat % s.grpRxSize g.val);
      ((∀ k : Fin 16, s.grpAccepts k.val (hdrOf body).da d.vid.toNat d.trapped = decide (k = g))) ∧
      ((x.rxwr - x.rxrd).toNat ≠ s.grpRxSize g.val % 65536) ∧
      (n + 32 ≤ s.grpSlot g.val) ∧
      (a % 2 = 0) ∧
      (a + 32 + n ≤ 0x1000000) ∧
      (s.bankServes 13 .write a (32 + n))) ∧
  (∃ (g : Fin 16) (f : Frame) (id : Nat) (v : Nat) (d : Decision) (s : State),
      (s.on) ∧
      (s.swf.ports[(10 : PortId)].sending = some id) ∧
      (s.frame? id = some f) ∧
      (f.verdict = some v) ∧
      (f.dec = some d) ∧
      (s.swf.ports[(10 : PortId)].delivered = false) ∧
      let body := s.egressBody f 10 0;
      let x := s.mac.groups[g];
      ((∀ k : Fin 16, s.grpAccepts k.val (hdrOf body).da d.vid.toNat d.trapped = decide (k = g))) ∧
      ((x.rxwr - x.rxrd).toNat = s.grpRxSize g.val ∨ s.grpSlot g.val < body.length + 32) ∧
      (s.grpRxSize g.val < 65536)) ∧
  (∃ (g : Fin 16) (s : State),
      (s.on) ∧
      (bit (s.reg (grpOff g.val)) 0 = true) ∧
      let x := s.mac.groups[g];
      let i := x.txrd.toNat % 2 ^ fld (s.reg (grpOff g.val + 0xE)) 0 4;
      let a : Nat := s.pair (grpOff g.val + 0xA) % 2 ^ 26 + 16 * i;
      let l := Memory.bytes s.bank.mem a 16;
      let addr := ofBytes (l.take 4) % 2 ^ 26;
      let len := ofBytes ((l.drop 4).take 2) + 65536 * (ofBytes ((l.drop 6).take 2) % 2);
      let flags := ofBytes ((l.drop 6).take 2) / 2 % 16;
      (x.txwr ≠ x.txrd) ∧
      (flags = 0) ∧
      (14 ≤ len) ∧
      (max len 60 + 4 ≤ s.maxLen 10) ∧
      (addr + len ≤ 0x1000000) ∧
      (a + 16 ≤ 0x1000000) ∧
      (s.bankServes 13 .read a 16) ∧
      (s.bankServes 13 .read addr len) ∧
      (bit (s.reg 0x40000) 0 = true) ∧
      (144 < s.poolFree)) ∧
  (∃ (g : Fin 16) (s : State),
      (s.on) ∧
      (bit (s.reg (grpOff g.val)) 0 = true) ∧
      let x := s.mac.groups[g];
      let i := x.txrd.toNat % 2 ^ fld (s.reg (grpOff g.val + 0xE)) 0 4;
      let a : Nat := s.pair (grpOff g.val + 0xA) % 2 ^ 26 + 16 * i;
      let l := Memory.bytes s.bank.mem a 16;
      let len := ofBytes ((l.drop 4).take 2) + 65536 * (ofBytes ((l.drop 6).take 2) % 2);
      (x.txwr ≠ x.txrd) ∧
      (len < 14) ∧
      (a + 16 ≤ 0x1000000) ∧
      (s.bankServes 13 .read a 16)) := by
  refine ⟨⟨15, 0, 0, State.reset, ?_⟩,
    ⟨15, 0, 0, State.reset, ?_⟩,
    ⟨15, 0, 0, State.reset, ?_⟩,
    ⟨15, 0, 0, State.reset, ?_⟩,
    ⟨15, 1, { tod := 0x1000000000, desc := 1, missed := true }, [], { State.reset with mac := { State.reset.mac with groups := State.reset.mac.groups.set 1 ({ State.reset.mac.groups[1] with ts := [{ tod := 0x1000000000, desc := 1, missed := true }] }) } }, ?_⟩,
    ⟨15, { frm (List.replicate 64 0) (some plain) with verdict := some 0 }, 77, 0, plain, { State.reset with swf := { State.reset.swf with frames := [{ frm (List.replicate 64 0) (some plain) with verdict := some 0 }], ports := State.reset.swf.ports.set 10 { State.reset.swf.ports[10] with sending := some 77 } }, regs := [(341888, 0x4bc1), (786432, 0xd)] }, ?_⟩,
    ⟨15, { frm (List.replicate 64 0) (some plain) with verdict := some 0 }, 77, 0, plain, { State.reset with swf := { State.reset.swf with frames := [{ frm (List.replicate 64 0) (some plain) with verdict := some 0 }], ports := State.reset.swf.ports.set 10 { State.reset.swf.ports[10] with sending := some 77 } }, mac := { State.reset.mac with groups := State.reset.mac.groups.set 15 { State.reset.mac.groups[15] with rxrd := 0xfff0 } }, regs := [(341888, 0x4bc1)] }, ?_⟩,
    ⟨0, { State.reset with mac := { State.reset.mac with groups := State.reset.mac.groups.set 0 { State.reset.mac.groups[0] with txwr := 1 } }, regs := [(0x40000, 1), (0x53000, 1), (0xC0000, 13)], bank := { State.reset.bank with mem := [(4, 14)] } }, ?_⟩,
    ⟨0, { State.reset with mac := { State.reset.mac with groups := State.reset.mac.groups.set 0 { State.reset.mac.groups[0] with txwr := 1 } }, regs := [(0x40000, 1), (0x53000, 1), (0xC0000, 13)] }, ?_⟩⟩ <;> (try dsimp only) <;> and_intros <;> decide +kernel

theorem witness_RingStates :
  (∃ (m : Master) (c : ChanId) (s : State),
      (s.writes m (ringOff c.val)) ∧
      (bit (s.reg (ringOff c.val)) 0 = false)) ∧
  (∃ (m : Master) (c : ChanId) (s : State),
      (s.writes m (ringOff c.val)) ∧
      (bit (s.reg (ringOff c.val)) 0 = true)) ∧
  (∃ (m : Master) (c : ChanId) (s : State),
      (s.writes m (ringOff c.val)) ∧
      (s.ring[c].st = .master) ∧
      (bit (s.reg (ringOff c.val)) 0 = true)) ∧
  (∃ (m : Master) (c : ChanId) (s : State),
      (s.writes m (ringOff c.val)) ∧
      (s.ring[c].st = .master) ∧
      (bit (s.reg (ringOff c.val)) 0 = true)) ∧
  (∃ (c : ChanId) (lane : Lane) (s : State),
      (s.on) ∧
      (s.ring[c].st ≠ .off) ∧
      (s.ring[c].laneUp lane = true)) ∧
  (∃ (c : ChanId) (lane : Lane) (s : State),
      (s.on) ∧
      (s.ring[c].st ≠ .off) ∧
      (s.ring[c].laneUp lane = false)) ∧
  (∃ (c : ChanId) (lane : Lane) (_node : Byte) (_st : Byte) (s : State),
      (s.on) ∧
      (s.ring[c].st = .master) ∧
      (s.ring[c].laneUp lane = true)) ∧
  (∃ (c : ChanId) (s : State),
      (s.on) ∧
      (s.ring[c].folding = true) ∧
      (s.ring[c].inUp = true) ∧
      (s.ring[c].outUp = true)) ∧
  (∃ (c : ChanId) (s : State),
      (s.on) ∧
      (s.ring[c].st = .surveyed ∨ s.ring[c].st = .timed ∨ s.ring[c].st = .active ∨ s.ring[c].st = .clash)) ∧
  (∃ (c : ChanId) (s : State),
      (s.on) ∧
      (s.ring[c].heldKey ≠ 0) ∧
      (s.ring[c].st ≠ .claim) ∧
      (s.ring[c].st ≠ .master)) ∧
  (∃ (c : ChanId) (s : State),
      (s.on) ∧
      (s.ring[c].st = .listen) ∧
      (bit (s.reg 0x60000) 0 = true) ∧
      (s.kdl.straps.getLsbD 6 = true)) ∧
  (∃ (c : ChanId) (s : State),
      (s.on) ∧
      (s.ring[c].st = .claim) ∧
      (s.ring[c].claimBack = false)) := by
  refine ⟨⟨15, 0, State.reset, ?_⟩,
    ⟨15, 1, { State.reset with regs := [(393728, 0x5)] }, ?_⟩,
    ⟨15, 1, { State.reset with ring := State.reset.ring.set 1 ({ State.reset.ring[1] with st := .master }), regs := [(393728, 0x5)] }, ?_⟩,
    ⟨15, 1, { State.reset with ring := State.reset.ring.set 1 ({ State.reset.ring[1] with st := .master }), regs := [(393728, 0x5)] }, ?_⟩,
    ⟨1, Lane.inn, { State.reset with ring := State.reset.ring.set 1 ({ State.reset.ring[1] with st := .master, inUp := true }) }, ?_⟩,
    ⟨1, Lane.out, { State.reset with ring := State.reset.ring.set 1 ({ State.reset.ring[1] with st := .master }) }, ?_⟩,
    ⟨1, Lane.inn, 0, 0, { State.reset with ring := State.reset.ring.set 1 ({ State.reset.ring[1] with st := .master, inUp := true }) }, ?_⟩,
    ⟨1, { State.reset with ring := State.reset.ring.set 1 ({ State.reset.ring[1] with inUp := true, outUp := true, folding := true }) }, ?_⟩,
    ⟨1, { State.reset with ring := State.reset.ring.set 1 ({ State.reset.ring[1] with st := .timed }) }, ?_⟩,
    ⟨1, { State.reset with ring := State.reset.ring.set 1 ({ State.reset.ring[1] with heldKey := 0x0000000000000004 }) }, ?_⟩,
    ⟨1, { State.reset with ring := State.reset.ring.set 1 ({ State.reset.ring[1] with st := .listen }), kdl := { State.reset.kdl with straps := 0x40 }, regs := [(393216, 0x1)] }, ?_⟩,
    ⟨1, { State.reset with ring := State.reset.ring.set 1 ({ State.reset.ring[1] with st := .claim }) }, ?_⟩⟩ <;> (try dsimp only) <;> and_intros <;> first | exact segGoods_good _ _ | decide +kernel | rfl

theorem witness_ClaimsByKey :
  (∃ (c : ChanId) (lane : Lane) (f : RingWire) (s : State),
      (s.on) ∧
      (s.ring[c].st ≠ .off) ∧
      (s.ring[c].laneUp lane = true) ∧
      (s.ring[c].inUp = true) ∧
      (s.ring[c].outUp = true) ∧
      (hdrGood f = true) ∧
      ((rhdrOf f.header).type = 1) ∧
      (nthD (segGoods f) 0 false = true) ∧
      (f.code = none) ∧
      let key := ofBytes (f.payload.take 2) * 2 ^ 48 + ofBytes ((f.payload.drop 2).take 6);
      let rival := s.ring[c].st = .claim ∨ s.ring[c].st = .master;
      let held := max s.ring[c].heldKey.toNat (if rival then s.ownKey else 0);
      (held ≤ key) ∧
      ((rival → key ≠ s.ownKey))) ∧
  (∃ (c : ChanId) (lane : Lane) (f : RingWire) (s : State),
      (s.on) ∧
      (s.ring[c].st ≠ .off) ∧
      (s.ring[c].laneUp lane = true) ∧
      (s.ring[c].inUp = true) ∧
      (s.ring[c].outUp = true) ∧
      (hdrGood f = true) ∧
      ((rhdrOf f.header).type = 1) ∧
      (nthD (segGoods f) 0 false = true) ∧
      (f.code = none) ∧
      let key := ofBytes (f.payload.take 2) * 2 ^ 48 + ofBytes ((f.payload.drop 2).take 6);
      let rival := s.ring[c].st = .claim ∨ s.ring[c].st = .master;
      let held := max s.ring[c].heldKey.toNat (if rival then s.ownKey else 0);
      (key < held) ∧
      ((rival → key ≠ s.ownKey))) ∧
  (∃ (c : ChanId) (lane : Lane) (f : RingWire) (s : State),
      (s.on) ∧
      (s.ring[c].st = .claim) ∧
      (s.ring[c].laneUp lane = true) ∧
      (s.ring[c].inUp = s.ring[c].outUp) ∧
      (hdrGood f = true) ∧
      ((rhdrOf f.header).type = 1) ∧
      (nthD (segGoods f) 0 false = true) ∧
      (ofBytes (f.payload.take 2) * 2 ^ 48 + ofBytes ((f.payload.drop 2).take 6) = s.ownKey) ∧
      (s.ring[c].claimOut[if (rhdrOf f.header).dir then (1 : Fin 2) else 0] = 1) ∧
      (s.ring[c].claimBack = false) ∧
      (s.ring[c].ownReturns = 1)) := by
  refine ⟨⟨1, .out, RingWire.good (hdr 0 1) (2 :: List.replicate 63 0), { State.reset with ring := State.reset.ring.set 1 { State.reset.ring[1] with st := .claim, inUp := true, outUp := true } }, ?_⟩,
    ⟨1, .out, RingWire.good (hdr 0 1) (List.replicate 64 0), { State.reset with ring := State.reset.ring.set 1 { State.reset.ring[1] with st := .listen, inUp := true, outUp := true, heldKey := 5 } }, ?_⟩,
    ⟨1, .out, RingWire.good { hdr 0 1 with dir := true } (List.replicate 64 0), { State.reset with ring := State.reset.ring.set 1 { State.reset.ring[1] with st := .claim, inUp := true, outUp := true, ownReturns := 1, claimOut := State.reset.ring[1].claimOut.set 1 1 } }, ?_⟩⟩ <;> (try dsimp only) <;> and_intros <;> decide +kernel

theorem witness_RingDataFrames :
  (∃ (c : ChanId) (slot : Fin 4) (s : State),
      (s.on) ∧
      (s.ring[c].st = .master) ∧
      (s.tick.running = true) ∧
      (s.ring[c].freshTick < s.tick.tick) ∧
      (s.slotEn c.val s.tick.mode.val slot.val = true) ∧
      ((∀ x ∈ s.ring[c].launched, x.slot ≠ slot.val ∨ x.tick ≠ s.tick.tick)) ∧
      (s.ring[c].folded = false) ∧
      (s.ring[c].outUp = true) ∧
      (s.lastSlot c slot.val = false ∨ (s.ring[c].foreign = false ∧ s.ring[c].foreignPrev = false))) ∧
  (∃ (c : ChanId) (f : RingWire) (x : Launched) (s : State),
      (s.on) ∧
      (s.ring[c].st = .master) ∧
      (hdrGood f = true) ∧
      let h := rhdrOf f.header;
      (h.type = 0) ∧
      (s.ring[c].launched = [x]) ∧
      (x.slot = h.slot) ∧
      (x.tick = s.fullTick h) ∧
      (x.launch = h.launch) ∧
      (h.slot ≠ 0) ∧
      (h.dir = false) ∧
      (x.two = true)) ∧
  (∃ (c : ChanId) (f : RingWire) (s : State),
      (s.on) ∧
      (s.ring[c].st = .master) ∧
      (hdrGood f = true) ∧
      let h := rhdrOf f.header;
      (h.type = 0) ∧
      ((∀ x ∈ s.ring[c].launched, x.slot ≠ h.slot ∨ x.tick ≠ s.fullTick h ∨ x.launch ≠ h.launch))) ∧
  (∃ (c : ChanId) (f : RingWire) (s : State),
      (s.on) ∧
      (s.ring[c].st ≠ .off) ∧
      (s.ring[c].st ≠ .master) ∧
      (s.ring[c].inUp = true) ∧
      (s.ring[c].outUp = true) ∧
      (s.ring[c].folding = false) ∧
      (f.hcrc ≠ crc32 f.header) ∧
      (f.hcrc ≠ ~~~(crc32 f.header))) ∧
  (∃ (c : ChanId) (f : RingWire) (w : RWin) (s : State),
      (s.on) ∧
      (s.ring[c].st = .active) ∧
      (s.ring[c].inUp = true) ∧
      (s.ring[c].outUp = true) ∧
      (s.ring[c].folding = false) ∧
      (s.time.locked = true) ∧
      (s.tick.running = true) ∧
      (hdrGood f = true) ∧
      (f.code = none) ∧
      let h := rhdrOf f.header;
      (h.type = 0) ∧
      (h.dir = false) ∧
      (h.mode = s.tick.mode) ∧
      (h.slot ≠ 0) ∧
      (h.vgo = false) ∧
      (s.expected c h = true) ∧
      ((s.ring[c].dly false).isSome = true) ∧
      (s.ringWins c.val s.tick.mode.val = [w]) ∧
      (w.slot = h.slot) ∧
      (w.write = true) ∧
      (w.start + w.len ≤ f.payload.length) ∧
      (2 ≤ w.len)) ∧
  (∃ (c : ChanId) (f : RingWire) (w : RWin) (s : State),
      (s.on) ∧
      (s.ring[c].st = .active) ∧
      (s.ring[c].inUp = true) ∧
      (s.ring[c].outUp = true) ∧
      (s.ring[c].folding = false) ∧
      (s.time.locked = true) ∧
      (s.tick.running = true) ∧
      (hdrGood f = true) ∧
      (f.code = none) ∧
      let h := rhdrOf f.header;
      (h.type = 0) ∧
      (h.dir = false) ∧
      (h.mode = s.tick.mode) ∧
      (h.slot ≠ 0) ∧
      (h.vgo = false) ∧
      (s.expected c h = true) ∧
      ((s.ring[c].dly false).isSome = true) ∧
      (s.ringWins c.val s.tick.mode.val = [w]) ∧
      (w.slot = h.slot) ∧
      (w.write = false) ∧
      (3 ≤ w.len) ∧
      (w.start + w.len ≤ f.payload.length) ∧
      (w.len - 2 ≤ s.rimgLen c.val w.image) ∧
      ((∀ g ∈ segGoods f, g = true)) ∧
      let tag := ofBytes ((f.payload.drop w.start).take 2);
      (tag % 256 = w.writer) ∧
      (w.writer ≠ 0xFF) ∧
      ((h.tick + 256 - tag / 256 % 128) % 128 ≤ 1) ∧
      (tag < 32768) ∧
      (s.readSt c w.image ≠ .lost)) ∧
  (∃ (m : Master) (c : ChanId) (off : BitVec 14) (_v : Word) (i : Nat) (s : State),
      let k := off.toNat / 2 * 2;
      (s.writes m (0x68000 + 0x4000 * c.val + k)) ∧
      (s.ringImageAt c k = some i) ∧
      (s.ringImageAt c (k + 1) = some i) ∧
      (s.rimgWrite c.val i = true) ∧
      (s.rimgProducer c.val i = m.val)) ∧
  (∃ (m : Master) (c : ChanId) (off : BitVec 14) (_v : Word) (s : State),
      let k := off.toNat / 2 * 2;
      (s.writes m (0x68000 + 0x4000 * c.val + k)) ∧
      (s.ringImageAt c k = none) ∧
      (12 ≤ m.val) ∧
      (m.val < 16)) ∧
  (∃ (_m : Master) (sel : ByteSel) (_c : ChanId) (_off : BitVec 14) (_v : Word) (s : State),
      (s.on) ∧
      (sel ≠ .word)) := by
  refine ⟨⟨1, 3, { State.reset with tick := { State.reset.tick with running := true, tick := 1 }, ring := State.reset.ring.set 1 ({ State.reset.ring[1] with st := .master, outUp := true }), regs := [(394524, 0x7)] }, ?_⟩,
    ⟨1, RingWire.good (hdr 2 0) [], { slot := 2, tick := 0, launch := 77, payload := [], two := true, fwd := none, rev := none }, { State.reset with ring := State.reset.ring.set 1 { State.reset.ring[1] with st := .master, launched := [{ slot := 2, tick := 0, launch := 77, payload := [], two := true, fwd := none, rev := none }] } }, ?_⟩,
    ⟨1, RingWire.good (hdr 2 0) [], { State.reset with ring := State.reset.ring.set 1 { State.reset.ring[1] with st := .master } }, ?_⟩,
    ⟨1, { RingWire.good (hdr 2 0) [] with hcrc := 3 }, { State.reset with ring := State.reset.ring.set 1 { State.reset.ring[1] with st := .timed, inUp := true, outUp := true } }, ?_⟩,
    ⟨1, RingWire.good (hdr 2 0) (List.replicate 84 0), { start := 64, write := true, len := 20, en := true, slot := 2, image := 2, writer := 9 }, { State.reset with ring := State.reset.ring.set 1 { State.reset.ring[1] with st := .active, inUp := true, outUp := true, dlyF := 0 }, time := { State.reset.time with locked := true }, tick := { State.reset.tick with running := true }, regs := [(394516, 7), (397312, 0x8040), (397314, 0x8014), (397316, 0xA), (397318, 9)] }, ?_⟩,
    ⟨1, RingWire.good (hdr 2 0) (List.replicate 64 0 ++ [9] ++ List.replicate 19 0), { start := 64, write := false, len := 20, en := true, slot := 2, image := 1, writer := 9 }, { State.reset with ring := State.reset.ring.set 1 { State.reset.ring[1] with st := .active, inUp := true, outUp := true, dlyF := 0 }, time := { State.reset.time with locked := true }, tick := { State.reset.tick with running := true }, regs := [(394516, 7), (397312, 0x0040), (397314, 0x8014), (397316, 6), (397318, 9), (400394, 0x28)] }, ?_⟩,
    ⟨15, 1, 0, 0, 0, { State.reset with regs := [(400386, 0x190), (400388, 0x1f)] }, ?_⟩,
    ⟨13, 0, 0, 0, State.reset, ?_⟩,
    ⟨15, ByteSel.low, 0, 0, 0, State.reset, ?_⟩⟩ <;> (try dsimp only) <;> and_intros <;> first | exact segGoods_good _ _ | decide +kernel | rfl

theorem witness_RingSurvey :
  (∃ (c : ChanId) (k : Nat) (s : State),
      (s.on) ∧
      (s.ring[c].st = .master) ∧
      (s.tick.running = true) ∧
      (s.ring[c].mSurvey = none) ∧
      (s.ring[c].surveyDue = some k) ∧
      (k ≤ s.tick.tick) ∧
      (s.ring[c].inUp = true) ∧
      (s.ring[c].outUp = true)) ∧
  (∃ (c : ChanId) (f : RingWire) (s : State),
      (s.on) ∧
      (s.ring[c].st ≠ .off) ∧
      (s.ring[c].st ≠ .master) ∧
      (s.ring[c].st ≠ .clash) ∧
      (s.ring[c].inUp = true) ∧
      (s.ring[c].outUp = true) ∧
      (s.ring[c].folding = false) ∧
      (hdrGood f = true) ∧
      let h := rhdrOf f.header;
      let at' := 16 * s.nodeId;
      (h.type = 2) ∧
      (s.nodeId < 254) ∧
      (f.payload.length = 4096) ∧
      ((∀ g ∈ segGoods f, g = true)) ∧
      (ofBytes ((f.payload.drop at').take 6) = 0) ∧
      ((∀ x ∈ s.ring[c].survey, x.tick ≠ h.tick))) ∧
  (∃ (c : ChanId) (f : RingWire) (s : State),
      (s.on) ∧
      (s.ring[c].st = .listen) ∧
      (s.ring[c].inUp = true) ∧
      (s.ring[c].outUp = true) ∧
      (s.ring[c].folding = false) ∧
      (hdrGood f = true) ∧
      let h := rhdrOf f.header;
      let slot := (f.payload.drop (16 * s.nodeId)).take 16;
      (h.type = 3) ∧
      (s.nodeId < 254) ∧
      (f.payload.length = 4096) ∧
      ((∀ g ∈ segGoods f, g = true)) ∧
      (ofBytes ((slot.drop 8).take 6) = s.serial) ∧
      (ofBytes (slot.take 4) ≠ 0xFFFFFFFF) ∧
      (ofBytes ((slot.drop 4).take 4) ≠ 0xFFFFFFFF)) ∧
  (∃ (c : ChanId) (f : RingWire) (s : State),
      (s.on) ∧
      (s.ring[c].st = .listen) ∧
      (s.ring[c].inUp = true) ∧
      (s.ring[c].outUp = true) ∧
      (s.ring[c].folding = false) ∧
      (hdrGood f = true) ∧
      let slot := (f.payload.drop (16 * s.nodeId)).take 16;
      ((rhdrOf f.header).type = 3) ∧
      (s.nodeId < 254) ∧
      (f.payload.length = 4096) ∧
      ((∀ g ∈ segGoods f, g = true)) ∧
      (ofBytes ((slot.drop 8).take 6) ≠ s.serial)) ∧
  (∃ (c : ChanId) (e : Int) (s : State),
      (s.on) ∧
      (bit (s.reg (ringOff c.val)) 1 = true) ∧
      (s.ring[c].st = .surveyed) ∧
      (s.ring[c].joinE = some e) ∧
      (s.tick.running = true)) ∧
  (∃ (c : ChanId) (s : State),
      (s.on) ∧
      (bit (s.reg (ringOff c.val)) 1 = true) ∧
      (s.ring[c].st = .timed) ∧
      (s.time.locked = true) ∧
      (s.tick.running = false) ∧
      (s.tick.starting = none) ∧
      (s.modeOk s.ring[c].lastHdrMode.val = true)) := by
  refine ⟨⟨1, 0, { State.reset with tick := { State.reset.tick with running := true }, ring := State.reset.ring.set 1 ({ State.reset.ring[1] with st := .master, inUp := true, outUp := true, surveyDue := (some 0) }) }, ?_⟩,
    ⟨1, RingWire.good (hdr 0 2) (List.replicate 4096 0), { State.reset with ring := State.reset.ring.set 1 { State.reset.ring[1] with st := .timed, inUp := true, outUp := true } }, ?_⟩,
    ⟨1, RingWire.good (hdr 0 3) (List.replicate 4096 0), { State.reset with ring := State.reset.ring.set 1 { State.reset.ring[1] with st := .listen, inUp := true, outUp := true } }, ?_⟩,
    ⟨1, RingWire.good (hdr 0 3) (List.replicate 4096 1), { State.reset with ring := State.reset.ring.set 1 { State.reset.ring[1] with st := .listen, inUp := true, outUp := true } }, ?_⟩,
    ⟨1, 4, { State.reset with tick := { State.reset.tick with running := true }, ring := State.reset.ring.set 1 ({ State.reset.ring[1] with st := .surveyed, joinE := (some 4) }), regs := [(393728, 0x3)] }, ?_⟩,
    ⟨1, { State.reset with time := { State.reset.time with locked := true }, ring := State.reset.ring.set 1 ({ State.reset.ring[1] with st := .timed }), regs := [(131328, 0x10a), (131330, 0x20), (393728, 0x3)] }, ?_⟩⟩ <;> (try dsimp only) <;> and_intros <;> first | exact segGoods_good _ _ | decide +kernel | rfl

theorem witness_CanStates :
  (∃ (m : Master) (c : CanId) (_init : Bool) (s : State),
      (s.writes m (canOff c.val)) ∧
      (s.can[c].st = .off)) ∧
  (∃ (m : Master) (c : CanId) (s : State),
      (s.writes m (canOff c.val))) ∧
  (∃ (m : Master) (c : CanId) (s : State),
      (s.writes m (canOff c.val)) ∧
      (bit (s.reg (canOff c.val)) 0 = true)) ∧
  (∃ (m : Master) (c : CanId) (s : State),
      (s.writes m (canOff c.val)) ∧
      (bit (s.reg (canOff c.val)) 0 = true) ∧
      (s.can[c].st = .init) ∧
      ((∀ b, b < 32 → ¬(s.txFdf c.val b = false ∧ s.txBrs c.val b = true))) ∧
      (bit (s.reg (canOff c.val)) 2 = true) ∧
      let nb := (fld (s.reg (canOff c.val + 0x10)) 0 8 + 1) * (1 + (fld (s.reg (canOff c.val + 0x12)) 0 8 + 1) + (fld (s.reg (canOff c.val + 0x12)) 8 7 + 1));
      let db := (fld (s.reg (canOff c.val + 0x14)) 0 5 + 1) * (1 + (fld (s.reg (canOff c.val + 0x14)) 5 5 + 1) + (fld (s.reg (canOff c.val + 0x16)) 0 4 + 1));
      (2 ≤ fld (s.reg (canOff c.val + 0x12)) 0 8 + 1) ∧
      (2 ≤ fld (s.reg (canOff c.val + 0x12)) 8 7 + 1) ∧
      (fld (s.reg (canOff c.val + 0x10)) 8 7 ≤ fld (s.reg (canOff c.val + 0x12)) 8 7) ∧
      (fld (s.reg (canOff c.val + 0x16)) 4 4 ≤ fld (s.reg (canOff c.val + 0x16)) 0 4) ∧
      (80 ≤ nb) ∧
      (10 ≤ db)) ∧
  (∃ (m : Master) (c : CanId) (s : State),
      (s.writes m (canOff c.val)) ∧
      (bit (s.reg (canOff c.val)) 0 = true) ∧
      (s.can[c].st = .init) ∧
      (s.canSettingOk c.val = false)) ∧
  (∃ (c : CanId) (_dtec : Nat) (_drec : Nat) (s : State),
      (s.on) ∧
      (s.can[c].st = .errorActive ∨ s.can[c].st = .errorPassive)) ∧
  (∃ (c : CanId) (s : State),
      (s.on) ∧
      (s.can[c].st = .busOff) ∧
      (bit (s.reg (canOff c.val)) 5 = true)) ∧
  (∃ (c : CanId) (s : State),
      (s.on) ∧
      (s.can[c].st = .integrating)) := by
  refine ⟨⟨15, 0, false, State.reset, ?_⟩,
    ⟨15, 0, State.reset, ?_⟩,
    ⟨15, 1, { State.reset with regs := [(460800, 0x3)] }, ?_⟩,
    ⟨15, 1, { State.reset with can := State.reset.can.set 1 ({ State.reset.can[1] with st := .init }), regs := [(460800, 0x7), (460816, 0x201), (460818, 0x530), (460820, 0xa1)] }, ?_⟩,
    ⟨15, 1, { State.reset with can := State.reset.can.set 1 ({ State.reset.can[1] with st := .init }), regs := [(460800, 0x3)] }, ?_⟩,
    ⟨5, 0, 0, { State.reset with can := State.reset.can.set 5 ({ State.reset.can[5] with st := .errorActive }) }, ?_⟩,
    ⟨5, { State.reset with can := State.reset.can.set 5 ({ State.reset.can[5] with st := .busOff }), regs := [(468992, 0x21)] }, ?_⟩,
    ⟨5, { State.reset with can := State.reset.can.set 5 ({ State.reset.can[5] with st := .integrating }) }, ?_⟩⟩ <;> (try dsimp only) <;> and_intros <;> decide +kernel

theorem witness_CanTransmission :
  (∃ (m : Master) (c : CanId) (_v : BitVec 32) (s : State),
      (s.writes m (canOff c.val + 0x22))) ∧
  (∃ (m : Master) (c : CanId) (_v : BitVec 32) (s : State),
      (s.writes m (canOff c.val + 0x26))) ∧
  (∃ (c : CanId) (b : Fin 32) (s : State),
      (s.on) ∧
      (s.canOnBus c = true) ∧
      (s.can[c].tx = none) ∧
      (s.canPending c b = true) ∧
      (bit (s.reg (canOff c.val)) 3 = false) ∧
      ((∀ x : Fin 32, x ≠ b → s.canPending c x = true → s.txKey c.val b.val < s.txKey c.val x.val ∨ (s.txKey c.val b.val = s.txKey c.val x.val ∧ b < x)))) ∧
  (∃ (c : CanId) (b : Fin 32) (x : CanTx) (s : State),
      (s.on) ∧
      (s.can[c].tx = some x) ∧
      (x.buf = some b)) ∧
  (∃ (c : CanId) (b : Fin 32) (x : CanTx) (s : State),
      (s.on) ∧
      (s.can[c].tx = some x) ∧
      (x.buf = some b)) ∧
  (∃ (c : CanId) (b : Fin 32) (x : CanTx) (s : State),
      (s.on) ∧
      (s.can[c].tx = some x) ∧
      (x.buf = some b) ∧
      (x.exclusive = false)) ∧
  (∃ (c : CanId) (b : Fin 32) (x : CanTx) (s : State),
      (s.on) ∧
      (s.can[c].tx = some x) ∧
      (x.buf = some b)) := by
  refine ⟨⟨15, 0, 0, State.reset, ?_⟩,
    ⟨15, 0, 0, State.reset, ?_⟩,
    ⟨5, 7, { State.reset with can := State.reset.can.set 5 ({ State.reset.can[5] with st := .errorActive, pendingMask := 0x00000080 }) }, ?_⟩,
    ⟨5, 15, { buf := some 15, data := [], exclusive := true, sof := 0, permitEnd := 13 }, { State.reset with can := State.reset.can.set 5 ({ State.reset.can[5] with tx := (some { buf := some 15, data := [], exclusive := true, sof := 0, permitEnd := 13 }) }) }, ?_⟩,
    ⟨5, 15, { buf := some 15, data := [], exclusive := true, sof := 0, permitEnd := 13 }, { State.reset with can := State.reset.can.set 5 ({ State.reset.can[5] with tx := (some { buf := some 15, data := [], exclusive := true, sof := 0, permitEnd := 13 }) }) }, ?_⟩,
    ⟨5, 15, { buf := some 15, data := [], exclusive := false, sof := 0, permitEnd := 13 }, { State.reset with can := State.reset.can.set 5 ({ State.reset.can[5] with tx := (some { buf := some 15, data := [], exclusive := false, sof := 0, permitEnd := 13 }) }) }, ?_⟩,
    ⟨5, 15, { buf := some 15, data := [], exclusive := true, sof := 0, permitEnd := 13 }, { State.reset with can := State.reset.can.set 5 ({ State.reset.can[5] with tx := (some { buf := some 15, data := [], exclusive := true, sof := 0, permitEnd := 13 }) }) }, ?_⟩⟩ <;> (try dsimp only) <;> and_intros <;> decide +kernel

theorem witness_CanReception :
  (∃ (c : CanId) (x : CanFrame) (f : Nat) (s : State),
      (s.on) ∧
      (s.canOnBus c = true) ∧
      (x.own = false) ∧
      (s.can[c].tec ≤ 127) ∧
      (s.can[c].rec' ≤ 127) ∧
      (s.can[c].st = .errorActive) ∧
      (s.isReference c x = false) ∧
      (f < 128) ∧
      (s.filterMatches c.val f x = true) ∧
      ((∀ k, k < f → s.filterMatches c.val k x = false)) ∧
      let dest := fld (s.reg (canOff c.val + 0x500 + 2 * f)) 0 3;
      (dest = 0 ∨ dest = 1)) ∧
  (∃ (c : CanId) (x : CanFrame) (f : Nat) (s : State),
      (s.on) ∧
      (s.canOnBus c = true) ∧
      (x.own = false) ∧
      (s.can[c].tec ≤ 127) ∧
      (s.can[c].rec' ≤ 127) ∧
      (s.can[c].st = .errorActive) ∧
      (s.isReference c x = false) ∧
      (f < 128) ∧
      (s.filterMatches c.val f x = true) ∧
      ((∀ k, k < f → s.filterMatches c.val k x = false)) ∧
      (fld (s.reg (canOff c.val + 0x500 + 2 * f)) 0 3 = 2)) ∧
  (∃ (c : CanId) (x : CanFrame) (f : Nat) (s : State),
      (s.on) ∧
      (s.canOnBus c = true) ∧
      (x.own = false) ∧
      (s.can[c].tec ≤ 127) ∧
      (s.can[c].rec' ≤ 127) ∧
      (s.can[c].st = .errorActive) ∧
      (s.isReference c x = false) ∧
      (f < 128) ∧
      (s.filterMatches c.val f x = true) ∧
      ((∀ k, k < f → s.filterMatches c.val k x = false)) ∧
      (fld (s.reg (canOff c.val + 0x500 + 2 * f)) 0 3 = 3) ∧
      (x.rtr = false) ∧
      (x.data.length = canLen x)) ∧
  (∃ (m : Master) (c : CanId) (q : Fin 2) (s : State),
      (s.writes m (canOff c.val + 0x42 + 4 * q.val))) ∧
  (∃ (m : Master) (c : CanId) (_v : Word) (s : State),
      (s.writes m (canOff c.val + 0x48))) ∧
  (∃ (m : Master) (c : CanId) (off : BitVec 13) (_v : Word) (s : State),
      let o := off.toNat / 2 * 2;
      (s.writes m (0x74000 + 0x2000 * c.val + o)) ∧
      (0x800 ≤ o) ∧
      (o < 0x1000)) ∧
  (∃ (_m : Master) (sel : ByteSel) (_c : CanId) (_off : BitVec 13) (_v : Word) (s : State),
      (s.on) ∧
      (sel ≠ .word)) := by
  refine ⟨⟨5, { id := 0, ide := true, rtr := false, fdf := false, brs := true, esi := false, dlc := 0, data := [], own := false, sofCycle := 0, valCycle := 401902 }, 3, { State.reset with can := State.reset.can.set 5 ({ State.reset.can[5] with st := .errorActive }), regs := [(469278, 0xa000)] }, ?_⟩,
    ⟨5, { id := 0, ide := true, rtr := false, fdf := false, brs := true, esi := false, dlc := 0, data := [], own := false, sofCycle := 0, valCycle := 401902 }, 3, { State.reset with can := State.reset.can.set 5 ({ State.reset.can[5] with st := .errorActive }), regs := [(469278, 0xa000), (470278, 0x3a)] }, ?_⟩,
    ⟨5, { id := 0, ide := true, rtr := false, fdf := false, brs := true, esi := false, dlc := 0, data := [], own := false, sofCycle := 0, valCycle := 401902 }, 3, { State.reset with can := State.reset.can.set 5 ({ State.reset.can[5] with st := .errorActive }), regs := [(469278, 0xa000), (470278, 0x3b)] }, ?_⟩,
    ⟨15, 0, 0, State.reset, ?_⟩,
    ⟨15, 0, 0, State.reset, ?_⟩,
    ⟨15, 0, 0x800, 0, State.reset, ?_⟩,
    ⟨15, ByteSel.high, 0, 0, 0, State.reset, ?_⟩⟩ <;> (try dsimp only) <;> and_intros <;> decide +kernel

theorem witness_CanMatrix :
  (∃ (c : CanId) (s : State),
      (s.on) ∧
      (bit (s.reg (canOff c.val)) 3 = true) ∧
      (s.tick.running = true) ∧
      (bit (s.reg (canOff c.val)) 4 = true) ∧
      (s.canOnBus c = true) ∧
      (s.can[c].ttSync = false) ∧
      (s.can[c].tx = none) ∧
      let start := s.tick.tBeat + s.canRefOfs c.val s.tick.mode.val;
      (s.time.beat ≤ start)) ∧
  (∃ (c : CanId) (s : State),
      (s.on) ∧
      (bit (s.reg (canOff c.val)) 3 = true) ∧
      (s.tick.running = true) ∧
      (s.can[c].ttSync = false)) ∧
  (∃ (c : CanId) (w : Fin 32) (s : State),
      (s.on) ∧
      (bit (s.reg (canOff c.val)) 3 = true) ∧
      (s.tick.running = true) ∧
      (s.can[c].ttSync = true) ∧
      let x := s.canWin c s.tick.mode.val w.val;
      (x.inForce s.can[c].cycle.toNat = true)) ∧
  (∃ (c : CanId) (w : Fin 32) (o : OpenWin) (s : State),
      (s.on) ∧
      (s.can[c].openWin = some o) ∧
      (o.win = w.val)) ∧
  (∃ (m : Master) (c : CanId) (s : State),
      (s.writes m (canOff c.val + 0xE2)) ∧
      let o := canOff c.val;
      let w := s.canWin c (fld (s.reg (o + 0xE0)) 0 3) (fld (s.reg (o + 0xE0)) 3 5);
      (w.start < 2 ^ 32) ∧
      (w.len < 2 ^ 32) ∧
      (w.base < 64) ∧
      (w.rep < 8)) ∧
  (∃ (m : Master) (c : CanId) (s : State),
      (s.writes m (canOff c.val + 0xE2)) ∧
      let o := canOff c.val;
      let md := fld (s.reg (o + 0xE0)) 0 3;
      (s.tick.running = false ∨ (s.tick.mode.val ≠ md ∧ (∀ r ∈ s.tick.req, r.mode.val ≠ md)))) ∧
  (∃ (m : Master) (c : CanId) (s : State),
      (s.writes m (canOff c.val + 0xE2)) ∧
      (s.inRun = true) ∧
      (s.tick.running = true) ∧
      (s.tick.mode.val = fld (s.reg (canOff c.val + 0xE0)) 0 3)) := by
  refine ⟨⟨5, { State.reset with tick := { State.reset.tick with running := true }, can := State.reset.can.set 5 ({ State.reset.can[5] with st := .errorActive }), regs := [(468992, 0x19)] }, ?_⟩,
    ⟨5, { State.reset with tick := { State.reset.tick with running := true }, regs := [(468992, 0x19)] }, ?_⟩,
    ⟨5, 3, { State.reset with tick := { State.reset.tick with running := true }, can := State.reset.can.set 5 ({ State.reset.can[5] with windows := [(3, { start := 100, len := 50, kind := 1, buf := 5, base := 0, rep := 0 })], ttSync := true }), regs := [(468992, 0x19)] }, ?_⟩,
    ⟨5, 15, { win := 15, exclusive := true, buf := 0, close := 13 }, { State.reset with can := State.reset.can.set 5 ({ State.reset.can[5] with openWin := (some { win := 15, exclusive := true, buf := 0, close := 13 }) }) }, ?_⟩,
    ⟨15, 0, State.reset, ?_⟩,
    ⟨15, 0, State.reset, ?_⟩,
    ⟨15, 0, { State.reset with tick := { State.reset.tick with running := true }, kdl := { State.reset.kdl with st := .run } }, ?_⟩⟩ <;> (try dsimp only) <;> and_intros <;> decide +kernel

theorem witness_JigInstructions :
  (∃ (j : JigId) (_gp : BitVec 64) (w : Word) (s : State),
      (s.jigRuns j w) ∧
      (fld w 12 4 = 0) ∧
      let test := fld w 9 3;
      (test = 1 ∨ test = 2) ∧
      (s.lineEn j.val (fld w 6 3) = true)) ∧
  (∃ (j : JigId) (_gp : BitVec 64) (w : Word) (s : State),
      (s.jigRuns j w) ∧
      (fld w 12 4 = 0) ∧
      let test := fld w 9 3;
      (test ≠ 1) ∧
      (test ≠ 2)) ∧
  (∃ (j : JigId) (w : Word) (s : State),
      (s.jigRuns j w) ∧
      (fld w 12 4 = 1) ∧
      (fld w 6 6 = 0)) ∧
  (∃ (j : JigId) (_gp : BitVec 64) (w : Word) (s : State),
      (s.jigRuns j w) ∧
      (fld w 12 4 = 2) ∧
      (fld w 9 1 = 0) ∧
      (fld w 0 6 = 0) ∧
      (s.lineEn j.val (fld w 6 3) = true)) ∧
  (∃ (j : JigId) (_gp : BitVec 64) (l : Fin 8) (level : Bool) (edge : Bool) (other : Bool) (s : State),
      (s.on) ∧
      (s.jig[j].stall = some (.hold l level edge other))) ∧
  (∃ (j : JigId) (w : Word) (s : State),
      (s.jigRuns j w) ∧
      (fld w 12 4 = 3) ∧
      (fld w 11 1 = 0) ∧
      (fld w 2 6 = 0) ∧
      (s.lineEn j.val (fld w 8 3) = true) ∧
      let l := Fin.ofNat 8 (fld w 8 3);
      (fld w 0 2 = 2 ∨ s.claims j.val (s.linePin j.val l.val) = true)) ∧
  (∃ (j : JigId) (w : Word) (s : State),
      (s.jigRuns j w) ∧
      (fld w 12 4 = 3) ∧
      (fld w 11 1 = 0) ∧
      (fld w 2 6 = 0) ∧
      (s.lineEn j.val (fld w 8 3) = true) ∧
      (fld w 0 2 ≠ 2) ∧
      let pin := s.linePin j.val (fld w 8 3);
      (s.claims j.val pin = false)) ∧
  (∃ (j : JigId) (w : Word) (s : State),
      (s.jigRuns j w) ∧
      (fld w 12 4 = 0xB)) ∧
  (∃ (j : JigId) (gp : BitVec 64) (w : Word) (v : Word) (s : State),
      (s.jigRuns j w) ∧
      (fld w 12 4 = 0xC) ∧
      (fld w 0 4 = 0) ∧
      let dest := fld w 9 3;
      let src := fld w 6 3;
      let x := s.jig[j];
      (dest ≤ 2) ∧
      (src ≤ 5) ∧
      (fld w 4 2 ≤ 2) ∧
      ((src = 0 → v = x.ct)) ∧
      ((src = 1 → v = x.sr)) ∧
      ((src = 2 → v = BitVec.ofNat 16 s.time.beat)) ∧
      ((src = 3 → v = BitVec.ofNat 16 x.shiftDone)) ∧
      ((src = 5 → v = 0)) ∧
      ((src = 4 → v.toNat < 256 ∧ ∀ l, l < 8 → bit v l = (s.lineEn j.val l && (gp.getLsbD (s.linePin j.val l) != s.lineInv j.val l))))) ∧
  (∃ (j : JigId) (w : Word) (s : State),
      (s.jigRuns j w) ∧
      (fld w 12 4 = 0xD) ∧
      (fld w 0 12 = 0)) ∧
  (∃ (j : JigId) (w : Word) (s : State),
      (s.jigRuns j w) ∧
      (w = 0xF000)) ∧
  (∃ (j : JigId) (w : Word) (s : State),
      (s.jigRuns j w) ∧
      (w = 0xF001)) ∧
  (∃ (j : JigId) (w : Word) (s : State),
      (s.jigRuns j w) ∧
      (fld w 12 4 = 0xE ∨ (fld w 12 4 = 0xC ∧ (2 < fld w 9 3 ∨ 5 < fld w 6 3 ∨ 2 < fld w 4 2)) ∨ ((fld w 12 4 = 4 ∨ fld w 12 4 = 5) ∧ bit w 11 = true ∧ bit w 7 = false) ∨ (fld w 12 4 = 2 ∧ s.lineEn j.val (fld w 6 3) = false) ∨ (3 ≤ fld w 12 4 ∧ fld w 12 4 ≤ 5 ∧ s.lineEn j.val (fld w 8 3) = false) ∨ (fld w 12 4 = 1 ∧ fld w 6 6 ≠ 0))) := by
  refine ⟨⟨1, 0, 0x3a8, { State.reset with jig := State.reset.jig.set 1 ({ State.reset.jig[1] with en := true }), regs := [(524410, 0xa49e), (528512, 0x3a8)] }, ?_⟩,
    ⟨5, 0, 0, { State.reset with jig := State.reset.jig.set 5 ({ State.reset.jig[5] with en := true }) }, ?_⟩,
    ⟨1, 0x103f, { State.reset with jig := State.reset.jig.set 1 ({ State.reset.jig[1] with en := true }), regs := [(528512, 0x103f)] }, ?_⟩,
    ⟨1, 0, 0x2580, { State.reset with jig := State.reset.jig.set 1 ({ State.reset.jig[1] with en := true }), regs := [(524410, 0xa49e), (528512, 0x2580)] }, ?_⟩,
    ⟨1, 0, 4, true, true, true, { State.reset with jig := State.reset.jig.set 1 ({ State.reset.jig[1] with stall := (some (JStall.hold 4 true true true)) }) }, ?_⟩,
    ⟨1, 0x3703, { State.reset with jig := State.reset.jig.set 1 ({ State.reset.jig[1] with en := true }), regs := [(524398, 0xffff), (524410, 0x9ef3), (528512, 0x3703)] }, ?_⟩,
    ⟨1, 0x3703, { State.reset with jig := State.reset.jig.set 1 ({ State.reset.jig[1] with en := true }), regs := [(524410, 0x9ef3), (528512, 0x3703)] }, ?_⟩,
    ⟨1, 0xbfff, { State.reset with jig := State.reset.jig.set 1 ({ State.reset.jig[1] with en := true }), regs := [(528512, 0xbfff)] }, ?_⟩,
    ⟨5, 0, 0xc110, 0, { State.reset with jig := State.reset.jig.set 5 ({ State.reset.jig[5] with en := true }), regs := [(529024, 0xc110)] }, ?_⟩,
    ⟨1, 0xd000, { State.reset with jig := State.reset.jig.set 1 ({ State.reset.jig[1] with en := true }), regs := [(528512, 0xd000)] }, ?_⟩,
    ⟨1, 0xf000, { State.reset with jig := State.reset.jig.set 1 ({ State.reset.jig[1] with en := true }), regs := [(528512, 0xf000)] }, ?_⟩,
    ⟨1, 0xf001, { State.reset with jig := State.reset.jig.set 1 ({ State.reset.jig[1] with en := true }), regs := [(528512, 0xf001)] }, ?_⟩,
    ⟨1, 0x4f7f, { State.reset with jig := State.reset.jig.set 1 ({ State.reset.jig[1] with en := true }), regs := [(528512, 0x4f7f)] }, ?_⟩⟩ <;> (try dsimp only) <;> and_intros <;> decide +kernel

theorem witness_JigShiftsAndWaits :
  (∃ (j : JigId) (w : Word) (s : State),
      (s.jigRuns j w) ∧
      (fld w 12 4 = 4) ∧
      (fld w 4 3 = 0) ∧
      (bit w 7 = false) ∧
      (bit w 11 = false) ∧
      (s.lineEn j.val (fld w 8 3) = true) ∧
      (s.claims j.val (s.linePin j.val (fld w 8 3)) = true)) ∧
  (∃ (j : JigId) (_samples : BitVec 16) (w : Word) (s : State),
      (s.jigRuns j w) ∧
      (fld w 12 4 = 5) ∧
      (fld w 4 3 = 0) ∧
      (bit w 7 = false) ∧
      (bit w 11 = false) ∧
      (s.lineEn j.val (fld w 8 3) = true)) ∧
  (∃ (j : JigId) (w : Word) (s : State),
      (s.jigRuns j w) ∧
      (fld w 12 4 = 4) ∧
      (fld w 4 3 = 0) ∧
      (bit w 7 = true) ∧
      (s.lineEn j.val (fld w 8 3) = true)) ∧
  (∃ (j : JigId) (_gp : BitVec 64) (l : Fin 8) (left : Nat) (s : State),
      (s.on) ∧
      (s.jig[j].stall = some (.shift true false l left none)) ∧
      (s.jig[j].clamped = false) ∧
      (s.claims j.val (s.linePin j.val l.val) = true)) ∧
  (∃ (j : JigId) (_samples : BitVec 16) (w : Word) (s : State),
      (s.jigRuns j w) ∧
      (fld w 12 4 = 5) ∧
      (fld w 4 3 = 0) ∧
      (bit w 7 = true) ∧
      (s.lineEn j.val (fld w 8 3) = true)) ∧
  (∃ (j : JigId) (_gp : BitVec 64) (l : Fin 8) (left : Nat) (s : State),
      (s.on) ∧
      (s.jig[j].stall = some (.shift false false l left none)) ∧
      (s.jig[j].clamped = false)) ∧
  (∃ (j : JigId) (_gp : BitVec 64) (l : Fin 8) (left : Nat) (s : State),
      (s.on) ∧
      (s.jig[j].stall = some (.shift true true l left none)) ∧
      (s.jig[j].clamped = false) ∧
      (s.claims j.val (s.linePin j.val l.val) = true)) ∧
  (∃ (j : JigId) (_gp : BitVec 64) (l : Fin 8) (left : Nat) (first : Bool) (s : State),
      (s.on) ∧
      (s.jig[j].stall = some (.shift false true l left (some first))) ∧
      (s.jig[j].clamped = false)) ∧
  (∃ (j : JigId) (_gp : BitVec 64) (s : State),
      (s.on) ∧
      (s.jig[j].stall = some .pace)) ∧
  (∃ (j : JigId) (_gp : BitVec 64) (s : State),
      (s.on) ∧
      (s.jig[j].stall = none)) ∧
  (∃ (j : JigId) (w : Word) (s : State),
      (s.jigRuns j w) ∧
      (fld w 12 4 = 0xA) ∧
      (fld w 0 11 = 0)) ∧
  (∃ (j : JigId) (w : Word) (s : State),
      (s.jigRuns j w) ∧
      (fld w 12 4 = 8)) ∧
  (∃ (j : JigId) (e : Nat) (s : State),
      (s.on) ∧
      (s.jig[j].stall = some (.delay e))) ∧
  (∃ (j : JigId) (w : Word) (s : State),
      (s.jigRuns j w) ∧
      (fld w 12 4 = 9) ∧
      (fld w 0 10 = 0) ∧
      (fld w 10 2 = 0 ∨ fld w 10 2 = 3)) ∧
  (∃ (j : JigId) (w : Word) (s : State),
      (s.jigRuns j w) ∧
      (fld w 12 4 = 9) ∧
      (fld w 0 10 = 0) ∧
      (fld w 10 2 = 1 ∨ fld w 10 2 = 2)) ∧
  (∃ (j : JigId) (e : Nat) (s : State),
      (s.on) ∧
      (s.jig[j].stall = some (.at e))) := by
  refine ⟨⟨1, 0x470f, { State.reset with jig := State.reset.jig.set 1 ({ State.reset.jig[1] with en := true }), regs := [(524398, 0xffff), (524410, 0x9ef3), (528512, 0x470f)] }, ?_⟩,
    ⟨1, 0, 0x5708, { State.reset with jig := State.reset.jig.set 1 ({ State.reset.jig[1] with en := true }), regs := [(524410, 0xa49e), (528512, 0x5708)] }, ?_⟩,
    ⟨1, 0x4f8f, { State.reset with jig := State.reset.jig.set 1 ({ State.reset.jig[1] with en := true }), regs := [(524410, 0x9ef3), (528512, 0x4f8f)] }, ?_⟩,
    ⟨9, 0, 4, 9, { State.reset with jig := State.reset.jig.set 9 ({ State.reset.jig[9] with stall := (some (JStall.shift true false 4 9 none)) }), regs := [(524908, 0xffff)] }, ?_⟩,
    ⟨1, 0, 0x5788, { State.reset with jig := State.reset.jig.set 1 ({ State.reset.jig[1] with en := true }), regs := [(524410, 0xa49e), (528512, 0x5788)] }, ?_⟩,
    ⟨1, 0, 4, 0, { State.reset with jig := State.reset.jig.set 1 ({ State.reset.jig[1] with stall := (some (JStall.shift false false 4 0 none)) }) }, ?_⟩,
    ⟨9, 0, 4, 9, { State.reset with jig := State.reset.jig.set 9 ({ State.reset.jig[9] with stall := (some (JStall.shift true true 4 9 none)) }), regs := [(524908, 0xffff)] }, ?_⟩,
    ⟨1, 0, 4, 0, true, { State.reset with jig := State.reset.jig.set 1 ({ State.reset.jig[1] with stall := (some (JStall.shift false true 4 0 (some true))) }) }, ?_⟩,
    ⟨1, 0, { State.reset with jig := State.reset.jig.set 1 ({ State.reset.jig[1] with stall := (some (JStall.pace)) }) }, ?_⟩,
    ⟨0, 0, State.reset, ?_⟩,
    ⟨1, 0xa800, { State.reset with jig := State.reset.jig.set 1 ({ State.reset.jig[1] with en := true }), regs := [(528512, 0xa800)] }, ?_⟩,
    ⟨1, 0x8803, { State.reset with jig := State.reset.jig.set 1 ({ State.reset.jig[1] with en := true }), regs := [(528512, 0x8803)] }, ?_⟩,
    ⟨1, 4, { State.reset with jig := State.reset.jig.set 1 ({ State.reset.jig[1] with stall := (some (JStall.delay 4)) }) }, ?_⟩,
    ⟨1, 0x9c00, { State.reset with jig := State.reset.jig.set 1 ({ State.reset.jig[1] with en := true }), regs := [(528512, 0x9c00)] }, ?_⟩,
    ⟨1, 0x9400, { State.reset with jig := State.reset.jig.set 1 ({ State.reset.jig[1] with en := true }), regs := [(528512, 0x9400)] }, ?_⟩,
    ⟨1, 4, { State.reset with jig := State.reset.jig.set 1 ({ State.reset.jig[1] with stall := (some (JStall.at 4)) }) }, ?_⟩⟩ <;> (try dsimp only) <;> and_intros <;> decide +kernel

theorem witness_JigWordsAndControl :
  (∃ (j : JigId) (w : Word) (s : State),
      (s.jigRuns j w) ∧
      (w = 0x6000)) ∧
  (∃ (j : JigId) (w : Word) (s : State),
      (s.jigRuns j w) ∧
      (fld w 12 4 = 7) ∧
      (fld w 2 10 = 0)) ∧
  (∃ (j : JigId) (s : State),
      (s.on) ∧
      (s.jig[j].stall = some .load) ∧
      (s.jig[j].txFull = true)) ∧
  (∃ (j : JigId) (clr : Bool) (s : State),
      (s.on) ∧
      (s.jig[j].stall = some (.store clr)) ∧
      (s.jig[j].rxFull = false)) ∧
  (∃ (m : Master) (j : JigId) (_v : Word) (s : State),
      (s.writes m (jigOff j.val + 0x18)) ∧
      (s.writes m (jigOff j.val + 0x1A)) ∧
      (s.jig[j].txFull = false)) ∧
  (∃ (m : Master) (j : JigId) (_v : Word) (s : State),
      (s.writes m (jigOff j.val + 0x18)) ∧
      (s.writes m (jigOff j.val + 0x1A)) ∧
      (s.jig[j].txFull = true)) ∧
  (∃ (m : Master) (j : JigId) (s : State),
      (s.reads m (jigOff j.val + 0x1C)) ∧
      (s.reads m (jigOff j.val + 0x1E)) ∧
      (s.jig[j].rxFull = true)) ∧
  (∃ (m : Master) (j : JigId) (s : State),
      (s.reads m (jigOff j.val + 0x1C)) ∧
      (s.reads m (jigOff j.val + 0x1E)) ∧
      (s.jig[j].rxFull = false)) ∧
  (∃ (h : HearthId) (j : JigId) (v : Word) (s : State),
      (s.on) ∧
      (s.hearth[h].stall = some (.jigTx j v false)) ∧
      (s.jig[j].txFull = false)) ∧
  (∃ (h : HearthId) (j : JigId) (s : State),
      (s.on) ∧
      (s.hearth[h].stall = some (.jigRx j false)) ∧
      (s.jig[j].rxFull = true)) ∧
  (∃ (m : Master) (j : JigId) (_v : Word) (s : State),
      (s.writes m (jigOff j.val + 0x20))) ∧
  (∃ (m : Master) (j : JigId) (_v : Word) (s : State),
      (s.writes m (jigOff j.val + 0x22)) ∧
      (s.jig[j].en = true) ∧
      (s.jig[j].stall = none ∨ (s.jig[j].stall = some .load ∧ s.jig[j].txFull = false))) ∧
  (∃ (m : Master) (j : JigId) (s : State),
      (s.writes m (jigOff j.val)) ∧
      (s.jig[j].en = false) ∧
      (s.jig[j].clamped = false)) ∧
  (∃ (m : Master) (j : JigId) (s : State),
      (s.writes m (jigOff j.val)) ∧
      (s.jig[j].en = true)) ∧
  (∃ (m : Master) (j : JigId) (s : State),
      (s.writes m (jigOff j.val)) ∧
      (s.jig[j].en = false)) ∧
  (∃ (m : Master) (j : JigId) (s : State),
      (s.writes m (jigOff j.val)) ∧
      (s.jig[j].en = true)) ∧
  (∃ (m : Master) (j : JigId) (_v : Word) (s : State),
      (s.writes m (jigOff j.val + 0x16))) ∧
  (∃ (m : Master) (j : JigId) (i : Fin 64) (_v : Word) (s : State),
      (s.writes m (0x81000 + 0x80 * j.val + 2 * i.val))) ∧
  (∃ (j : JigId) (s : State),
      (s.on) ∧
      (s.tick.running = true) ∧
      (s.jig[j].gateOpen = false) ∧
      let open' := s.tick.tBeat + s.jigStart s.tick.mode.val j.val;
      let cut := open' + s.jigLen s.tick.mode.val j.val - s.jigKerf s.tick.mode.val;
      (s.jigLen s.tick.mode.val j.val ≠ 0) ∧
      (max s.time.beat open' < cut)) ∧
  (∃ (j : JigId) (s : State),
      (s.on) ∧
      (s.tick.running = true) ∧
      (s.jig[j].gateOpen = true)) := by
  refine ⟨⟨1, 0x6000, { State.reset with jig := State.reset.jig.set 1 ({ State.reset.jig[1] with en := true }), regs := [(528512, 0x6000)] }, ?_⟩,
    ⟨1, 0x7003, { State.reset with jig := State.reset.jig.set 1 ({ State.reset.jig[1] with en := true }), regs := [(528512, 0x7003)] }, ?_⟩,
    ⟨1, { State.reset with jig := State.reset.jig.set 1 ({ State.reset.jig[1] with txFull := true, stall := (some (JStall.load)) }) }, ?_⟩,
    ⟨5, true, { State.reset with jig := State.reset.jig.set 5 ({ State.reset.jig[5] with stall := (some (JStall.store true)) }) }, ?_⟩,
    ⟨15, 0, 0, State.reset, ?_⟩,
    ⟨15, 3, 0, { State.reset with jig := State.reset.jig.set 3 ({ State.reset.jig[3] with txFull := true }) }, ?_⟩,
    ⟨15, 3, { State.reset with jig := State.reset.jig.set 3 ({ State.reset.jig[3] with rxFull := true }) }, ?_⟩,
    ⟨15, 0, State.reset, ?_⟩,
    ⟨5, 15, 0x97a8, { State.reset with hearth := State.reset.hearth.set 5 ({ State.reset.hearth[5] with stall := (some (HStall.jigTx 15 0x97a8 false)) }) }, ?_⟩,
    ⟨11, 3, { State.reset with jig := State.reset.jig.set 3 ({ State.reset.jig[3] with rxFull := true }), hearth := State.reset.hearth.set 11 ({ State.reset.hearth[11] with stall := (some (HStall.jigRx 3 false)) }) }, ?_⟩,
    ⟨15, 0, 0, State.reset, ?_⟩,
    ⟨15, 3, 0, { State.reset with jig := State.reset.jig.set 3 ({ State.reset.jig[3] with en := true }) }, ?_⟩,
    ⟨15, 0, State.reset, ?_⟩,
    ⟨15, 3, { State.reset with jig := State.reset.jig.set 3 ({ State.reset.jig[3] with en := true }) }, ?_⟩,
    ⟨15, 0, State.reset, ?_⟩,
    ⟨15, 3, { State.reset with jig := State.reset.jig.set 3 ({ State.reset.jig[3] with en := true }) }, ?_⟩,
    ⟨15, 0, 0, State.reset, ?_⟩,
    ⟨15, 0, 0, 0, State.reset, ?_⟩,
    ⟨1, { State.reset with tick := { State.reset.tick with running := true }, regs := [(532492, 0x384)] }, ?_⟩,
    ⟨1, { State.reset with tick := { State.reset.tick with running := true }, jig := State.reset.jig.set 1 ({ State.reset.jig[1] with gateOpen := true }) }, ?_⟩⟩ <;> (try dsimp only) <;> and_intros <;> decide +kernel

theorem witness_HearthStatesAndWatchdog :
  (∃ (m : Master) (h : HearthId) (s : State),
      (s.writes m (hrtOff h.val)) ∧
      (s.hearth[h].st = .stopped)) ∧
  (∃ (m : Master) (h : HearthId) (s : State),
      (s.writes m (hrtOff h.val)) ∧
      (s.hearth[h].st ≠ .stopped) ∧
      (s.hearth[h].st ≠ .clamped)) ∧
  (∃ (m : Master) (h : HearthId) (s : State),
      (s.writes m (hrtOff h.val)) ∧
      (s.hearth[h].st ≠ .clamped)) ∧
  (∃ (m : Master) (h : HearthId) (s : State),
      (s.writes m (hrtOff h.val)) ∧
      (s.hearth[h].st = .clamped)) ∧
  (∃ (h : HearthId) (s : State),
      (s.on) ∧
      (s.hearth[h].st = .running) ∧
      (s.hearth[h].stall = none) ∧
      (bit s.hearth[h].fl 7 = true) ∧
      (bit s.hearth[h].fl 9 = false) ∧
      (s.irqPend (hearthMaster h) &&& s.reg (hrtOff h.val + 0x16) ≠ 0)) ∧
  (∃ (h : HearthId) (s : State),
      (s.on) ∧
      (s.hearth[h].st ≠ .running ∨ bit s.hearth[h].fl 7 = false ∨ bit s.hearth[h].fl 9 = true ∨ s.irqPend (hearthMaster h) &&& s.reg (hrtOff h.val + 0x16) = 0)) ∧
  (∃ (h : HearthId) (e : Nat) (s : State),
      (s.on) ∧
      (s.hearth[h].st = .running) ∧
      (s.hearth[h].wdgEnd = some e) ∧
      (s.hearth[h].wdgTrapped = false) ∧
      (bit s.hearth[h].fl 9 = false)) ∧
  (∃ (h : HearthId) (e : Nat) (s : State),
      (s.on) ∧
      (s.hearth[h].st = .running) ∧
      (s.hearth[h].wdgEnd = some e) ∧
      (s.hearth[h].wdgTrapped = true ∨ bit s.hearth[h].fl 9 = true)) ∧
  (∃ (m : Master) (h : HearthId) (_v : Word) (s : State),
      (s.writes m (hrtOff h.val + 0x12))) := by
  refine ⟨⟨15, 0, State.reset, ?_⟩,
    ⟨15, 5, { State.reset with hearth := State.reset.hearth.set 5 { State.reset.hearth[5] with st := .running } }, ?_⟩,
    ⟨15, 0, State.reset, ?_⟩,
    ⟨15, 5, { State.reset with hearth := State.reset.hearth.set 5 { State.reset.hearth[5] with st := .clamped } }, ?_⟩,
    ⟨5, { State.reset with hearth := State.reset.hearth.set 5 ({ State.reset.hearth[5] with st := .running, fl := 0x0080 }), regs := [(65540, 0x3), (65542, 0x1), (592406, 0xffff)] }, ?_⟩,
    ⟨0, State.reset, ?_⟩,
    ⟨5, 4, { State.reset with hearth := State.reset.hearth.set 5 ({ State.reset.hearth[5] with st := .running, wdgEnd := (some 4) }) }, ?_⟩,
    ⟨5, 4, { State.reset with hearth := State.reset.hearth.set 5 { State.reset.hearth[5] with st := .running, wdgTrapped := true, wdgEnd := some 4 } }, ?_⟩,
    ⟨15, 0, 0, State.reset, ?_⟩⟩ <;> (try dsimp only) <;> (try refine ⟨⟨rfl, rfl, rfl, rfl, rfl⟩, ?_⟩) <;>
    and_intros <;> first | decide +kernel | rfl

theorem witness_StoppedHearthAccess :
  (∃ (m : Master) (h : HearthId) (_v : Word) (s : State),
      (s.writes m (hrtOff h.val + 0x22)) ∧
      (s.hearth[h].st = .stopped ∨ s.hearth[h].st = .halted ∨ s.hearth[h].st = .clamped)) ∧
  (∃ (m : Master) (h : HearthId) (s : State),
      (s.reads m (hrtOff h.val + 0x22)) ∧
      (s.hearth[h].st = .stopped ∨ s.hearth[h].st = .halted ∨ s.hearth[h].st = .clamped)) ∧
  (∃ (m : Master) (h : HearthId) (s : State),
      (s.reads m (hrtOff h.val + 0x22)) ∧
      (s.reads m (hrtOff h.val + 0x32)) ∧
      (s.hearth[h].st = .idle ∨ s.hearth[h].st = .running)) ∧
  (∃ (m : Master) (h : HearthId) (k : Fin 16) (_v : Word) (s : State),
      (s.writes m (hrtOff h.val + 0x22)) ∧
      (s.writes m (hrtOff h.val + 0x32)) ∧
      (s.writes m (hrtOff h.val + 0x122)) ∧
      (s.writes m (hrtOff h.val + 0x100 + 2 * k.val)) ∧
      (s.hearth[h].st = .idle ∨ s.hearth[h].st = .running)) ∧
  (∃ (m : Master) (h : HearthId) (_v : Word) (s : State),
      (s.writes m (hrtOff h.val + 0x32)) ∧
      (s.hearth[h].st = .stopped ∨ s.hearth[h].st = .halted ∨ s.hearth[h].st = .clamped)) ∧
  (∃ (m : Master) (h : HearthId) (s : State),
      (s.reads m (hrtOff h.val + 0x32)) ∧
      (s.hearth[h].st = .stopped ∨ s.hearth[h].st = .halted ∨ s.hearth[h].st = .clamped)) ∧
  (∃ (m : Master) (h : HearthId) (s : State),
      (s.writes m (hrtOff h.val + 0x122)) ∧
      (s.hearth[h].st = .stopped ∨ s.hearth[h].st = .halted ∨ s.hearth[h].st = .clamped)) ∧
  (∃ (m : Master) (h : HearthId) (s : State),
      (s.writes m (hrtOff h.val + 0x122)) ∧
      (s.hearth[h].st = .stopped ∨ s.hearth[h].st = .halted ∨ s.hearth[h].st = .clamped)) ∧
  (∃ (m : Master) (h : HearthId) (k : Fin 16) (_v : Word) (s : State),
      (s.writes m (hrtOff h.val + 0x100 + 2 * k.val)) ∧
      (s.hearth[h].st = .stopped ∨ s.hearth[h].st = .halted ∨ s.hearth[h].st = .clamped)) := by
  refine ⟨⟨15, 0, 0, State.reset, ?_⟩,
    ⟨15, 0, State.reset, ?_⟩,
    ⟨15, 5, { State.reset with hearth := State.reset.hearth.set 5 { State.reset.hearth[5] with st := .running } }, ?_⟩,
    ⟨15, 5, 0, 0, { State.reset with hearth := State.reset.hearth.set 5 { State.reset.hearth[5] with st := .idle } }, ?_⟩,
    ⟨15, 0, 0, State.reset, ?_⟩,
    ⟨15, 0, State.reset, ?_⟩,
    ⟨15, 0, State.reset, ?_⟩,
    ⟨15, 0, State.reset, ?_⟩,
    ⟨15, 0, 0, 0, State.reset, ?_⟩⟩ <;> (try dsimp only) <;> and_intros <;> decide +kernel

theorem witness_HearthArithmetic :
  (∃ (h : HearthId) (l : List Byte) (u : State) (v : State) (y : State) (i : HInstr) (d : Nat) (e : Nat) (s : State),
      (s.hearthAt h l u i) ∧
      (i.iterates u.hearth[h]) ∧
      (i.op = .add ∨ i.op = .adc) ∧
      (i.pre.atom = false) ∧
      (u.operands h i d e v) ∧
      let n := opBits i.pre.wide;
      let c := b2n (i.op == .adc && bit u.hearth[h].fl 0);
      let r := (d + e + c) % 2 ^ n;
      (v.delivers h i u.hearth[h] r y)) ∧
  (∃ (h : HearthId) (l : List Byte) (u : State) (v : State) (y : State) (i : HInstr) (d : Nat) (e : Nat) (s : State),
      (s.hearthAt h l u i) ∧
      (i.iterates u.hearth[h]) ∧
      (i.op = .sub ∨ i.op = .sbb ∨ i.op = .cmp) ∧
      (i.pre.atom = false) ∧
      (u.operands h i d e v) ∧
      let n := opBits i.pre.wide;
      let c := b2n (i.op == .sbb && bit u.hearth[h].fl 0);
      let r := (2 ^ n + d - (e + c)) % 2 ^ n;
      ((i.op = .cmp → y = v)) ∧
      ((i.op ≠ .cmp → v.delivers h i u.hearth[h] r y))) ∧
  (∃ (h : HearthId) (l : List Byte) (u : State) (i : HInstr) (a : Reg) (s : State),
      (s.hearthAt h l u i) ∧
      (i.iterates u.hearth[h]) ∧
      (i.op = .neg) ∧
      (i.form = .one a)) ∧
  (∃ (h : HearthId) (l : List Byte) (u : State) (i : HInstr) (a : Reg) (s : State),
      (s.hearthAt h l u i) ∧
      (i.iterates u.hearth[h]) ∧
      (i.op = .inc ∨ i.op = .dec) ∧
      (i.form = .one a)) := by
  refine ⟨⟨9, [0x19, 0x40, 0x50], { State.reset with hearth := State.reset.hearth.set 9 ({ State.reset.hearth[9] with st := .running, rep := [0x19, 0x40, 0x50] }), regs := [(786432, 0x9)] }, { State.reset with hearth := State.reset.hearth.set 9 ({ State.reset.hearth[9] with st := .running, rep := [0x19, 0x40, 0x50] }), regs := [(786432, 0x9)] }, { State.reset with hearth := State.reset.hearth.set 9 ({ State.reset.hearth[9] with st := .running, rep := [0x19, 0x40, 0x50] }), regs := [(786432, 0x9)] }, { pre := { rep := .once, wide := false, page := none, atom := false }, op := .add, form := .mem { g := false, code := 4 } false false 0 1 0x50, len := 3 }, 0, 0, { State.reset with hearth := State.reset.hearth.set 9 ({ State.reset.hearth[9] with st := .running, rep := [0x19, 0x40, 0x50] }), regs := [(786432, 0x9)] }, ?_⟩,
    ⟨11, [0xf3, 0xf1, 0x30, 0x20], { State.reset with hearth := State.reset.hearth.set 11 ({ State.reset.hearth[11] with st := .running, cnt := 0x0001, rep := [0xf3, 0xf1, 0x30, 0x20] }) }, { State.reset with hearth := State.reset.hearth.set 11 ({ State.reset.hearth[11] with st := .running, cnt := 0x0001, rep := [0xf3, 0xf1, 0x30, 0x20] }) }, { State.reset with hearth := State.reset.hearth.set 11 ({ State.reset.hearth[11] with st := .running, cnt := 0x0001, rep := [0xf3, 0xf1, 0x30, 0x20] }) }, { pre := { rep := .rpteq, wide := true, page := none, atom := false }, op := .sub, form := .rr { g := false, code := 2 } { g := false, code := 0 }, len := 4 }, 0, 0, { State.reset with hearth := State.reset.hearth.set 11 ({ State.reset.hearth[11] with st := .running, cnt := 0x0001, rep := [0xf3, 0xf1, 0x30, 0x20] }) }, ?_⟩,
    ⟨11, [0xb1, 0x50], { State.reset with hearth := State.reset.hearth.set 11 ({ State.reset.hearth[11] with st := .running, rep := [0xb1, 0x50] }) }, { pre := { rep := .once, wide := false, page := none, atom := false }, op := .neg, form := .one { g := true, code := 5 }, len := 2 }, { g := true, code := 5 }, { State.reset with hearth := State.reset.hearth.set 11 ({ State.reset.hearth[11] with st := .running, rep := [0xb1, 0x50] }) }, ?_⟩,
    ⟨11, [0xb1, 0x13], { State.reset with hearth := State.reset.hearth.set 11 ({ State.reset.hearth[11] with st := .running, rep := [0xb1, 0x13] }) }, { pre := { rep := .once, wide := false, page := none, atom := false }, op := .dec, form := .one { g := true, code := 1 }, len := 2 }, { g := true, code := 1 }, { State.reset with hearth := State.reset.hearth.set 11 ({ State.reset.hearth[11] with st := .running, rep := [0xb1, 0x13] }) }, ?_⟩⟩ <;> (try dsimp only) <;> (try refine ⟨⟨rfl, rfl, rfl, rfl, rfl⟩, ?_⟩) <;>
    and_intros <;> first | decide +kernel | rfl

theorem witness_HearthLogicAndMoves :
  (∃ (h : HearthId) (l : List Byte) (u : State) (v : State) (y : State) (i : HInstr) (d : Nat) (e : Nat) (s : State),
      (s.hearthAt h l u i) ∧
      (i.iterates u.hearth[h]) ∧
      (i.op ∈ [HOp.and, .or, .xor, .test]) ∧
      (i.pre.atom = false) ∧
      (u.operands h i d e v) ∧
      let r := if i.op = .or then d ||| e else if i.op = .xor then d ^^^ e else d &&& e;
      ((i.op = .test → y = v)) ∧
      ((i.op ≠ .test → v.delivers h i u.hearth[h] r y))) ∧
  (∃ (h : HearthId) (l : List Byte) (u : State) (i : HInstr) (a : Reg) (s : State),
      (s.hearthAt h l u i) ∧
      (i.iterates u.hearth[h]) ∧
      (i.op ∈ [HOp.not, .sxb, .zxb, .swab]) ∧
      (i.form = .one a)) ∧
  (∃ (h : HearthId) (l : List Byte) (u : State) (i : HInstr) (d : Nat) (e : Nat) (a : Reg) (b : Reg) (imm : Word) (s : State),
      (s.hearthAt h l u i) ∧
      (i.iterates u.hearth[h]) ∧
      (i.op = .mov) ∧
      (u.operands h i d e u) ∧
      (i.form = .rr a b ∨ i.form = .ri a imm)) ∧
  (∃ (h : HearthId) (l : List Byte) (u : State) (i : HInstr) (r : Reg) (dir : Bool) (sp : Bool) (ptr : Nat) (am : Nat) (k : Word) (s : State),
      (s.hearthAt h l u i) ∧
      (i.iterates u.hearth[h]) ∧
      (i.op = .lea) ∧
      (i.form = .mem r dir sp ptr am k)) ∧
  (∃ (h : HearthId) (l : List Byte) (u : State) (i : HInstr) (a : Reg) (n : Nat) (s : State),
      (s.hearthAt h l u i) ∧
      (i.iterates u.hearth[h]) ∧
      (i.op = .mfs) ∧
      (i.form = .special a n) ∧
      (n < 17)) ∧
  (∃ (h : HearthId) (l : List Byte) (u : State) (i : HInstr) (a : Reg) (n : Nat) (s : State),
      (s.hearthAt h l u i) ∧
      (i.iterates u.hearth[h]) ∧
      (i.op = .mfs) ∧
      (i.form = .special a n) ∧
      (n = 17 ∨ n = 21 ∨ n = 26)) ∧
  (∃ (h : HearthId) (l : List Byte) (u : State) (i : HInstr) (a : Reg) (n : Nat) (s : State),
      (s.hearthAt h l u i) ∧
      (i.iterates u.hearth[h]) ∧
      (i.op = .mfs) ∧
      (i.form = .special a n) ∧
      (17 < n) ∧
      (n ≠ 21) ∧
      (n ≠ 26) ∧
      (n < 30)) ∧
  (∃ (h : HearthId) (l : List Byte) (u : State) (i : HInstr) (a : Reg) (n : Nat) (s : State),
      (s.hearthAt h l u i) ∧
      (i.iterates u.hearth[h]) ∧
      (i.op = .mts) ∧
      (i.form = .special a n)) := by
  refine ⟨⟨11, [0xf3, 0xf1, 0x70, 0x20], { State.reset with hearth := State.reset.hearth.set 11 ({ State.reset.hearth[11] with st := .running, cnt := 0x0001, rep := [0xf3, 0xf1, 0x70, 0x20] }) }, { State.reset with hearth := State.reset.hearth.set 11 ({ State.reset.hearth[11] with st := .running, cnt := 0x0001, rep := [0xf3, 0xf1, 0x70, 0x20] }) }, { State.reset with hearth := State.reset.hearth.set 11 ({ State.reset.hearth[11] with st := .running, cnt := 0x0001, rep := [0xf3, 0xf1, 0x70, 0x20] }) }, { pre := { rep := .rpteq, wide := true, page := none, atom := false }, op := .or, form := .rr { g := false, code := 2 } { g := false, code := 0 }, len := 4 }, 0, 0, { State.reset with hearth := State.reset.hearth.set 11 ({ State.reset.hearth[11] with st := .running, cnt := 0x0001, rep := [0xf3, 0xf1, 0x70, 0x20] }) }, ?_⟩,
    ⟨5, [0xb1, 0x51], { State.reset with hearth := State.reset.hearth.set 5 ({ State.reset.hearth[5] with st := .running, rep := [0xb1, 0x51] }) }, { pre := { rep := .once, wide := false, page := none, atom := false }, op := .not, form := .one { g := true, code := 5 }, len := 2 }, { g := true, code := 5 }, { State.reset with hearth := State.reset.hearth.set 5 ({ State.reset.hearth[5] with st := .running, rep := [0xb1, 0x51] }) }, ?_⟩,
    ⟨5, [0xf3, 0, 0x20], { State.reset with hearth := State.reset.hearth.set 5 ({ State.reset.hearth[5] with st := .running, rep := [0xf3, 0, 0x20] }) }, { pre := { rep := .once, wide := true, page := none, atom := false }, op := .mov, form := .rr { g := false, code := 2 } { g := false, code := 0 }, len := 3 }, 0, 0, { g := false, code := 2 }, { g := false, code := 0 }, 0, { State.reset with hearth := State.reset.hearth.set 5 ({ State.reset.hearth[5] with st := .running, rep := [0xf3, 0, 0x20] }) }, ?_⟩,
    ⟨5, [0xad, 0, 0x2f], { State.reset with hearth := State.reset.hearth.set 5 ({ State.reset.hearth[5] with st := .running, rep := [0xad, 0, 0x2f] }) }, { pre := { rep := .once, wide := false, page := none, atom := false }, op := .lea, form := .mem { g := false, code := 0 } false false 0 1 0x2f, len := 3 }, { g := false, code := 0 }, false, false, 0, 1, 0x2f, { State.reset with hearth := State.reset.hearth.set 5 ({ State.reset.hearth[5] with st := .running, rep := [0xad, 0, 0x2f] }) }, ?_⟩,
    ⟨5, [0xc5, 0x25], { State.reset with hearth := State.reset.hearth.set 5 ({ State.reset.hearth[5] with st := .running, rep := [0xc5, 0x25] }) }, { pre := { rep := .once, wide := false, page := none, atom := false }, op := .mfs, form := .special { g := false, code := 2 } 5, len := 2 }, { g := false, code := 2 }, 5, { State.reset with hearth := State.reset.hearth.set 5 ({ State.reset.hearth[5] with st := .running, rep := [0xc5, 0x25] }) }, ?_⟩,
    ⟨4, [0xc6, 0x15], { State.reset with hearth := State.reset.hearth.set 4 ({ State.reset.hearth[4] with st := .running, rep := [0xc6, 0x15] }) }, { pre := { rep := .once, wide := false, page := none, atom := false }, op := .mfs, form := .special { g := false, code := 1 } 21, len := 2 }, { g := false, code := 1 }, 21, { State.reset with hearth := State.reset.hearth.set 4 ({ State.reset.hearth[4] with st := .running, rep := [0xc6, 0x15] }) }, ?_⟩,
    ⟨5, [0xc6, 0x12], { State.reset with hearth := State.reset.hearth.set 5 ({ State.reset.hearth[5] with st := .running, rep := [0xc6, 0x12] }) }, { pre := { rep := .once, wide := false, page := none, atom := false }, op := .mfs, form := .special { g := false, code := 1 } 18, len := 2 }, { g := false, code := 1 }, 18, { State.reset with hearth := State.reset.hearth.set 5 ({ State.reset.hearth[5] with st := .running, rep := [0xc6, 0x12] }) }, ?_⟩,
    ⟨5, [0xc7, 0x25], { State.reset with hearth := State.reset.hearth.set 5 ({ State.reset.hearth[5] with st := .running, rep := [0xc7, 0x25] }) }, { pre := { rep := .once, wide := false, page := none, atom := false }, op := .mts, form := .special { g := false, code := 2 } 5, len := 2 }, { g := false, code := 2 }, 5, { State.reset with hearth := State.reset.hearth.set 5 ({ State.reset.hearth[5] with st := .running, rep := [0xc7, 0x25] }) }, ?_⟩⟩ <;> (try dsimp only) <;> (try refine ⟨⟨rfl, rfl, rfl, rfl, rfl⟩, ?_⟩) <;>
    and_intros <;> first | decide +kernel | rfl

theorem witness_HearthMultiplyDivideShift :
  (∃ (h : HearthId) (l : List Byte) (u : State) (i : HInstr) (a : Reg) (b : Reg) (s : State),
      (s.hearthAt h l u i) ∧
      (i.iterates u.hearth[h]) ∧
      (i.op = .mul) ∧
      (i.form = .rr a b)) ∧
  (∃ (h : HearthId) (l : List Byte) (u : State) (i : HInstr) (a : Reg) (b : Reg) (s : State),
      (s.hearthAt h l u i) ∧
      (i.iterates u.hearth[h]) ∧
      (i.op = .mulhu ∨ i.op = .mulhs) ∧
      (i.form = .rr a b)) ∧
  (∃ (h : HearthId) (l : List Byte) (u : State) (i : HInstr) (a : Reg) (b : Reg) (s : State),
      (s.hearthAt h l u i) ∧
      (i.iterates u.hearth[h]) ∧
      (i.op = .divu) ∧
      (i.form = .rr a b) ∧
      let x := u.hearth[h];
      let e := x.get b;
      (e ≠ 0)) ∧
  (∃ (h : HearthId) (l : List Byte) (u : State) (i : HInstr) (a : Reg) (b : Reg) (s : State),
      (s.hearthAt h l u i) ∧
      (i.iterates u.hearth[h]) ∧
      (i.op = .divs) ∧
      (i.form = .rr a b) ∧
      let x := u.hearth[h];
      let e := x.get b;
      (e ≠ 0)) ∧
  (∃ (h : HearthId) (l : List Byte) (u : State) (i : HInstr) (a : Reg) (b : Reg) (s : State),
      (s.hearthAt h l u i) ∧
      (i.iterates u.hearth[h]) ∧
      (i.op = .divu ∨ i.op = .divs) ∧
      (i.form = .rr a b) ∧
      let x := u.hearth[h];
      (x.get b = 0) ∧
      (bit x.fl 6 = false)) ∧
  (∃ (h : HearthId) (l : List Byte) (u : State) (i : HInstr) (a : Reg) (b : Reg) (s : State),
      (s.hearthAt h l u i) ∧
      (i.iterates u.hearth[h]) ∧
      (i.op = .divu ∨ i.op = .divs) ∧
      (i.form = .rr a b) ∧
      (u.hearth[h].get b = 0) ∧
      (bit u.hearth[h].fl 6 = true)) ∧
  (∃ (h : HearthId) (l : List Byte) (u : State) (i : HInstr) (a : Reg) (b : Reg) (n : Nat) (cnt : Nat) (s : State),
      (s.hearthAt h l u i) ∧
      (i.iterates u.hearth[h]) ∧
      (i.op ∈ [HOp.shl, .shr, .sar]) ∧
      let x := u.hearth[h];
      let k := cnt % 32;
      (i.form = .rr a b ∧ cnt = (x.get b).toNat ∨ i.form = .count a n ∧ cnt = n) ∧
      (k ≠ 0)) ∧
  (∃ (h : HearthId) (l : List Byte) (u : State) (i : HInstr) (a : Reg) (b : Reg) (n : Nat) (cnt : Nat) (s : State),
      (s.hearthAt h l u i) ∧
      (i.iterates u.hearth[h]) ∧
      (i.op = .rol ∨ i.op = .ror) ∧
      let x := u.hearth[h];
      let w := opBits i.pre.wide;
      let k := cnt % w;
      (i.form = .rr a b ∧ cnt = (x.get b).toNat ∨ i.form = .count a n ∧ cnt = n) ∧
      (k ≠ 0)) ∧
  (∃ (h : HearthId) (l : List Byte) (u : State) (i : HInstr) (a : Reg) (b : Reg) (n : Nat) (cnt : Nat) (s : State),
      (s.hearthAt h l u i) ∧
      (i.iterates u.hearth[h]) ∧
      (i.op ∈ [HOp.shl, .shr, .sar, .rol, .ror]) ∧
      let x := u.hearth[h];
      (i.form = .rr a b ∧ cnt = (x.get b).toNat ∨ i.form = .count a n ∧ cnt = n) ∧
      (cnt % 32 = 0 ∨ ((i.op = .rol ∨ i.op = .ror) ∧ cnt % opBits i.pre.wide = 0))) := by
  refine ⟨⟨5, [0xb2, 0x25], { State.reset with hearth := State.reset.hearth.set 5 ({ State.reset.hearth[5] with st := .running, rep := [0xb2, 0x25] }) }, { pre := { rep := .once, wide := false, page := none, atom := false }, op := .mul, form := .rr { g := false, code := 2 } { g := false, code := 5 }, len := 2 }, { g := false, code := 2 }, { g := false, code := 5 }, { State.reset with hearth := State.reset.hearth.set 5 ({ State.reset.hearth[5] with st := .running, rep := [0xb2, 0x25] }) }, ?_⟩,
    ⟨5, [0xb3, 0x25], { State.reset with hearth := State.reset.hearth.set 5 ({ State.reset.hearth[5] with st := .running, rep := [0xb3, 0x25] }) }, { pre := { rep := .once, wide := false, page := none, atom := false }, op := .mulhu, form := .rr { g := false, code := 2 } { g := false, code := 5 }, len := 2 }, { g := false, code := 2 }, { g := false, code := 5 }, { State.reset with hearth := State.reset.hearth.set 5 ({ State.reset.hearth[5] with st := .running, rep := [0xb3, 0x25] }) }, ?_⟩,
    ⟨3, [0xb5, 0xa0], { State.reset with hearth := State.reset.hearth.set 3 ({ State.reset.hearth[3] with st := .running, phys := [(8, 0x3840)], rep := [0xb5, 0xa0] }) }, { pre := { rep := .once, wide := false, page := none, atom := false }, op := .divu, form := .rr { g := false, code := 10 } { g := false, code := 0 }, len := 2 }, { g := false, code := 10 }, { g := false, code := 0 }, { State.reset with hearth := State.reset.hearth.set 3 ({ State.reset.hearth[3] with st := .running, phys := [(8, 0x3840)], rep := [0xb5, 0xa0] }) }, ?_⟩,
    ⟨3, [0xb6, 0xa0], { State.reset with hearth := State.reset.hearth.set 3 ({ State.reset.hearth[3] with st := .running, phys := [(8, 0x3840)], rep := [0xb6, 0xa0] }) }, { pre := { rep := .once, wide := false, page := none, atom := false }, op := .divs, form := .rr { g := false, code := 10 } { g := false, code := 0 }, len := 2 }, { g := false, code := 10 }, { g := false, code := 0 }, { State.reset with hearth := State.reset.hearth.set 3 ({ State.reset.hearth[3] with st := .running, phys := [(8, 0x3840)], rep := [0xb6, 0xa0] }) }, ?_⟩,
    ⟨5, [0xb5, 0x25], { State.reset with hearth := State.reset.hearth.set 5 ({ State.reset.hearth[5] with st := .running, rep := [0xb5, 0x25] }) }, { pre := { rep := .once, wide := false, page := none, atom := false }, op := .divu, form := .rr { g := false, code := 2 } { g := false, code := 5 }, len := 2 }, { g := false, code := 2 }, { g := false, code := 5 }, { State.reset with hearth := State.reset.hearth.set 5 ({ State.reset.hearth[5] with st := .running, rep := [0xb5, 0x25] }) }, ?_⟩,
    ⟨5, [0xb5, 0x25], { State.reset with hearth := State.reset.hearth.set 5 { State.reset.hearth[5] with st := .running, rep := [0xb5, 0x25], fl := 0x40 } }, { pre := ⟨.once, false, none, false⟩, op := .divu, form := .rr ⟨false, 2⟩ ⟨false, 5⟩, len := 2 }, ⟨false, 2⟩, ⟨false, 5⟩, { State.reset with hearth := State.reset.hearth.set 5 { State.reset.hearth[5] with st := .running, rep := [0xb5, 0x25], fl := 0x40 } }, ?_⟩,
    ⟨10, [0xc0, 0x82], { State.reset with hearth := State.reset.hearth.set 10 ({ State.reset.hearth[10] with st := .running, rep := [0xc0, 0x82] }) }, { pre := { rep := .once, wide := false, page := none, atom := false }, op := .shl, form := .count { g := false, code := 8 } 2, len := 2 }, { g := false, code := 8 }, { g := true, code := 2 }, 2, 2, { State.reset with hearth := State.reset.hearth.set 10 ({ State.reset.hearth[10] with st := .running, rep := [0xc0, 0x82] }) }, ?_⟩,
    ⟨9, [0xc4, 0x5], { State.reset with hearth := State.reset.hearth.set 9 ({ State.reset.hearth[9] with st := .running, rep := [0xc4, 0x5] }) }, { pre := { rep := .once, wide := false, page := none, atom := false }, op := .ror, form := .count { g := false, code := 0 } 5, len := 2 }, { g := false, code := 0 }, { g := false, code := 10 }, 5, 5, { State.reset with hearth := State.reset.hearth.set 9 ({ State.reset.hearth[9] with st := .running, rep := [0xc4, 0x5] }) }, ?_⟩,
    ⟨11, [0xc3, 0x70], { State.reset with hearth := State.reset.hearth.set 11 ({ State.reset.hearth[11] with st := .running, rep := [0xc3, 0x70] }) }, { pre := { rep := .once, wide := false, page := none, atom := false }, op := .rol, form := .count { g := false, code := 7 } 0, len := 2 }, { g := false, code := 7 }, { g := false, code := 5 }, 0, 0, { State.reset with hearth := State.reset.hearth.set 11 ({ State.reset.hearth[11] with st := .running, rep := [0xc3, 0x70] }) }, ?_⟩⟩ <;> (try dsimp only) <;> (try refine ⟨⟨rfl, rfl, rfl, rfl, rfl⟩, ?_⟩) <;>
    and_intros <;> first | decide +kernel | rfl

theorem witness_HearthMemory :
  (∃ (h : HearthId) (l : List Byte) (u : State) (i : HInstr) (r : Reg) (dir : Bool) (sp : Bool) (ptr : Nat) (am : Nat) (k : Word) (s : State),
      (s.hearthAt h l u i) ∧
      (i.iterates u.hearth[h]) ∧
      (i.op = .ld) ∧
      (i.form = .mem r dir sp ptr am k) ∧
      let x := u.hearth[h];
      let page := (x.memAddr i.pre sp ptr am k).1;
      let off := (x.memAddr i.pre sp ptr am k).2;
      let a : Nat := page * 65536 + off;
      let b : Nat := page * 65536 + (off + 2) % 65536;
      (page < 0x100) ∧
      (off % 2 = 0) ∧
      (u.bankServes (hearthMaster h) .read a 2) ∧
      ((i.pre.wide = true → u.bankServes (hearthMaster h) .read b 2))) ∧
  (∃ (h : HearthId) (l : List Byte) (u : State) (i : HInstr) (r : Reg) (dir : Bool) (sp : Bool) (ptr : Nat) (am : Nat) (k : Word) (s : State),
      (s.hearthAt h l u i) ∧
      (i.iterates u.hearth[h]) ∧
      (i.op = .st) ∧
      (i.pre.atom = false) ∧
      (i.form = .mem r dir sp ptr am k) ∧
      let x := u.hearth[h];
      let page := (x.memAddr i.pre sp ptr am k).1;
      let off := (x.memAddr i.pre sp ptr am k).2;
      let a : Nat := page * 65536 + off;
      let b : Nat := page * 65536 + (off + 2) % 65536;
      (page < 0x100) ∧
      (off % 2 = 0) ∧
      (u.bankServes (hearthMaster h) .write a 2) ∧
      ((i.pre.wide = true → u.bankServes (hearthMaster h) .write b 2))) ∧
  (∃ (h : HearthId) (l : List Byte) (u : State) (i : HInstr) (r : Reg) (dir : Bool) (sp : Bool) (ptr : Nat) (am : Nat) (k : Word) (s : State),
      (s.hearthAt h l u i) ∧
      (i.iterates u.hearth[h]) ∧
      (i.op = .ldb ∨ i.op = .ldbs) ∧
      (i.form = .mem r dir sp ptr am k) ∧
      let x := u.hearth[h];
      let page := (x.memAddr i.pre sp ptr am k).1;
      let a : Nat := page * 65536 + (x.memAddr i.pre sp ptr am k).2;
      (page < 0x100) ∧
      (u.bankServes (hearthMaster h) .read (a / 2 * 2) 2)) ∧
  (∃ (h : HearthId) (l : List Byte) (u : State) (i : HInstr) (r : Reg) (dir : Bool) (sp : Bool) (ptr : Nat) (am : Nat) (k : Word) (s : State),
      (s.hearthAt h l u i) ∧
      (i.iterates u.hearth[h]) ∧
      (i.op = .stb) ∧
      (i.form = .mem r dir sp ptr am k) ∧
      let x := u.hearth[h];
      let page := (x.memAddr i.pre sp ptr am k).1;
      let a : Nat := page * 65536 + (x.memAddr i.pre sp ptr am k).2;
      (page < 0x100) ∧
      (u.bankServes (hearthMaster h) .write (a / 2 * 2) 2)) ∧
  (∃ (h : HearthId) (l : List Byte) (u : State) (i : HInstr) (r : Reg) (dir : Bool) (sp : Bool) (ptr : Nat) (am : Nat) (k : Word) (s : State),
      (s.hearthAt h l u i) ∧
      (i.iterates u.hearth[h]) ∧
      (i.pre.atom = true) ∧
      (i.form = .mem r dir sp ptr am k) ∧
      (i.op ∈ [HOp.st, .add, .adc, .sub, .sbb, .and, .or, .xor]) ∧
      let x := u.hearth[h];
      let page := (x.memAddr i.pre sp ptr am k).1;
      let off := (x.memAddr i.pre sp ptr am k).2;
      let a : Nat := page * 65536 + off;
      let b : Nat := page * 65536 + (off + 2) % 65536;
      (page < 0x100) ∧
      (off % 2 = 0) ∧
      (u.bankServes (hearthMaster h) .write a 2) ∧
      ((i.pre.wide = true → u.bankServes (hearthMaster h) .write b 2))) ∧
  (∃ (h : HearthId) (wide : Bool) (page : Nat) (off : Nat) (s : State),
      (off < 65536) ∧
      (page < 0x100) ∧
      (off % 2 = 0) ∧
      let a : Nat := page * 65536 + off;
      let b : Nat := page * 65536 + (off + 2) % 65536;
      (s.bankServes (hearthMaster h) .read a 2) ∧
      ((wide = true → s.bankServes (hearthMaster h) .read b 2))) ∧
  (∃ (h : HearthId) (wide : Bool) (page : Nat) (off : Nat) (_v : Nat) (s : State),
      (off < 65536) ∧
      (page < 0x100) ∧
      (off % 2 = 0) ∧
      let a : Nat := page * 65536 + off;
      let b : Nat := page * 65536 + (off + 2) % 65536;
      (s.bankServes (hearthMaster h) .write a 2) ∧
      ((wide = true → s.bankServes (hearthMaster h) .write b 2))) ∧
  (∃ (h : HearthId) (l : List Byte) (u : State) (i : HInstr) (r : Reg) (dir : Bool) (sp : Bool) (ptr : Nat) (am : Nat) (k : Word) (s : State),
      (s.hearthAt h l u i) ∧
      (i.iterates u.hearth[h]) ∧
      (i.form = .mem r dir sp ptr am k) ∧
      (i.op ≠ .lea) ∧
      (i.op ≠ .ldb) ∧
      (i.op ≠ .ldbs) ∧
      (i.op ≠ .stb) ∧
      let x := u.hearth[h];
      let off := (x.memAddr i.pre sp ptr am k).2;
      (off % 2 = 1)) ∧
  (∃ (h : HearthId) (l : List Byte) (u : State) (i : HInstr) (r : Reg) (dir : Bool) (sp : Bool) (ptr : Nat) (am : Nat) (k : Word) (s : State),
      (s.hearthAt h l u i) ∧
      (i.iterates u.hearth[h]) ∧
      (i.form = .mem r dir sp ptr am k) ∧
      (i.pre.atom = true) ∧
      let x := u.hearth[h];
      let page := (x.memAddr i.pre sp ptr am k).1;
      let off := (x.memAddr i.pre sp ptr am k).2;
      (off % 2 = 0) ∧
      (0x100 ≤ page)) := by
  refine ⟨⟨4, [0x8, 0xe5], { State.reset with hearth := State.reset.hearth.set 4 ({ State.reset.hearth[4] with st := .running, rep := [0x8, 0xe5] }), regs := [(786432, 0x4)] }, { pre := { rep := .once, wide := false, page := none, atom := false }, op := .ld, form := .mem { g := false, code := 14 } false false 5 0 0, len := 2 }, { g := false, code := 14 }, false, false, 5, 0, 0, { State.reset with hearth := State.reset.hearth.set 4 ({ State.reset.hearth[4] with st := .running, rep := [0x8, 0xe5] }), regs := [(786432, 0x4)] }, ?_⟩,
    ⟨4, [0xc, 0x39], { State.reset with hearth := State.reset.hearth.set 4 ({ State.reset.hearth[4] with st := .running, rep := [0xc, 0x39] }), regs := [(786432, 0x4)] }, { pre := { rep := .once, wide := false, page := none, atom := false }, op := .st, form := .mem { g := false, code := 3 } true true 1 0 0, len := 2 }, { g := false, code := 3 }, true, true, 1, 0, 0, { State.reset with hearth := State.reset.hearth.set 4 ({ State.reset.hearth[4] with st := .running, rep := [0xc, 0x39] }), regs := [(786432, 0x4)] }, ?_⟩,
    ⟨11, [0xa5, 0x13, 0x31], { State.reset with hearth := State.reset.hearth.set 11 ({ State.reset.hearth[11] with st := .running, rep := [0xa5, 0x13, 0x31] }), regs := [(786432, 0xb)] }, { pre := { rep := .once, wide := false, page := none, atom := false }, op := .ldbs, form := .mem { g := false, code := 1 } false false 3 1 0x31, len := 3 }, { g := false, code := 1 }, false, false, 3, 1, 0x31, { State.reset with hearth := State.reset.hearth.set 11 ({ State.reset.hearth[11] with st := .running, rep := [0xa5, 0x13, 0x31] }), regs := [(786432, 0xb)] }, ?_⟩,
    ⟨11, [0xa9, 0x13, 0x31], { State.reset with hearth := State.reset.hearth.set 11 ({ State.reset.hearth[11] with st := .running, rep := [0xa9, 0x13, 0x31] }), regs := [(786432, 0xb)] }, { pre := { rep := .once, wide := false, page := none, atom := false }, op := .stb, form := .mem { g := false, code := 1 } true false 3 1 0x31, len := 3 }, { g := false, code := 1 }, true, false, 3, 1, 0x31, { State.reset with hearth := State.reset.hearth.set 11 ({ State.reset.hearth[11] with st := .running, rep := [0xa9, 0x13, 0x31] }), regs := [(786432, 0xb)] }, ?_⟩,
    ⟨9, [0xf7, 0x2c, 0x90], { State.reset with hearth := State.reset.hearth.set 9 ({ State.reset.hearth[9] with st := .running, rep := [0xf7, 0x2c, 0x90] }), regs := [(786432, 0x9)] }, { pre := { rep := .once, wide := false, page := none, atom := true }, op := .adc, form := .mem { g := false, code := 9 } true false 0 0 0, len := 3 }, { g := false, code := 9 }, true, false, 0, 0, 0, { State.reset with hearth := State.reset.hearth.set 9 ({ State.reset.hearth[9] with st := .running, rep := [0xf7, 0x2c, 0x90] }), regs := [(786432, 0x9)] }, ?_⟩,
    ⟨11, false, 0, 0, { State.reset with regs := [(786432, 0xb)] }, ?_⟩,
    ⟨11, false, 0, 0, 0, { State.reset with regs := [(786432, 0xb)] }, ?_⟩,
    ⟨11, [0x5d, 0x13, 0x31], { State.reset with hearth := State.reset.hearth.set 11 ({ State.reset.hearth[11] with st := .running, rep := [0x5d, 0x13, 0x31] }) }, { pre := { rep := .once, wide := false, page := none, atom := false }, op := .cmp, form := .mem { g := false, code := 1 } true false 3 1 0x31, len := 3 }, { g := false, code := 1 }, true, false, 3, 1, 0x31, { State.reset with hearth := State.reset.hearth.set 11 ({ State.reset.hearth[11] with st := .running, rep := [0x5d, 0x13, 0x31] }) }, ?_⟩,
    ⟨9, [0xf7, 0x2c, 0x90], { State.reset with hearth := State.reset.hearth.set 9 ({ State.reset.hearth[9] with st := .running, pdata := 0x100, rep := [0xf7, 0x2c, 0x90] }) }, { pre := { rep := .once, wide := false, page := none, atom := true }, op := .adc, form := .mem { g := false, code := 9 } true false 0 0 0, len := 3 }, { g := false, code := 9 }, true, false, 0, 0, 0, { State.reset with hearth := State.reset.hearth.set 9 ({ State.reset.hearth[9] with st := .running, pdata := 0x100, rep := [0xf7, 0x2c, 0x90] }) }, ?_⟩⟩ <;> (try dsimp only) <;> (try refine ⟨⟨rfl, rfl, rfl, rfl, rfl⟩, ?_⟩) <;>
    and_intros <;> first | decide +kernel | rfl

theorem witness_HearthBlocksAndRepeat :
  (∃ (h : HearthId) (l : List Byte) (u : State) (v : State) (y : State) (i : HInstr) (a : Reg) (b : Reg) (n : Nat) (s : State),
      (s.hearthAt h l u i) ∧
      (i.iterates u.hearth[h]) ∧
      (i.op = .scpy) ∧
      (i.form = .rr a b) ∧
      let x := u.hearth[h];
      let src := match i.pre.page with | none => x.pdata | some 0 => x.pxtra | some 1 => x.pstk | some _ => x.pcode;
      (u.readMem h i.pre.wide src.toNat (x.get b).toNat = (v, .ok n)) ∧
      (v.writeMem h i.pre.wide x.pxtra.toNat (x.get a).toNat n = (y, .ok ()))) ∧
  (∃ (h : HearthId) (l : List Byte) (u : State) (y : State) (i : HInstr) (a : Reg) (b : Reg) (s : State),
      (s.hearthAt h l u i) ∧
      (i.iterates u.hearth[h]) ∧
      (i.op = .sfil) ∧
      (i.form = .rr a b) ∧
      let x := u.hearth[h];
      (u.writeMem h i.pre.wide x.pxtra.toNat (x.get a).toNat (x.operand i.pre.wide b) = (y, .ok ()))) ∧
  (∃ (h : HearthId) (l : List Byte) (u : State) (v : State) (y : State) (i : HInstr) (a : Reg) (b : Reg) (d : Nat) (e : Nat) (s : State),
      (s.hearthAt h l u i) ∧
      (i.iterates u.hearth[h]) ∧
      (i.op = .scmp) ∧
      (i.form = .rr a b) ∧
      let x := u.hearth[h];
      let src := match i.pre.page with | none => x.pdata | some 0 => x.pxtra | some 1 => x.pstk | some _ => x.pcode;
      (u.readMem h i.pre.wide src.toNat (x.get b).toNat = (v, .ok d)) ∧
      (v.readMem h i.pre.wide x.pxtra.toNat (x.get a).toNat = (y, .ok e))) ∧
  (∃ (h : HearthId) (l : List Byte) (u : State) (y : State) (i : HInstr) (a : Reg) (b : Reg) (e : Nat) (s : State),
      (s.hearthAt h l u i) ∧
      (i.iterates u.hearth[h]) ∧
      (i.op = .ssrc) ∧
      (i.form = .rr a b) ∧
      let x := u.hearth[h];
      (u.readMem h i.pre.wide x.pxtra.toNat (x.get a).toNat = (y, .ok e))) ∧
  (∃ (h : HearthId) (l : List Byte) (u : State) (i : HInstr) (s : State),
      (s.hearthAt h l u i) ∧
      (i.pre.rep ≠ .once) ∧
      (i.op ≠ .trap) ∧
      (u.hearth[h].cnt = 0)) := by
  refine ⟨⟨5, [0xb7, 0x25], { State.reset with hearth := State.reset.hearth.set 5 { State.reset.hearth[5] with st := .running, rep := [0xb7, 0x25] }, regs := [(0xC0000, 5)] }, { State.reset with hearth := State.reset.hearth.set 5 { State.reset.hearth[5] with st := .running, rep := [0xb7, 0x25] }, regs := [(0xC0000, 5)] }, (State.writeMem { State.reset with hearth := State.reset.hearth.set 5 { State.reset.hearth[5] with st := .running, rep := [0xb7, 0x25] }, regs := [(0xC0000, 5)] } 5 false 0 0 0).1, { pre := ⟨.once, false, none, false⟩, op := .scpy, form := .rr ⟨false, 2⟩ ⟨false, 5⟩, len := 2 }, ⟨false, 2⟩, ⟨false, 5⟩, 0, { State.reset with hearth := State.reset.hearth.set 5 { State.reset.hearth[5] with st := .running, rep := [0xb7, 0x25] }, regs := [(0xC0000, 5)] }, ?_⟩,
    ⟨5, [0xbd, 0x25], { State.reset with hearth := State.reset.hearth.set 5 { State.reset.hearth[5] with st := .running, rep := [0xbd, 0x25] }, regs := [(0xC0000, 5)] }, (State.writeMem { State.reset with hearth := State.reset.hearth.set 5 { State.reset.hearth[5] with st := .running, rep := [0xbd, 0x25] }, regs := [(0xC0000, 5)] } 5 false 0 0 0).1, { pre := ⟨.once, false, none, false⟩, op := .sfil, form := .rr ⟨false, 2⟩ ⟨false, 5⟩, len := 2 }, ⟨false, 2⟩, ⟨false, 5⟩, { State.reset with hearth := State.reset.hearth.set 5 { State.reset.hearth[5] with st := .running, rep := [0xbd, 0x25] }, regs := [(0xC0000, 5)] }, ?_⟩,
    ⟨5, [0xbe, 0x8f], { State.reset with hearth := State.reset.hearth.set 5 ({ State.reset.hearth[5] with st := .running, rep := [0xbe, 0x8f] }), regs := [(786432, 0x5)] }, { State.reset with hearth := State.reset.hearth.set 5 ({ State.reset.hearth[5] with st := .running, rep := [0xbe, 0x8f] }), regs := [(786432, 0x5)] }, { State.reset with hearth := State.reset.hearth.set 5 ({ State.reset.hearth[5] with st := .running, rep := [0xbe, 0x8f] }), regs := [(786432, 0x5)] }, { pre := { rep := .once, wide := false, page := none, atom := false }, op := .scmp, form := .rr { g := false, code := 8 } { g := false, code := 15 }, len := 2 }, { g := false, code := 8 }, { g := false, code := 15 }, 0, 0, { State.reset with hearth := State.reset.hearth.set 5 ({ State.reset.hearth[5] with st := .running, rep := [0xbe, 0x8f] }), regs := [(786432, 0x5)] }, ?_⟩,
    ⟨10, [0xbf, 0x82], { State.reset with hearth := State.reset.hearth.set 10 ({ State.reset.hearth[10] with st := .running, rep := [0xbf, 0x82] }), regs := [(786432, 0xa)] }, { State.reset with hearth := State.reset.hearth.set 10 ({ State.reset.hearth[10] with st := .running, rep := [0xbf, 0x82] }), regs := [(786432, 0xa)] }, { pre := { rep := .once, wide := false, page := none, atom := false }, op := .ssrc, form := .rr { g := false, code := 8 } { g := false, code := 2 }, len := 2 }, { g := false, code := 8 }, { g := false, code := 2 }, 0, { State.reset with hearth := State.reset.hearth.set 10 ({ State.reset.hearth[10] with st := .running, rep := [0xbf, 0x82] }), regs := [(786432, 0xa)] }, ?_⟩,
    ⟨10, [0xf0, 0xc5, 0xbe], { State.reset with hearth := State.reset.hearth.set 10 ({ State.reset.hearth[10] with st := .running, rep := [0xf0, 0xc5, 0xbe] }) }, { pre := { rep := .rpt, wide := false, page := none, atom := false }, op := .mfs, form := .special { g := false, code := 11 } 14, len := 3 }, { State.reset with hearth := State.reset.hearth.set 10 ({ State.reset.hearth[10] with st := .running, rep := [0xf0, 0xc5, 0xbe] }) }, ?_⟩⟩ <;> (try dsimp only) <;> (try refine ⟨⟨rfl, rfl, rfl, rfl, rfl⟩, ?_⟩) <;>
    and_intros <;> first | decide +kernel | rfl

theorem witness_HearthTransfers :
  (∃ (h : HearthId) (l : List Byte) (u : State) (i : HInstr) (cond : Nat) (d : Word) (s : State),
      (s.hearthAt h l u i) ∧
      (i.op = .jcc ∨ i.op = .longJump) ∧
      (i.form = .rel cond false d)) ∧
  (∃ (h : HearthId) (l : List Byte) (u : State) (i : HInstr) (a : Reg) (b : Reg) (p : BitVec 10) (o : Word) (s : State),
      (s.hearthAt h l u i) ∧
      let x := u.hearth[h];
      (i.op = .jmpr ∧ i.form = .one a ∧ p = x.pcode ∧ o = x.get a ∨ i.op = .jmpfr ∧ i.form = .rr a b ∧ p = (x.get a).truncate 10 ∧ o = x.get b ∨ i.op = .jmpf ∧ i.form = .far p o)) ∧
  (∃ (h : HearthId) (l : List Byte) (u : State) (i : HInstr) (a : Reg) (b : Reg) (d : Word) (far : Bool) (p : BitVec 10) (o : Word) (s : State),
      (s.hearthAt h l u i) ∧
      let x := u.hearth[h];
      let next := x.pc + BitVec.ofNat 16 i.len;
      (i.op = .longJump ∧ i.form = .rel 14 true d ∧ far = false ∧ p = x.pcode ∧ o = next + d ∨ i.op = .callr ∧ i.form = .one a ∧ far = false ∧ p = x.pcode ∧ o = x.get a ∨ i.op = .callfr ∧ i.form = .rr a b ∧ far = true ∧ p = (x.get a).truncate 10 ∧ o = x.get b ∨ i.op = .callf ∧ i.form = .far p o ∧ far = true)) ∧
  (∃ (h : HearthId) (l : List Byte) (u : State) (i : HInstr) (s : State),
      (s.hearthAt h l u i) ∧
      (i.op = .ret ∨ i.op = .retf)) := by
  refine ⟨⟨5, [0xd8, 0x2e], { State.reset with hearth := State.reset.hearth.set 5 ({ State.reset.hearth[5] with st := .running, rep := [0xd8, 0x2e] }) }, { pre := { rep := .once, wide := false, page := none, atom := false }, op := .jcc, form := .rel 8 false 0x2e, len := 2 }, 8, 0x2e, { State.reset with hearth := State.reset.hearth.set 5 ({ State.reset.hearth[5] with st := .running, rep := [0xd8, 0x2e] }) }, ?_⟩,
    ⟨5, [0xc9, 0xb0], { State.reset with hearth := State.reset.hearth.set 5 ({ State.reset.hearth[5] with st := .running, rep := [0xc9, 0xb0] }) }, { pre := { rep := .once, wide := false, page := none, atom := false }, op := .jmpr, form := .one { g := false, code := 11 }, len := 2 }, { g := false, code := 11 }, { g := false, code := 3 }, 0x3ff, 0, { State.reset with hearth := State.reset.hearth.set 5 ({ State.reset.hearth[5] with st := .running, rep := [0xc9, 0xb0] }) }, ?_⟩,
    ⟨4, [0xca, 0x50], { State.reset with hearth := State.reset.hearth.set 4 ({ State.reset.hearth[4] with st := .running, rep := [0xca, 0x50] }) }, { pre := { rep := .once, wide := false, page := none, atom := false }, op := .callr, form := .one { g := false, code := 5 }, len := 2 }, { g := false, code := 5 }, { g := true, code := 9 }, 0, false, 0x3ff, 0, { State.reset with hearth := State.reset.hearth.set 4 ({ State.reset.hearth[4] with st := .running, rep := [0xca, 0x50] }) }, ?_⟩,
    ⟨5, [0xf8, 0x1], { State.reset with hearth := State.reset.hearth.set 5 ({ State.reset.hearth[5] with st := .running, rep := [0xf8, 0x1] }) }, { pre := { rep := .once, wide := false, page := none, atom := false }, op := .ret, form := .none, len := 2 }, { State.reset with hearth := State.reset.hearth.set 5 ({ State.reset.hearth[5] with st := .running, rep := [0xf8, 0x1] }) }, ?_⟩⟩ <;> (try dsimp only) <;> (try refine ⟨⟨rfl, rfl, rfl, rfl, rfl⟩, ?_⟩) <;>
    and_intros <;> first | decide +kernel | rfl

theorem witness_HearthSystemAndFlues :
  (∃ (h : HearthId) (l : List Byte) (u : State) (i : HInstr) (s : State),
      (s.hearthAt h l u i) ∧
      (i.op ∈ [HOp.nop, .flat, .wind, .ei, .di])) ∧
  (∃ (h : HearthId) (l : List Byte) (u : State) (i : HInstr) (s : State),
      (s.hearthAt h l u i) ∧
      (i.op = .rett)) ∧
  (∃ (h : HearthId) (l : List Byte) (u : State) (i : HInstr) (v : Word) (s : State),
      (s.hearthAt h l u i) ∧
      (i.op = .trap) ∧
      (i.form = .imm v)) ∧
  (∃ (h : HearthId) (l : List Byte) (u : State) (i : HInstr) (s : State),
      (s.hearthAt h l u i) ∧
      (i.op = .tend)) ∧
  (∃ (h : HearthId) (l : List Byte) (u : State) (i : HInstr) (a : Reg) (b : Reg) (s : State),
      (s.hearthAt h l u i) ∧
      (i.op = .post ∨ i.op = .postw) ∧
      (i.form = .rr a b) ∧
      let x := u.hearth[h];
      let f := Fin.ofNat 64 (fld (x.get b) 0 6);
      (u.isSender f.val (hearthMaster h) = true) ∧
      (u.flue[f].full = false)) ∧
  (∃ (h : HearthId) (l : List Byte) (u : State) (i : HInstr) (a : Reg) (b : Reg) (s : State),
      (s.hearthAt h l u i) ∧
      (i.op = .post ∨ i.op = .postw) ∧
      (i.form = .rr a b) ∧
      let x := u.hearth[h];
      let f := Fin.ofNat 64 (fld (x.get b) 0 6);
      (u.isSender f.val (hearthMaster h) = true) ∧
      (u.flue[f].full = true)) ∧
  (∃ (h : HearthId) (l : List Byte) (u : State) (i : HInstr) (a : Reg) (b : Reg) (s : State),
      (s.hearthAt h l u i) ∧
      (i.op = .post ∨ i.op = .postw) ∧
      (i.form = .rr a b) ∧
      (u.isSender (fld (u.hearth[h].get b) 0 6) (hearthMaster h) = false)) ∧
  (∃ (h : HearthId) (l : List Byte) (u : State) (i : HInstr) (a : Reg) (b : Reg) (s : State),
      (s.on) ∧
      (s.hearth[h].stall = some .postw) ∧
      let s0 := { s with hearth := s.hearth.set h { s.hearth[h] with stall := none } };
      (s0.hearthAt h l u i) ∧
      (i.op = .postw) ∧
      (i.form = .rr a b) ∧
      let x := u.hearth[h];
      let f := Fin.ofNat 64 (fld (x.get b) 0 6);
      (u.isSender f.val (hearthMaster h) = true) ∧
      (u.flue[f].full = false)) ∧
  (∃ (h : HearthId) (l : List Byte) (u : State) (i : HInstr) (a : Reg) (s : State),
      (s.hearthAt h l u i) ∧
      (i.op = .waitdb) ∧
      (i.form = .one a)) ∧
  (∃ (h : HearthId) (l : List Byte) (u : State) (i : HInstr) (a : Reg) (f : Fin 64) (s : State),
      (s.on) ∧
      (s.hearth[h].stall = some .waitdb) ∧
      let s0 := { s with hearth := s.hearth.set h { s.hearth[h] with stall := none } };
      (s0.hearthAt h l u i) ∧
      (i.op = .waitdb) ∧
      (i.form = .one a) ∧
      (u.flueReady h f = true) ∧
      ((∀ g : Fin 64, g < f → u.flueReady h g = false))) := by
  refine ⟨⟨5, [0xf8, 0], { State.reset with hearth := State.reset.hearth.set 5 ({ State.reset.hearth[5] with st := .running, rep := [0xf8, 0] }) }, { pre := { rep := .once, wide := false, page := none, atom := false }, op := .nop, form := .none, len := 2 }, { State.reset with hearth := State.reset.hearth.set 5 ({ State.reset.hearth[5] with st := .running, rep := [0xf8, 0] }) }, ?_⟩,
    ⟨5, [0xf8, 0x3], { State.reset with hearth := State.reset.hearth.set 5 ({ State.reset.hearth[5] with st := .running, fl := 0x0200, rep := [0xf8, 0x3] }) }, { pre := { rep := .once, wide := false, page := none, atom := false }, op := .rett, form := .none, len := 2 }, { State.reset with hearth := State.reset.hearth.set 5 ({ State.reset.hearth[5] with st := .running, fl := 0x0200, rep := [0xf8, 0x3] }) }, ?_⟩,
    ⟨5, [0xf9, 0x2e], { State.reset with hearth := State.reset.hearth.set 5 ({ State.reset.hearth[5] with st := .running, rep := [0xf9, 0x2e] }) }, { pre := { rep := .once, wide := false, page := none, atom := false }, op := .trap, form := .imm 0x2e, len := 2 }, 0x2e, { State.reset with hearth := State.reset.hearth.set 5 ({ State.reset.hearth[5] with st := .running, rep := [0xf9, 0x2e] }) }, ?_⟩,
    ⟨5, [0xf8, 0x4], { State.reset with hearth := State.reset.hearth.set 5 ({ State.reset.hearth[5] with st := .running, rep := [0xf8, 0x4] }) }, { pre := { rep := .once, wide := false, page := none, atom := false }, op := .tend, form := .none, len := 2 }, { State.reset with hearth := State.reset.hearth.set 5 ({ State.reset.hearth[5] with st := .running, rep := [0xf8, 0x4] }) }, ?_⟩,
    ⟨5, [0xfa, 0x25], { State.reset with hearth := State.reset.hearth.set 5 ({ State.reset.hearth[5] with st := .running, rep := [0xfa, 0x25] }), regs := [(851968, 0x405)] }, { pre := { rep := .once, wide := false, page := none, atom := false }, op := .post, form := .rr { g := false, code := 2 } { g := false, code := 5 }, len := 2 }, { g := false, code := 2 }, { g := false, code := 5 }, { State.reset with hearth := State.reset.hearth.set 5 ({ State.reset.hearth[5] with st := .running, rep := [0xfa, 0x25] }), regs := [(851968, 0x405)] }, ?_⟩,
    ⟨5, [0xfa, 0x25], { State.reset with hearth := State.reset.hearth.set 5 { State.reset.hearth[5] with st := .running, rep := [0xfa, 0x25] }, regs := [(0xD0000, 0x405)], flue := State.reset.flue.set 0 { State.reset.flue[0] with full := true } }, { pre := ⟨.once, false, none, false⟩, op := .post, form := .rr ⟨false, 2⟩ ⟨false, 5⟩, len := 2 }, ⟨false, 2⟩, ⟨false, 5⟩, { State.reset with hearth := State.reset.hearth.set 5 { State.reset.hearth[5] with st := .running, rep := [0xfa, 0x25] }, regs := [(0xD0000, 0x405)], flue := State.reset.flue.set 0 { State.reset.flue[0] with full := true } }, ?_⟩,
    ⟨5, [0xfa, 0x25], { State.reset with hearth := State.reset.hearth.set 5 ({ State.reset.hearth[5] with st := .running, rep := [0xfa, 0x25] }) }, { pre := { rep := .once, wide := false, page := none, atom := false }, op := .post, form := .rr { g := false, code := 2 } { g := false, code := 5 }, len := 2 }, { g := false, code := 2 }, { g := false, code := 5 }, { State.reset with hearth := State.reset.hearth.set 5 ({ State.reset.hearth[5] with st := .running, rep := [0xfa, 0x25] }) }, ?_⟩,
    ⟨5, [0xfb, 0x25], { State.reset with hearth := State.reset.hearth.set 5 { State.reset.hearth[5] with st := .running, rep := [0xfb, 0x25] }, regs := [(0xD0000, 0x405)] }, { pre := ⟨.once, false, none, false⟩, op := .postw, form := .rr ⟨false, 2⟩ ⟨false, 5⟩, len := 2 }, ⟨false, 2⟩, ⟨false, 5⟩, { State.reset with hearth := State.reset.hearth.set 5 { State.reset.hearth[5] with st := .running, rep := [0xfb, 0x25], stall := some .postw }, regs := [(0xD0000, 0x405)] }, ?_⟩,
    ⟨5, [0xfc, 0x90], { State.reset with hearth := State.reset.hearth.set 5 ({ State.reset.hearth[5] with st := .running, rep := [0xfc, 0x90] }) }, { pre := { rep := .once, wide := false, page := none, atom := false }, op := .waitdb, form := .one { g := false, code := 9 }, len := 2 }, { g := false, code := 9 }, { State.reset with hearth := State.reset.hearth.set 5 ({ State.reset.hearth[5] with st := .running, rep := [0xfc, 0x90] }) }, ?_⟩,
    ⟨5, [0xfc, 0x90], { State.reset with hearth := State.reset.hearth.set 5 { State.reset.hearth[5] with st := .running, rep := [0xfc, 0x90] }, regs := [(0xD0000, 0x405), (0xD0450, 1)] }, { pre := ⟨.once, false, none, false⟩, op := .waitdb, form := .one ⟨false, 9⟩, len := 2 }, ⟨false, 9⟩, 0, { State.reset with hearth := State.reset.hearth.set 5 { State.reset.hearth[5] with st := .running, rep := [0xfc, 0x90], stall := some .waitdb }, regs := [(0xD0000, 0x405), (0xD0450, 1)] }, ?_⟩⟩ <;> (try dsimp only) <;> (try refine ⟨⟨rfl, rfl, rfl, rfl, rfl⟩, ?_⟩) <;>
    and_intros <;> first | decide +kernel | rfl

theorem witness_CustomerInstructions :
  (∃ (h : HearthId) (l : List Byte) (u : State) (i : HInstr) (k : Nat) (a : Reg) (b : Reg) (imm : Option Word) (s : State),
      (s.hearthAt h l u i) ∧
      (i.iterates u.hearth[h]) ∧
      (i.form = .customer k (some a) (some b) imm) ∧
      let x := u.hearth[h];
      let n := fld (u.reg (hrtOff h.val + 0x100 + 2 * k)) 0 9;
      let w0 := Sparse.get 0 x.uops (3 * n);
      let op := fld w0 0 5;
      ((∀ j, j < 3 → Sparse.get 0 x.uopEcc (3 * n + j) ≠ 2)) ∧
      (w0 &&& 0xFFE0 = 0x8800) ∧
      (op = 1 ∨ op = 5 ∨ op = 24 ∨ op = 28)) ∧
  (∃ (h : HearthId) (l : List Byte) (u : State) (v : State) (i : HInstr) (k : Nat) (m : Nat) (a : Reg) (b : Reg) (imm : Word) (s : State),
      (s.hearthAt h l u i) ∧
      (i.iterates u.hearth[h]) ∧
      (i.form = .customer k (some a) (some b) (some imm)) ∧
      let x := u.hearth[h];
      (fld (u.reg (hrtOff h.val + 0x100 + 2 * k)) 0 9 = 0x180) ∧
      ((∀ j, j < 9 → Sparse.get 0 x.uops (0x480 + j) = [0x0170, 0, 0, 0x0394, 0x0073, 0, 0xD41B, 0, 0].getD j 0)) ∧
      ((∀ j, j < 9 → Sparse.get 0 x.uopEcc (0x480 + j) ≠ 2)) ∧
      (v.hearth = u.hearth) ∧
      (u.readMem h false (x.pageOf i.pre x.pdata) (x.get b).toNat = (v, .ok m))) ∧
  (∃ (h : HearthId) (l : List Byte) (u : State) (i : HInstr) (k : Nat) (b : Option Reg) (imm : Option Word) (s : State),
      (s.hearthAt h l u i) ∧
      (i.iterates u.hearth[h]) ∧
      (i.form = .customer k none b imm) ∧
      let x := u.hearth[h];
      let n := fld (u.reg (hrtOff h.val + 0x100 + 2 * k)) 0 9;
      let w0 := Sparse.get 0 x.uops (3 * n);
      (fld w0 0 5 = 0) ∧
      (fld w0 8 3 = 0 ∨ fld w0 5 3 = 0)) ∧
  (∃ (h : HearthId) (l : List Byte) (u : State) (i : HInstr) (k : Nat) (a : Option Reg) (b : Option Reg) (imm : Option Word) (s : State),
      (s.hearthAt h l u i) ∧
      (i.iterates u.hearth[h]) ∧
      (i.form = .customer k a b imm) ∧
      let x := u.hearth[h];
      (fld (u.reg (hrtOff h.val + 0x100 + 2 * k)) 0 9 = 511) ∧
      (Sparse.get 0 x.uops 1533 = 0x0752)) := by
  refine ⟨⟨11, [0xe1, 0x90], { State.reset with hearth := State.reset.hearth.set 11 ({ State.reset.hearth[11] with st := .running, uops := [(15, 0x8801)], rep := [0xe1, 0x90] }), regs := [(595714, 0xf205)] }, { pre := { rep := .once, wide := false, page := none, atom := false }, op := .custom, form := .customer 1 (some { g := false, code := 9 }) (some { g := true, code := 0 }) none, len := 2 }, 1, { g := false, code := 9 }, { g := true, code := 0 }, none, { State.reset with hearth := State.reset.hearth.set 11 ({ State.reset.hearth[11] with st := .running, uops := [(15, 0x8801)], rep := [0xe1, 0x90] }), regs := [(595714, 0xf205)] }, ?_⟩,
    ⟨5, [0xe6, 0x30, 0x62, 0x9a], { State.reset with hearth := State.reset.hearth.set 5 ({ State.reset.hearth[5] with st := .running, uops := [(1152, 0x170), (1155, 0x394), (1156, 0x73), (1158, 0xd41b)], rep := [0xe6, 0x30, 0x62, 0x9a] }), regs := [(592652, 0xe580), (786432, 0x5)] }, { State.reset with hearth := State.reset.hearth.set 5 ({ State.reset.hearth[5] with st := .running, uops := [(1152, 0x170), (1155, 0x394), (1156, 0x73), (1158, 0xd41b)], rep := [0xe6, 0x30, 0x62, 0x9a] }), regs := [(592652, 0xe580), (786432, 0x5)] }, { pre := { rep := .once, wide := false, page := none, atom := false }, op := .custom, form := .customer 6 (some { g := false, code := 3 }) (some { g := false, code := 0 }) (some 0x9a62), len := 4 }, 6, 0, { g := false, code := 3 }, { g := false, code := 0 }, 0x9a62, { State.reset with hearth := State.reset.hearth.set 5 ({ State.reset.hearth[5] with st := .running, uops := [(1152, 0x170), (1155, 0x394), (1156, 0x73), (1158, 0xd41b)], rep := [0xe6, 0x30, 0x62, 0x9a] }), regs := [(592652, 0xe580), (786432, 0x5)] }, ?_⟩,
    ⟨5, [0xf0, 0xe3], { State.reset with hearth := State.reset.hearth.set 5 ({ State.reset.hearth[5] with st := .running, cnt := 0x0001, rep := [0xf0, 0xe3] }), regs := [(592646, 0xe005)] }, { pre := { rep := .rpt, wide := false, page := none, atom := false }, op := .custom, form := .customer 3 none none none, len := 2 }, 3, none, none, { State.reset with hearth := State.reset.hearth.set 5 ({ State.reset.hearth[5] with st := .running, cnt := 0x0001, rep := [0xf0, 0xe3] }), regs := [(592646, 0xe005)] }, ?_⟩,
    ⟨5, [0xe1, 0x40], { State.reset with hearth := State.reset.hearth.set 5 ({ State.reset.hearth[5] with st := .running, uops := [(1533, 0x752)], rep := [0xe1, 0x40] }), regs := [(592642, 0xe3ff)] }, { pre := { rep := .once, wide := false, page := none, atom := false }, op := .custom, form := .customer 1 (some { g := false, code := 4 }) (some { g := false, code := 0 }) none, len := 2 }, 1, (some { g := false, code := 4 }), (some { g := false, code := 0 }), none, { State.reset with hearth := State.reset.hearth.set 5 ({ State.reset.hearth[5] with st := .running, uops := [(1533, 0x752)], rep := [0xe1, 0x40] }), regs := [(592642, 0xe3ff)] }, ?_⟩⟩ <;> (try dsimp only) <;> (try refine ⟨⟨rfl, rfl, rfl, rfl, rfl⟩, ?_⟩) <;>
    and_intros <;> first | decide +kernel | rfl

theorem witness_HearthTraps :
  (∃ (h : HearthId) (l : List Byte) (u : State) (s : State),
      (s.on) ∧
      (s.hearth[h].st = .running) ∧
      (s.hearth[h].stall = none) ∧
      (s.fetchInstr h = (u, .ok l)) ∧
      (u.hdec h l = .error .illegal)) ∧
  (∃ (h : HearthId) (l : List Byte) (u : State) (s : State),
      (s.on) ∧
      (s.hearth[h].st = .running) ∧
      (s.hearth[h].stall = none) ∧
      (s.fetchInstr h = (u, .ok l)) ∧
      (u.hdec h l = .error .illpfx)) ∧
  (∃ (h : HearthId) (s : State),
      (s.on) ∧
      (s.hearth[h].st = .running) ∧
      (s.hearth[h].stall = none) ∧
      (s.hearth[h].rep = []) ∧
      let x := s.hearth[h];
      let page := x.pcode.toNat;
      (0x100 ≤ page) ∧
      (page ≠ 0x3FF ∨ 0x4000 ≤ x.pc.toNat)) ∧
  (∃ (h : HearthId) (v : Nat) (_info : Nat) (_pc : Word) (s : State),
      (bit s.hearth[h].fl 9 = false ∨ v = 7)) ∧
  (∃ (h : HearthId) (v : Nat) (_info : Nat) (_pc : Word) (s : State),
      (bit s.hearth[h].fl 9 = true) ∧
      (v ≠ 7)) := by
  refine ⟨⟨5, [0xfd], { State.reset with hearth := State.reset.hearth.set 5 { State.reset.hearth[5] with st := .running, rep := [0xfd] } }, { State.reset with hearth := State.reset.hearth.set 5 { State.reset.hearth[5] with st := .running, rep := [0xfd] } }, ?_⟩,
    ⟨5, [0xf3, 0xf3, 0, 0x12], { State.reset with hearth := State.reset.hearth.set 5 ({ State.reset.hearth[5] with st := .running, rep := [0xf3, 0xf3, 0, 0x12] }) }, { State.reset with hearth := State.reset.hearth.set 5 ({ State.reset.hearth[5] with st := .running, rep := [0xf3, 0xf3, 0, 0x12] }) }, ?_⟩,
    ⟨5, { State.reset with hearth := State.reset.hearth.set 5 ({ State.reset.hearth[5] with st := .running, pc := 0x4000 }) }, ?_⟩,
    ⟨0, 0, 0, 0, State.reset, ?_⟩,
    ⟨5, 0, 0, 0, { State.reset with hearth := State.reset.hearth.set 5 { State.reset.hearth[5] with fl := 0x200 } }, ?_⟩⟩ <;> (try dsimp only) <;> and_intros <;> decide +kernel

theorem witness_EncodersGearsAndSteps :
  (∃ (x : AxisId) (_a : Bool) (_b : Bool) (_idx : Bool) (s : State),
      (s.on) ∧
      (s.mastered x = [])) ∧
  (∃ (x : AxisId) (y : AxisId) (a : Bool) (b : Bool) (g : Fin 6) (p : Int) (s : State),
      (s.on) ∧
      (s.mastered x = [g]) ∧
      (y ≠ x) ∧
      (s.mot.groups[g].armedA = none) ∧
      (s.mot.groups[g].armedB = none) ∧
      (s.mot.groups[g].p0 = [(y.val, some p)]) ∧
      (s.mot.axes[y].mode = 3) ∧
      (s.mfld (motOff y.val) 6 3 = g.val) ∧
      (s.mot.axes[y].frozen = false) ∧
      let o := s.mot.axes[x];
      (a ≠ o.filtA) ∧
      (b = o.filtB)) ∧
  (∃ (x : AxisId) (y : AxisId) (a : Bool) (b : Bool) (g : Fin 6) (p : Int) (e : Sched) (s : State),
      (s.on) ∧
      (s.mastered x = [g]) ∧
      (y ≠ x) ∧
      (s.mot.groups[g].armedA = some e) ∧
      (s.mot.groups[g].armedB = none) ∧
      (s.mot.groups[g].p0 = [(y.val, some p)]) ∧
      (s.mot.axes[y].mode = 3) ∧
      (s.mfld (motOff y.val) 6 3 = g.val) ∧
      (s.mot.axes[y].frozen = false) ∧
      (0 < e.den) ∧
      let o := s.mot.axes[x];
      (a ≠ o.filtA) ∧
      (b = o.filtB) ∧
      (e.sw = (if a != b then o.enc + 1 else o.enc - 1))) ∧
  (∃ (x : AxisId) (_dir : Bool) (s : State),
      (s.on) ∧
      (s.mot.axes[x].mode = 2) ∧
      (s.mot.axes[x].stopped = .none)) ∧
  (∃ (x : AxisId) (_dir : Bool) (s : State),
      (s.on) ∧
      (s.mot.axes[x].mode ≠ 2 ∨ s.mot.axes[x].stopped ≠ .none)) ∧
  (∃ (x : AxisId) (due : Nat) (up : Bool) (r : List (Nat × Bool)) (s : State),
      (s.on) ∧
      (s.mot.axes[x].steps = (due, up) :: r) ∧
      ((∀ e ∈ r, e.1 ≠ due))) ∧
  (∃ (x : AxisId) (s : State),
      (s.on) ∧
      (s.mot.axes[x].mDone < s.mot.axes[x].mCount)) ∧
  (∃ (_c : Fin 4) (_sample : BitVec 12) (s : State),
      (s.on) ∧
      (bit (s.reg 0xA0F00) 0 = true)) := by
  refine ⟨⟨5, false, false, false, State.reset, ?_⟩,
    ⟨5, 7, true, false, 0, 0, { State.reset with mot := { State.reset.mot with axes := State.reset.mot.axes.set 7 ({ State.reset.mot.axes[7] with mode := 3 }), groups := State.reset.mot.groups.set 0 ({ State.reset.mot.groups[0] with engaged := true, p0 := [(7, some 0)] }), par := [(658432, 0x5)] } }, ?_⟩,
    ⟨5, 7, true, false, 0, 0, { sw := 0x1, num := 17219, den := 61647 }, { State.reset with mot := { State.reset.mot with axes := State.reset.mot.axes.set 7 ({ State.reset.mot.axes[7] with mode := 3 }), groups := State.reset.mot.groups.set 0 ({ State.reset.mot.groups[0] with engaged := true, p0 := [(7, some 0)], armedA := (some { sw := 0x1, num := 17219, den := 61647 }) }), par := [(658432, 0x5)] } }, ?_⟩,
    ⟨5, false, { State.reset with mot := { State.reset.mot with axes := State.reset.mot.axes.set 5 ({ State.reset.mot.axes[5] with mode := 2 }) } }, ?_⟩,
    ⟨5, false, State.reset, ?_⟩,
    ⟨5, 4, true, [], { State.reset with mot := { State.reset.mot with axes := State.reset.mot.axes.set 5 ({ State.reset.mot.axes[5] with steps := [(4, true)] }) } }, ?_⟩,
    ⟨5, { State.reset with mot := { State.reset.mot with axes := State.reset.mot.axes.set 5 ({ State.reset.mot.axes[5] with mCount := 1 }) } }, ?_⟩,
    ⟨0, 0, { State.reset with regs := [(659200, 0x1)] }, ?_⟩⟩ <;> (try dsimp only) <;> and_intros <;> decide +kernel

theorem witness_MotionUpdates :
  (∃ (s : State),
      (s.on) ∧
      (bit (s.reg 0xA0F00) 0 = true) ∧
      (s.mot.strike = none ∨ (s.mot.count ≤ s.mot.update ∧ s.tick.running = false))) ∧
  (∃ (b : Nat) (s : State),
      (s.on) ∧
      (bit (s.reg 0xA0F00) 0 = true) ∧
      (s.mot.strike = some b) ∧
      (s.mot.update < s.mot.count)) ∧
  (∃ (x : AxisId) (s : State),
      (s.on) ∧
      (bit (s.reg 0xA0F00) 0 = true) ∧
      (s.mot.strike = none) ∧
      (s.mot.axes[x].mode = 1) ∧
      (s.mot.axes[x].oc = false) ∧
      (s.mot.axes[x].frozen = false) ∧
      ((∀ z : AxisId, s.mot.axes[z].spNext = none)) ∧
      ((∀ g : Fin 6, s.mot.groups[g].spNext = none))) ∧
  (∃ (_x : AxisId) (s : State),
      (s.on) ∧
      (bit (s.reg 0xA0F00) 0 = true) ∧
      (s.mot.strike = none) ∧
      (s.mot.spBeat = none)) ∧
  (∃ (x : AxisId) (b : Nat) (new : AxisSp) (s : State),
      (s.on) ∧
      (bit (s.reg 0xA0F00) 0 = true) ∧
      (s.mot.strike = none) ∧
      (s.mot.spBeat = some b) ∧
      (b ≤ s.time.beat) ∧
      (s.mot.axes[x].spNext = some new) ∧
      (new.clr = false)) ∧
  (∃ (x : AxisId) (b : Nat) (g : Fin 6) (new : GroupSp) (s : State),
      (s.on) ∧
      (bit (s.reg 0xA0F00) 0 = true) ∧
      (s.mot.strike = none) ∧
      (s.mot.spBeat = some b) ∧
      (b ≤ s.time.beat) ∧
      (s.mot.groups[g].spNext = some new) ∧
      (new.en = true) ∧
      (s.mot.groups[g].sp.en = false) ∧
      (new.arm = false) ∧
      (new.clr = false) ∧
      (fld (s.reg (motGrp g.val)) 0 4 = x.val) ∧
      ((∀ z : AxisId, s.mot.axes[z].spNext = none))) := by
  refine ⟨⟨{ State.reset with regs := [(659200, 0x1)] }, ?_⟩,
    ⟨3, { State.reset with mot := { State.reset.mot with strike := (some 3), count := 1 }, regs := [(659200, 0x1)] }, ?_⟩,
    ⟨5, { State.reset with mot := { State.reset.mot with axes := State.reset.mot.axes.set 5 ({ State.reset.mot.axes[5] with mode := 1 }) }, regs := [(659200, 0x1)] }, ?_⟩,
    ⟨5, { State.reset with regs := [(659200, 0x1)] }, ?_⟩,
    ⟨11, 0, { mode := 0, clr := false, target := 1, vmax := 0, acc := 14, dec := 0 }, { State.reset with mot := { State.reset.mot with axes := State.reset.mot.axes.set 11 ({ State.reset.mot.axes[11] with spNext := (some { mode := 0, clr := false, target := 1, vmax := 0, acc := 14, dec := 0 }) }), spBeat := (some 0) }, regs := [(659200, 0x1)] }, ?_⟩,
    ⟨11, 0, 2, { en := true, arm := false, clr := false, bEn := true, num := -14, den := 3, a := { sw := 0x40000000, num := 0, den := 7 }, b := { sw := 0xffffffff, num := 1, den := 13 } }, { State.reset with mot := { State.reset.mot with groups := State.reset.mot.groups.set 2 ({ State.reset.mot.groups[2] with spNext := (some { en := true, arm := false, clr := false, bEn := true, num := -14, den := 3, a := { sw := 0x40000000, num := 0, den := 7 }, b := { sw := 0xffffffff, num := 1, den := 13 } }) }), spBeat := (some 0) }, regs := [(658496, 0xfb), (659200, 0x1)] }, ?_⟩⟩ <;> (try dsimp only) <;> and_intros <;> decide +kernel

theorem witness_FieldInputs :
  (∃ (i : Fin 32) (level : Bool) (s : State),
      (s.on) ∧
      (s.fio.lost = false) ∧
      (s.fio.inputs[i].level ≠ level) ∧
      (s.fio.loBeat ≠ some s.time.beat) ∧
      (s.fio.hiBeat ≠ some s.time.beat)) ∧
  (∃ (i : Fin 32) (level : Bool) (s : State),
      (s.on) ∧
      (s.fio.lost = true ∨ s.fio.inputs[i].level = level)) ∧
  (∃ (i : Fin 32) (level : Bool) (a : Nat) (s : State),
      (s.on) ∧
      (s.fio.lost = false) ∧
      (s.fio.inputs[i].level ≠ level) ∧
      (i.val < 16) ∧
      (s.fio.loBeat ≠ some s.time.beat) ∧
      (s.fio.hiBeat ≠ some s.time.beat) ∧
      (bit (s.reg 0xB0000) 0 = true) ∧
      (s.fio.inSpan = true) ∧
      (s.imgBase s.fioImage s.jnr.side = a) ∧
      (a % 2 = 0) ∧
      (s.bankServes 21 .write a 2)) ∧
  (∃ (m : Master) (e : FEdge) (r : List FEdge) (s : State),
      (s.reads m 0xB0032) ∧
      (s.fio.fifo = e :: r)) ∧
  (∃ (m : Master) (s : State),
      (s.reads m 0xB0032) ∧
      (s.fio.fifo = [])) ∧
  (∃ (i : Fin 32) (s : State),
      (s.on) ∧
      (s.fio.lost = false) ∧
      (bit (Sparse.get 0 s.fio.cfg (0xB0100 + 2 * i.val)) 10 = true)) ∧
  (∃ (i : Fin 32) (_rb : Word) (s : State),
      (s.on) ∧
      (s.fio.lost = false) ∧
      (bit (Sparse.get 0 s.fio.cfg (0xB0100 + 2 * i.val)) 7 = true)) := by
  refine ⟨⟨0, true, State.reset, ?_⟩,
    ⟨0, false, State.reset, ?_⟩,
    ⟨0, true, 0, { State.reset with fio := { State.reset.fio with inSpan := true }, regs := [(720896, 0x1), (786432, 0x15)] }, ?_⟩,
    ⟨15, { input := 17, rising := true, tod := 0, beat := 1 }, [], { State.reset with fio := { State.reset.fio with fifo := [{ input := 17, rising := true, tod := 0, beat := 1 }] } }, ?_⟩,
    ⟨15, State.reset, ?_⟩,
    ⟨1, { State.reset with fio := { State.reset.fio with cfg := [(721154, 0xceb8)] } }, ?_⟩,
    ⟨1, 0, { State.reset with fio := { State.reset.fio with cfg := [(721154, 0x9581)] } }, ?_⟩⟩ <;> (try dsimp only) <;> and_intros <;> decide +kernel

theorem witness_FieldOutputs :
  (∃ (j : Fin 16) (s : State),
      (s.on) ∧
      (s.fio.lost = false) ∧
      (s.fio.outputs[j].on = true) ∧
      (s.fio.outputs[j].changed = 0 ∨ s.fio.outputs[j].changed + 2048 ≤ s.time.beat)) ∧
  (∃ (j : Fin 16) (s : State),
      (s.on) ∧
      (s.fio.lost = false) ∧
      (s.fio.outputs[j].on = true) ∧
      (s.fio.outputs[j].changed = 0 ∨ s.fio.outputs[j].changed + 2048 ≤ s.time.beat)) ∧
  (∃ (j : Fin 16) (s : State),
      (s.on) ∧
      (s.fio.outputs[j].changed ≠ 0) ∧
      (s.fio.outputs[j].changed < s.time.beat) ∧
      (s.time.beat < s.fio.outputs[j].changed + 2048)) ∧
  (∃ (j : Fin 16) (s : State),
      (s.on) ∧
      (s.fio.lost = false) ∧
      (s.fio.outputs[j].changed + 2048 ≤ s.time.beat) ∧
      (s.fio.outputs[j].on = true) ∧
      (fld (Sparse.get 0 s.fio.cfg (0xB0140 + 2 * j.val)) 3 2 ≠ 0)) ∧
  (∃ (j : Fin 16) (s : State),
      (s.on) ∧
      (s.fio.lost = false) ∧
      (s.fio.outputs[j].changed + 2048 ≤ s.time.beat) ∧
      (s.fio.outputs[j].on = false) ∧
      (bit (Sparse.get 0 s.fio.cfg (0xB0140 + 2 * j.val)) 2 = true)) ∧
  (∃ (j : Fin 16) (s : State),
      (s.on) ∧
      (s.fio.lost = false) ∧
      (s.fio.outputs[j].changed + 2048 ≤ s.time.beat) ∧
      (s.fio.outputs[j].on = false)) ∧
  (∃ (s : State),
      (s.on) ∧
      (s.fio.lost = false) ∧
      (s.fio.dieOt = false)) ∧
  (∃ (s : State),
      (s.on) ∧
      (s.fio.lost = false) ∧
      (s.fio.dieOt = true)) ∧
  (∃ (_rank : Fin 16) (c : Nat) (ranks : List Nat) (s : State),
      (s.on) ∧
      (s.fio.order = some (c, ranks))) ∧
  (∃ (m : Master) (_v : Word) (_gone : Word) (s : State),
      (s.writes m 0xB0022)) ∧
  (∃ (m : Master) (_v : Word) (s : State),
      (s.writes m 0xB0024)) ∧
  (∃ (m : Master) (_en : Bool) (s : State),
      (s.writes m 0xB0000)) := by
  refine ⟨⟨1, { State.reset with fio := { State.reset.fio with outputs := State.reset.fio.outputs.set 1 ({ State.reset.fio.outputs[1] with on := true }) } }, ?_⟩,
    ⟨1, { State.reset with fio := { State.reset.fio with outputs := State.reset.fio.outputs.set 1 ({ State.reset.fio.outputs[1] with on := true }) } }, ?_⟩,
    ⟨5, { State.reset with time := { State.reset.time with beat := 4250 }, fio := { State.reset.fio with outputs := State.reset.fio.outputs.set 5 ({ State.reset.fio.outputs[5] with changed := 4249 }) } }, ?_⟩,
    ⟨5, { State.reset with time := { State.reset.time with beat := 2048 }, fio := { State.reset.fio with cfg := [(721226, 0xff)], outputs := State.reset.fio.outputs.set 5 ({ State.reset.fio.outputs[5] with on := true }) } }, ?_⟩,
    ⟨5, { State.reset with time := { State.reset.time with beat := 2048 }, fio := { State.reset.fio with cfg := [(721226, 0xff)] } }, ?_⟩,
    ⟨0, { State.reset with time := { State.reset.time with beat := 2048 } }, ?_⟩,
    ⟨State.reset, ?_⟩,
    ⟨{ State.reset with fio := { State.reset.fio with dieOt := true } }, ?_⟩,
    ⟨0, 4, [], { State.reset with fio := { State.reset.fio with order := (some (4, [])) } }, ?_⟩,
    ⟨15, 0, 0, State.reset, ?_⟩,
    ⟨15, 0, State.reset, ?_⟩,
    ⟨15, false, State.reset, ?_⟩⟩ <;> (try dsimp only) <;> and_intros <;> decide +kernel

theorem witness_FieldSupplyAndLink :
  (∃ (_mv : Nat) (s : State),
      (s.on) ∧
      (s.fio.lost = false)) ∧
  (∃ (s : State),
      (s.on) ∧
      (s.fio.lost = false)) ∧
  (∃ (s : State),
      (s.on) ∧
      (s.fio.lost = false)) ∧
  (∃ (s : State),
      (s.on)) ∧
  (∃ (_mv : Nat) (s : State),
      (s.on) ∧
      (s.fio.lost = true)) := by
  refine ⟨⟨0, State.reset, ?_⟩,
    ⟨State.reset, ?_⟩,
    ⟨State.reset, ?_⟩,
    ⟨State.reset, ?_⟩,
    ⟨0, { State.reset with fio := { State.reset.fio with lost := true } }, ?_⟩⟩ <;> (try dsimp only) <;> and_intros <;> decide +kernel

theorem witness_BankAccesses :
  (∃ (m : Master) (a : Nat) (s : State),
      (a < 0x3000000) ∧
      let x := a % 0x1000000 / 2 * 2;
      (s.bankServes m .read x 2)) ∧
  (∃ (m : Master) (a : Nat) (_sel : ByteSel) (_v : Word) (s : State),
      (a < 0x3000000) ∧
      let x := a % 0x1000000 / 2 * 2;
      let k := if a < 0x1000000 then BKind.write else .aliased;
      (s.bankServes m k x 2)) ∧
  (∃ (m : Master) (a : Nat) (s : State),
      (a < 0x1000000) ∧
      (a % 2 = 0) ∧
      (s.bankPermits m (bankIdx a) .read = true) ∧
      (s.bank.banks[bankIdx a].asleep = false) ∧
      (Sparse.get 0 s.bank.ecc a = 2)) ∧
  (∃ (m : Master) (o : Master) (a : Nat) (_v : Word) (old : Word) (w : Word) (s : State),
      (a < 0x1000000) ∧
      (a % 2 = 0) ∧
      ((m.val < 12 ∧ 12 ≤ o.val) ∨ (12 ≤ m.val ∧ o.val < 12)) ∧
      (s.bank.beatW = [{ beat := s.time.beat, addr := a, master := o, old := old }]) ∧
      (Sparse.get 0 s.bank.ecc a = 0) ∧
      (s.bankPermits m (bankIdx a) .aliased = true) ∧
      (s.bank.banks[bankIdx a].asleep = false) ∧
      (s.bankPermits m (bankIdx a) .read = true) ∧
      (Memory.word s.bank.mem a = w)) := by
  refine ⟨⟨15, 0, State.reset, ?_⟩,
    ⟨15, 0, ByteSel.low, 0, State.reset, ?_⟩,
    ⟨15, 4, { State.reset with bank := { State.reset.bank with ecc := [(4, 2)] } }, ?_⟩,
    ⟨15, 3, 0, 0, 0x979e, 0, { State.reset with bank := { State.reset.bank with beatW := [{ beat := 0, addr := 0, master := 3, old := 0x979e }] } }, ?_⟩⟩ <;> (try dsimp only) <;> and_intros <;> decide +kernel

theorem witness_BankControl :
  (∃ (m : Master) (b : Fin 64) (_v : Word) (s : State),
      (s.writes m (0xC0000 + 16 * b.val))) ∧
  (∃ (b : Fin 64) (new : Master) (m : Master) (s : State),
      (s.on) ∧
      (s.bank.banks[b].handover = some (new, m)) ∧
      (s.ownerWaits b = false) ∧
      ((∀ h : HearthId, s.hearth[h].stall ≠ some (.handover b))) ∧
      ((∀ n : Fin 4, s.host[n].queue = []))) ∧
  (∃ (m : Master) (b : Fin 64) (s : State),
      (s.writes m (0xC000A + 16 * b.val)) ∧
      (fld (s.reg (0xC0000 + 16 * b.val)) 0 5 = m.val ∨ s.isSup m = true)) ∧
  (∃ (b : Fin 64) (s : State),
      (s.on) ∧
      (s.bank.banks[b].asked = true)) ∧
  (∃ (m : Master) (b : Fin 64) (s : State),
      (s.writes m (0xC000A + 16 * b.val)) ∧
      (fld (s.reg (0xC0000 + 16 * b.val)) 0 5 = m.val ∨ s.isSup m = true)) ∧
  (∃ (b : Fin 64) (due : Nat) (s : State),
      (s.on) ∧
      (s.bank.banks[b].waking = some due) ∧
      ((∀ h : HearthId, ∀ k ∈ s.hearth[h].stall, k = .postw ∨ k = .waitdb)) ∧
      ((∀ n : Fin 4, s.host[n].waits = none))) ∧
  (∃ (b : Fin 64) (a : Nat) (r : List Nat) (s : State),
      (s.on) ∧
      (s.bank.writeback = a :: r) ∧
      (bankIdx a = b)) ∧
  (∃ (m : Master) (a : Nat) (_sel : ByteSel) (_v : Word) (s : State),
      (a < 0x3000000) ∧
      (s.bankPermits m (bankIdx (a % 0x1000000 / 2 * 2)) (if a < 0x1000000 then .write else .aliased) = false)) ∧
  (∃ (m : Master) (a : Nat) (s : State),
      (a < 0x1000000) ∧
      (a % 2 = 0) ∧
      (s.bankPermits m (bankIdx a) .read = true) ∧
      (s.bank.banks[bankIdx a].asleep = true) ∧
      (s.bank.banks[bankIdx a].waking = none)) := by
  refine ⟨⟨15, 0, 0, State.reset, ?_⟩,
    ⟨5, 6, 15, { State.reset with bank := { State.reset.bank with banks := State.reset.bank.banks.set 5 ({ State.reset.bank.banks[5] with handover := (some (6, 15)) }) } }, ?_⟩,
    ⟨15, 0, State.reset, ?_⟩,
    ⟨5, { State.reset with bank := { State.reset.bank with banks := State.reset.bank.banks.set 5 ({ State.reset.bank.banks[5] with asked := true }) } }, ?_⟩,
    ⟨15, 0, State.reset, ?_⟩,
    ⟨5, 24, { State.reset with bank := { State.reset.bank with banks := State.reset.bank.banks.set 5 ({ State.reset.bank.banks[5] with waking := (some 24) }) } }, ?_⟩,
    ⟨33, 8650760, [], { State.reset with bank := { State.reset.bank with writeback := [8650760] } }, ?_⟩,
    ⟨0, 0, .word, 0, State.reset, ?_⟩,
    ⟨15, 0, { State.reset with bank := { State.reset.bank with banks := State.reset.bank.banks.set 0 ({ State.reset.bank.banks[0] with asleep := true }) } }, ?_⟩⟩ <;> (try dsimp only) <;> and_intros <;> decide +kernel

theorem witness_HostRequests :
  (∃ (n : Fin 2) (a : Addr) (sels : List ByteSel) (s : State),
      (s.on) ∧
      (s.hostWorks (Fin.ofNat 4 n.val) = true) ∧
      (s.host[n.val].fenced = false) ∧
      (s.host[n.val].queue = []) ∧
      (s.host[n.val].waits = none) ∧
      (s.ownHandover (hostMaster (Fin.ofNat 4 n.val)) = false) ∧
      (sels ≠ []) ∧
      let b : Nat := a.toNat / 2 * 2;
      let m := hostMaster (Fin.ofNat 4 n.val);
      (b + 2 * sels.length ≤ 0x1000000) ∧
      (s.bankServes m .read b (2 * sels.length))) ∧
  (∃ (n : Fin 2) (a : Addr) (ws : List (ByteSel × Word)) (s : State),
      (s.on) ∧
      (s.hostWorks (Fin.ofNat 4 n.val) = true) ∧
      (s.host[n.val].fenced = false) ∧
      (s.host[n.val].queue = []) ∧
      (s.host[n.val].waits = none) ∧
      (s.ownHandover (hostMaster (Fin.ofNat 4 n.val)) = false) ∧
      let b : Nat := a.toNat / 2 * 2;
      let m := hostMaster (Fin.ofNat 4 n.val);
      (b + 2 * ws.length ≤ 0x1000000) ∧
      (s.bankServes m .write b (2 * ws.length))) ∧
  (∃ (n : Fin 2) (a : BitVec 32) (count : Nat) (s : State),
      (s.on) ∧
      (s.hostWorks (Fin.ofNat 4 (2 + n.val)) = true) ∧
      (s.host[2 + n.val].fenced = false) ∧
      (s.host[2 + n.val].queue = []) ∧
      (s.host[2 + n.val].waits = none) ∧
      (s.ownHandover (hostMaster (Fin.ofNat 4 (2 + n.val))) = false) ∧
      (0 < count) ∧
      (a.toNat % 2 = 0) ∧
      (a.toNat + 2 * count ≤ 0x1000000) ∧
      (s.bankServes (hostMaster (Fin.ofNat 4 (2 + n.val))) .read a.toNat (2 * count))) ∧
  (∃ (n : Fin 2) (a : BitVec 32) (ws : List Word) (s : State),
      (s.on) ∧
      (s.hostWorks (Fin.ofNat 4 (2 + n.val)) = true) ∧
      (s.host[2 + n.val].fenced = false) ∧
      (s.host[2 + n.val].queue = []) ∧
      (s.host[2 + n.val].waits = none) ∧
      (s.ownHandover (hostMaster (Fin.ofNat 4 (2 + n.val))) = false) ∧
      (a.toNat % 2 = 0) ∧
      (a.toNat + 2 * ws.length ≤ 0x1000000) ∧
      (s.bankServes (hostMaster (Fin.ofNat 4 (2 + n.val))) .write a.toNat (2 * ws.length))) ∧
  (∃ (n : Fin 2) (a : BitVec 32) (_count : Nat) (_ws : List Word) (s : State),
      (s.on) ∧
      (s.hostWorks (Fin.ofNat 4 (2 + n.val)) = true) ∧
      (0x4000000 ≤ a.toNat ∨ a.toNat % 2 = 1)) ∧
  (∃ (n : Fin 2) (s : State),
      (s.on) ∧
      (s.hostWorks (Fin.ofNat 4 (2 + n.val)) = true)) ∧
  (∃ (_n : Fin 2) (_a : Addr) (_b : BitVec 32) (_sels : List ByteSel) (_ws : List (ByteSel × Word)) (_vs : List Word) (s : State),
      (s.on)) ∧
  (∃ (n : Fin 2) (s : State),
      (s.on) ∧
      (s.hostWorks (Fin.ofNat 4 (2 + n.val)) = true)) ∧
  (∃ (n : Fin 2) (_cause : HostResetCause) (s : State),
      (s.on) ∧
      (s.hostWorks (Fin.ofNat 4 n.val) = true) ∧
      (¬(n = 0 ∧ s.feedRuns = true))) ∧
  (∃ (n : Fin 2) (s : State),
      (s.on) ∧
      (s.hostWorks (Fin.ofNat 4 n.val) = true)) := by
  refine ⟨⟨0, 0, [ByteSel.low], { State.reset with kdl := { State.reset.kdl with straps := 0x04 }, regs := [(786432, 0x10), (853504, 0x1)] }, ?_⟩,
    ⟨1, 0, [], { State.reset with kdl := { State.reset.kdl with straps := 0x08 }, regs := [(853536, 0x1)] }, ?_⟩,
    ⟨1, 0, 1, { State.reset with kdl := { State.reset.kdl with straps := 0x20 }, regs := [(786432, 0x13), (853600, 0x1)] }, ?_⟩,
    ⟨1, 0, [], { State.reset with kdl := { State.reset.kdl with straps := 0x20 }, regs := [(853600, 0x1)] }, ?_⟩,
    ⟨1, 0x80000000, 0, [], { State.reset with kdl := { State.reset.kdl with straps := 0x20 }, regs := [(853600, 0x1)] }, ?_⟩,
    ⟨1, { State.reset with kdl := { State.reset.kdl with straps := 0x20 }, regs := [(853600, 0x1)] }, ?_⟩,
    ⟨0, 0, 0, [], [], [], State.reset, ?_⟩,
    ⟨1, { State.reset with kdl := { State.reset.kdl with straps := 0x20 }, regs := [(853600, 0x1)] }, ?_⟩,
    ⟨1, HostResetCause.perst, { State.reset with kdl := { State.reset.kdl with straps := 0x08 }, regs := [(853536, 0x1)] }, ?_⟩,
    ⟨1, { State.reset with kdl := { State.reset.kdl with straps := 0x08 }, regs := [(853536, 0x1)] }, ?_⟩⟩ <;> (try dsimp only) <;> and_intros <;> decide +kernel

theorem witness_FluesAndHostWatchdogs :
  (∃ (m : Master) (f : Fin 64) (_v : Word) (s : State),
      (s.writes m (0xD0004 + 16 * f.val)) ∧
      (s.isSender f.val m = true)) ∧
  (∃ (m : Master) (f : Fin 64) (_v : Word) (s : State),
      (s.writes m (0xD0006 + 16 * f.val)) ∧
      (s.isSender f.val m = true) ∧
      (s.flue[f].full = false)) ∧
  (∃ (m : Master) (f : Fin 64) (_v : Word) (s : State),
      (s.writes m (0xD0006 + 16 * f.val)) ∧
      (s.isSender f.val m = true) ∧
      (s.flue[f].full = true)) ∧
  (∃ (m : Master) (f : Fin 64) (s : State),
      (s.reads m (0xD000C + 16 * f.val)) ∧
      (s.isReceiver f.val m = true)) ∧
  (∃ (h : HearthId) (f : Fin 64) (_v : Word) (s : State),
      (s.on) ∧
      (s.hearth[h].st = .running) ∧
      (s.hearth[h].stall = none) ∧
      (s.isSender f.val (hearthMaster h) = false)) ∧
  (∃ (n : Fin 4) (e : Nat) (s : State),
      (s.on) ∧
      (s.host[n].wdgEnd = some e)) ∧
  (∃ (m : Master) (n : Fin 4) (_v : Word) (s : State),
      (s.writes m (0xD0612 + 32 * n.val))) ∧
  (∃ (m : Master) (n : Fin 4) (_v : Word) (s : State),
      (s.writes m (0xD0610 + 32 * n.val))) ∧
  (∃ (m : Master) (n : Fin 4) (_v : Word) (s : State),
      (s.writes m (0xD060E + 32 * n.val))) := by
  refine ⟨⟨15, 35, 0, { State.reset with regs := [(852528, 0x5cf)] }, ?_⟩,
    ⟨15, 35, 0, { State.reset with regs := [(852528, 0x5cf)] }, ?_⟩,
    ⟨15, 35, 0, { State.reset with flue := State.reset.flue.set 35 ({ State.reset.flue[35] with full := true }), regs := [(852528, 0x5cf)] }, ?_⟩,
    ⟨15, 35, { State.reset with regs := [(852528, 0x5e3)] }, ?_⟩,
    ⟨5, 0, 0, { State.reset with hearth := State.reset.hearth.set 5 ({ State.reset.hearth[5] with st := .running }) }, ?_⟩,
    ⟨3, 4, { State.reset with host := State.reset.host.set 3 ({ State.reset.host[3] with wdgEnd := (some 4) }) }, ?_⟩,
    ⟨15, 0, 0, State.reset, ?_⟩,
    ⟨15, 0, 0, State.reset, ?_⟩,
    ⟨15, 0, 0, State.reset, ?_⟩⟩ <;> (try dsimp only) <;> and_intros <;> decide +kernel

theorem witness_BootSequence :
  (∃ (code : Nat) (_sect : Nat) (_s : State),
      (code < 256)) ∧
  (∃ (s : State),
      (s.on) ∧
      (s.kdl.st = .sense)) ∧
  (∃ (h1 : List Byte) (h8 : List Byte) (s : State),
      (s.on) ∧
      (s.kdl.st = .load) ∧
      (s.kdl.stream = []) ∧
      (h1.length = 256) ∧
      (h8.length = 256)) ∧
  (∃ (l : List Byte) (s : State),
      (s.on) ∧
      (s.kdl.st = .load) ∧
      (256 ≤ s.kdl.stream.length) ∧
      (s.kdl.tableOk = true) ∧
      (s.kdl.sect < s.kdl.sectCnt) ∧
      let k := { s.kdl with stream := s.kdl.stream ++ l };
      let x := k.section' k.sect;
      (x.offset + x.len ≤ k.stream.length) ∧
      (x.type = 1 ∨ x.type = 3 ∧ x.arg < 12 ∧ x.len % 2 = 0 ∨ x.type = 5 ∧ x.len % 16 = 0)) ∧
  (∃ (l : List Byte) (s : State),
      (s.on) ∧
      (s.kdl.st = .load) ∧
      (256 ≤ s.kdl.stream.length) ∧
      (s.kdl.tableOk = false) ∧
      let k := { s.kdl with stream := s.kdl.stream ++ l };
      let n := k.sectCnt;
      let x := fun (i : Nat) => k.section' i;
      (k.sectOfs + 16 * n ≤ k.stream.length) ∧
      (0 < n) ∧
      ((x (n - 1)).type ≠ 9 ∨ (∃ i, i < n - 1 ∧ ((x i).type = 9 ∨ (x (i + 1)).offset < (x i).offset + (x i).len)) ∨ (∃ i, i < n ∧ ((x i).offset < k.sectOfs + 16 * n ∨ k.imageLen < (x i).offset + (x i).len + 64 ∨ (x i).ok = false)))) ∧
  (∃ (l : List Byte) (s : State),
      (s.on) ∧
      (s.kdl.st = .load) ∧
      (s.kdl.tableOk = true) ∧
      (s.kdl.sect = s.kdl.sectCnt) ∧
      (256 ≤ s.kdl.stream.length) ∧
      (s.kdl.imageLen ≤ s.kdl.stream.length + l.length)) ∧
  (∃ (s : State),
      (s.on) ∧
      (s.kdl.st = .verify)) ∧
  (∃ (off : Nat) (v : Word) (s : State),
      (s.on) ∧
      (s.kdl.st = .start) ∧
      let o := s.kdl.section' (s.kdl.sectCnt - 1);
      let at' := o.offset + 8 * s.kdl.starts;
      (8 * s.kdl.starts + 8 ≤ o.len) ∧
      (at' + 8 ≤ s.kdl.stream.length) ∧
      (s.kdl.field at' 4 = 0x3000000 + off) ∧
      (s.kdl.field (at' + 4) 2 = v.toNat) ∧
      (s.kdl.field (at' + 6) 2 = 0) ∧
      (startReg off = true)) ∧
  (∃ (s : State),
      (s.on) ∧
      (s.kdl.st = .start) ∧
      (s.kdl.starts = s.kdl.startRecords.length)) := by
  refine ⟨⟨0, 0, State.reset, ?_⟩,
    ⟨State.reset, ?_⟩,
    ⟨List.replicate 256 0, List.replicate 256 0, { State.reset with kdl := { State.reset.kdl with st := .load } }, ?_⟩,
    ⟨[], { State.reset with kdl := { State.reset.kdl with st := .load, stream := ([0] ++ List.replicate 28 0 ++ ([0x1, 0, 0, 0x2] ++ List.replicate 223 0 ++ [0x3])), tableOk := true } }, ?_⟩,
    ⟨[], { State.reset with kdl := { State.reset.kdl with st := .load, stream := (([0] ++ List.replicate 31 0 ++ [0x2]) ++ List.replicate 223 0) } }, ?_⟩,
    ⟨[], { State.reset with kdl := { State.reset.kdl with st := .load, stream := (([0] ++ List.replicate 31 0 ++ [0x2]) ++ List.replicate 223 0), sect := 2, tableOk := true } }, ?_⟩,
    ⟨{ State.reset with kdl := { State.reset.kdl with st := .verify } }, ?_⟩,
    ⟨720896, 0x1, { State.reset with kdl := { State.reset.kdl with st := .start, stream := ([0] ++ List.replicate 28 0 ++ ([0x1, 0, 0, 0x2] ++ List.replicate 247 0 ++ ([0x60, 0x1, 0, 0, 0x10] ++ List.replicate 69 0 ++ [0xb, 0x3, 0x1, 0, 0, 0]))) } }, ?_⟩,
    ⟨{ State.reset with kdl := { State.reset.kdl with st := .start, stream := ([0] ++ List.replicate 28 0 ++ ([0x1] ++ List.replicate 238 0 ++ [0x10])), starts := 2 } }, ?_⟩⟩ <;> (try dsimp only) <;> and_intros <;> decide +kernel

theorem witness_FeedFlashAndFuses :
  (∃ (m : Master) (_v : Word) (s : State),
      (s.writes m 0xE0200) ∧
      (s.kdl.st = .feed) ∧
      (s.kdl.ready = true)) ∧
  (∃ (m : Master) (off : BitVec 15) (_v : Word) (s : State),
      let o := off.toNat / 2 * 2;
      (s.writes m (0xE8000 + o))) ∧
  (∃ (m : Master) (off : BitVec 15) (_v : Word) (s : State),
      (s.writes m (0xE8000 + off.toNat / 2 * 2)) ∧
      (s.kdl.st = .feed) ∧
      (s.kdl.ready = true) ∧
      (s.kdl.readyBeat ≠ s.time.beat)) ∧
  (∃ (n : Nat) (s : State),
      (s.on) ∧
      (s.kdl.chunk = some n) ∧
      (s.kdl.st = .feed)) ∧
  (∃ (s : State),
      (s.on) ∧
      (s.kdl.st = .feed) ∧
      (s.kdl.begun = true) ∧
      (s.kdl.ready = true)) ∧
  (∃ (m : Master) (_v : Word) (s : State),
      (s.writes m 0xE0204)) ∧
  (∃ (n : Fin 2) (_cause : HostResetCause) (s : State),
      (s.on) ∧
      (n = 0) ∧
      (s.hostWorks 0 = true) ∧
      (s.kdl.attempt = some .h) ∧
      (s.kdl.begun = true)) ∧
  (∃ (m : Master) (_v : Word) (s : State),
      (s.writes m 0xE0106)) ∧
  (∃ (_l : List Byte) (s : State),
      (s.on) ∧
      (s.kdl.xBusy = true)) ∧
  (∃ (m : Master) (_v : Word) (s : State),
      (s.writes m 0xE0024)) ∧
  (∃ (m : Master) (_v : Word) (s : State),
      (s.writes m 0xE0026)) ∧
  (∃ (n : Nat) (s : State),
      (s.on) ∧
      (s.kdl.advTarget = some n)) ∧
  (∃ (m : Master) (_v : Word) (s : State),
      (s.writes m 0xE002A)) ∧
  (∃ (b : Burn) (s : State),
      (s.on) ∧
      (s.kdl.burn = some b)) := by
  refine ⟨⟨16, 0, { State.reset with kdl := { State.reset.kdl with st := .feed, straps := 0x04, ready := true } }, ?_⟩,
    ⟨16, 0, 0, { State.reset with kdl := { State.reset.kdl with st := .feed, straps := 0x04 } }, ?_⟩,
    ⟨16, 0, 0, { State.reset with time := { State.reset.time with beat := 1 }, kdl := { State.reset.kdl with st := .feed, straps := 0x04, ready := true } }, ?_⟩,
    ⟨3, { State.reset with kdl := { State.reset.kdl with st := .feed, chunk := (some 3) } }, ?_⟩,
    ⟨{ State.reset with kdl := { State.reset.kdl with st := .feed, ready := true, begun := true } }, ?_⟩,
    ⟨16, 0, { State.reset with kdl := { State.reset.kdl with st := .feed, straps := 0x04 } }, ?_⟩,
    ⟨0, HostResetCause.perst, { State.reset with kdl := { State.reset.kdl with st := .feed, attempt := (some (KSlot.h)), straps := 0x04, begun := true } }, ?_⟩,
    ⟨17, 0, { State.reset with kdl := { State.reset.kdl with straps := 0x08 }, regs := [(853536, 0x1), (853542, 0xffff)] }, ?_⟩,
    ⟨[], { State.reset with kdl := { State.reset.kdl with xBusy := true } }, ?_⟩,
    ⟨17, 0, { State.reset with kdl := { State.reset.kdl with st := .run, straps := 0x08, supHost := 17 }, regs := [(853536, 0x1)] }, ?_⟩,
    ⟨17, 0, { State.reset with kdl := { State.reset.kdl with st := .run, straps := 0x08, supHost := 17 }, regs := [(853536, 0x1)] }, ?_⟩,
    ⟨3, { State.reset with kdl := { State.reset.kdl with advTarget := (some 3) } }, ?_⟩,
    ⟨17, 0, { State.reset with kdl := { State.reset.kdl with st := .run, straps := 0x08, supHost := 17 }, regs := [(853536, 0x1)] }, ?_⟩,
    ⟨Burn.secure, { State.reset with kdl := { State.reset.kdl with burn := (some (Burn.secure)) } }, ?_⟩⟩ <;> (try dsimp only) <;> and_intros <;> decide +kernel

theorem witness_SeasoningMeasures :
  (∃ (_r : SensorReadings) (s : State),
      (s.on)) ∧
  (∃ (k : Nat) (s : State),
      (k < s.ssn.slack.length)) ∧
  (∃ (t8 : Int) (mv : Nat),
      let e : Int := 5 * (t8 - 680) + 8 * ((mv : Int) - 800) + 19200;
      (0 ≤ e)) ∧
  (∃ (_t8 : Int) (s : State),
      (s.on)) ∧
  (∃ (m : Master) (_v : Word) (s : State),
      (s.writes m 0xF0280)) ∧
  (∃ (m : Master) (s : State),
      (s.writes m 0xF0280) ∧
      (s.ssn.restoreTried = false) ∧
      let w := fun (k : Nat) => s.reg (0xF0200 + 2 * k);
      let n3 := fun (k : Nat) => (w k).toNat + (w (k + 1)).toNat * 65536 + (w (k + 2)).toNat * 2 ^ 32;
      let crc := crc32 ((List.range 62).flatMap (fun k => [(w k).truncate 8, (w k >>> 8).truncate 8]));
      (w 62 = crc.truncate 16) ∧
      (w 63 = (crc >>> 16).truncate 16) ∧
      (n3 0 = s.serial)) ∧
  (∃ (m : Master) (_en : Bool) (_ack : Bool) (s : State),
      (s.writes m 0xF0010)) := by
  refine ⟨⟨{ slack := [24], osc := [1], temp := [], eyes := [], ron := [some 120, none, some 116, some 106, some 120, none, none, none, some 110, some 110, some 114, some 131, some 125, some 139, some 118, some 143] }, State.reset, ?_⟩,
    ⟨0, { State.reset with ssn := { State.reset.ssn with slack := [52, 24] } }, ?_⟩,
    ⟨0, 0, ?_⟩,
    ⟨0, State.reset, ?_⟩,
    ⟨15, 0, State.reset, ?_⟩,
    ⟨15, { State.reset with regs := [(0xF027C, 0xe0c), (0xF027E, 0x15d7)] }, ?_⟩,
    ⟨15, false, false, State.reset, ?_⟩⟩ <;> (try dsimp only) <;> and_intros <;> decide +kernel

theorem witness_SeasoningReplans :
  (∃ (m : Master) (_nor : Option Nat) (s : State),
      (s.writes m 0xF0000)) ∧
  (∃ (b : Nat) (_nor : Option Nat) (s : State),
      (s.on) ∧
      (bit (s.reg 0xF0000) 0 = true) ∧
      (s.ssn.plan = .idle) ∧
      (s.ssn.startBeat = some b) ∧
      (s.ssn.startDone = false)) ∧
  (∃ (_nor : Option Nat) (s : State),
      (s.on) ∧
      (bit (s.reg 0xF0000) 0 = true) ∧
      (s.ssn.plan = .idle) ∧
      (s.ssn.startDone = true) ∧
      (s.tick.running = true) ∧
      (s.time.beat = s.tick.tBeat)) ∧
  (∃ (low : Bool) (_r : SensorReadings) (s : State),
      (s.on) ∧
      (s.ssn.plan = .voltage low)) ∧
  (∃ (lane : Nat) (before : Nat) (_eye : Nat) (back : Bool) (s : State),
      (s.on) ∧
      (s.ssn.plan = .serdes lane before back) ∧
      (lane < 10)) ∧
  (∃ (lane : Nat) (_d : Int) (_s : State),
      (lane < 10)) ∧
  (∃ (m : Nat) (s : State),
      (m < 8) ∧
      (s.reg 0xF0026 ≠ 0) ∧
      (s.reg 0xF0028 ≠ 0)) := by
  refine ⟨⟨15, none, State.reset, ?_⟩,
    ⟨0, none, { State.reset with ssn := { State.reset.ssn with startBeat := (some 0) }, regs := [(983040, 0x1)] }, ?_⟩,
    ⟨none, { State.reset with tick := { State.reset.tick with running := true }, ssn := { State.reset.ssn with startDone := true }, regs := [(983040, 0x1)] }, ?_⟩,
    ⟨false, { slack := [49, -8, 131, -35, 64, -34, -2, -20, 158, 2, 37, 31, 130, 43, 30, 139, -25, 45, -19, 41, 106, 81, -35, 156, 158, 20, 74, 152, 47, -4, -30, 125, 118, 103, 82, 99, 102, 3, 23, 115, 116, 131, 100, 142], osc := [], temp := [780, 704, 110, 379, 292, 438], eyes := [], ron := [] }, { State.reset with ssn := { State.reset.ssn with plan := (Replan.voltage false) } }, ?_⟩,
    ⟨1, 4, 0, true, { State.reset with ssn := { State.reset.ssn with plan := (Replan.serdes 1 4 true) } }, ?_⟩,
    ⟨0, 0, State.reset, ?_⟩,
    ⟨0, { State.reset with regs := [(983078, 0x11), (983080, 0x3e8)] }, ?_⟩⟩ <;> (try dsimp only) <;> and_intros <;> decide +kernel

theorem witness_ClampsAndReleases :
  (∃ (h : HearthId) (cause : Nat) (_a : Addr) (s : State),
      (s.hearth[h].st ≠ .clamped) ∧
      (cause < 16)) ∧
  (∃ (m : Master) (s : State),
      (s.reads m 0xF0306) ∧
      (s.ssn.clog = [])) ∧
  (∃ (m : Master) (e : ClampRec) (r : List ClampRec) (s : State),
      (s.reads m 0xF0306) ∧
      (s.ssn.clog = e :: r) ∧
      (s.ssn.clogSpill = none) ∧
      (e.beat ≠ s.time.beat) ∧
      (e.target < 128) ∧
      (e.cause < 16)) ∧
  (∃ (m : Master) (s : State),
      (s.reads m 0xF0306)) ∧
  (∃ (m : Master) (_v : Word) (s : State),
      (s.writes m 0xF0312)) ∧
  (∃ (m : Master) (s : State),
      (s.writes m 0xF0312) ∧
      (s.ssn.unclampArmed = true)) ∧
  (∃ (m : Master) (h : HearthId) (s : State),
      (s.writes m 0xF0312) ∧
      (s.ssn.unclampArmed = true) ∧
      (fld (s.reg 0xF0310) 0 7 = h.val) ∧
      (s.hearth[h].st = .clamped)) ∧
  (∃ (m : Master) (n : Fin 4) (s : State),
      (s.writes m 0xF0312) ∧
      (s.ssn.unclampArmed = true) ∧
      (fld (s.reg 0xF0310) 0 7 = 16 + n.val) ∧
      (s.host[n].fenced = true)) ∧
  (∃ (m : Master) (j : JigId) (s : State),
      (s.writes m 0xF0312) ∧
      (s.ssn.unclampArmed = true) ∧
      (fld (s.reg 0xF0310) 0 7 = 32 + j.val) ∧
      (s.jig[j].clamped = true)) := by
  refine ⟨⟨0, 0, 0, State.reset, ?_⟩,
    ⟨15, State.reset, ?_⟩,
    ⟨15, { target := 4, cause := 0, addr := 0, tick := 0x8, beat := 64883 }, [], { State.reset with ssn := { State.reset.ssn with clog := [{ target := 4, cause := 0, addr := 0, tick := 0x8, beat := 64883 }] } }, ?_⟩,
    ⟨15, State.reset, ?_⟩,
    ⟨15, 0, State.reset, ?_⟩,
    ⟨15, { State.reset with ssn := { State.reset.ssn with unclampArmed := true } }, ?_⟩,
    ⟨15, 0, { State.reset with hearth := State.reset.hearth.set 0 ({ State.reset.hearth[0] with st := .clamped }), ssn := { State.reset.ssn with unclampArmed := true } }, ?_⟩,
    ⟨15, 3, { State.reset with host := State.reset.host.set 3 ({ State.reset.host[3] with fenced := true }), ssn := { State.reset.ssn with unclampArmed := true }, regs := [(983824, 0x13)] }, ?_⟩,
    ⟨15, 3, { State.reset with jig := State.reset.jig.set 3 ({ State.reset.jig[3] with clamped := true }), ssn := { State.reset.ssn with unclampArmed := true }, regs := [(983824, 0x23)] }, ?_⟩⟩ <;> (try dsimp only) <;> and_intros <;> decide +kernel

theorem witness_PairReads :
  (∃ (m : Master) (a : Addr) (s : State),
      let off : Nat := a.toNat - 0x3000000;
      (pairAt a 0 = true) ∧
      (readClears off = false) ∧
      (s.reads m off)) ∧
  (∃ (m : Master) (a : Addr) (s : State),
      let off : Nat := a.toNat - 0x3000000;
      (pairAt a 2 = true) ∧
      (s.reads m off)) ∧
  (∃ (_n : Fin 4) (off : Nat) (_s : State),
      (off < 0x100000)) := by
  refine ⟨⟨15, 0x3060400, State.reset, ?_⟩,
    ⟨15, 0x3060402, State.reset, ?_⟩,
    ⟨0, 0, State.reset, ?_⟩⟩ <;> (try dsimp only) <;> and_intros <;> decide +kernel

theorem witness_PairWrites :
  (∃ (m : Master) (a : Addr) (_v : Word) (s : State),
      let off : Nat := a.toNat - 0x3000000;
      (pairAt a 0 = true) ∧
      (s.writes m off)) ∧
  (∃ (m : Master) (a : Addr) (_v : Word) (s : State),
      let off : Nat := a.toNat - 0x3000000;
      (pairAt a 2 = true) ∧
      (s.writes m off)) ∧
  (∃ (m : Master) (lo : Nat) (mask : Word) (_v : Word) (s : State),
      ((lo, mask) ∈ [(0x30010, 3), (0x30030, 3), (0xE0102, 0xFFFF), (0x53002, 0x3FF), (0x5300A, 0x3FF)]) ∧
      (s.writes m (lo + 2)) ∧
      ((lo + 2) / 65536 ≠ 14 ∨ s.kdl.advArmed = false)) := by
  refine ⟨⟨15, 0x3062000, 0, State.reset, ?_⟩,
    ⟨15, 0x3062002, 0, State.reset, ?_⟩,
    ⟨15, 339970, 0x3ff, 0, State.reset, ?_⟩⟩ <;> (try dsimp only) <;> and_intros <;> decide +kernel

theorem witness_RegisterAccess :
  (∃ (m : Master) (off : Nat) (bits : Word) (_v : Word) (s : State),
      ((off, bits) ∈ [(0x10004, 0xFF), (0x20004, 0x1FF), (0x30004, 0x7FF), (0x40004, 0x1FF), (0x60104, 0xFFFF), (0x60204, 0xFFFF), (0x70004, 0x7FFF), (0xC0500, 0x3F), (0xF0004, 0x1FFF)]) ∧
      (s.writes m off)) ∧
  (∃ (m : Master) (off : Nat) (bits : Word) (_v : Word) (s : State),
      ((off, bits) ∈ [(0x10006, 0xFF), (0x20006, 0x1FF), (0x30006, 0x7FF), (0x40006, 0x1FF), (0x60106, 0xFFFF), (0x70006, 0x7FFF), (0xC0502, 0x3F), (0xF0006, 0x1FFF), (0x40400, 0xFFF)]) ∧
      (s.writes m off)) ∧
  (∃ (m : Master) (a : Addr) (_v : Word) (s : State),
      (0x3000000 ≤ a.toNat) ∧
      (a.toNat < 0x3100000) ∧
      (s.writes m (a.toNat / 2 * 2 - 0x3000000))) ∧
  (∃ (m : Master) (off : Nat) (_v : Word) (s : State),
      ((0x100 ≤ off ∧ off < 0x10000) ∨ (0x20C80 ≤ off ∧ off < 0x30000) ∨ (0xC0600 ≤ off ∧ off < 0xD0000)) ∧
      (off % 2 = 0) ∧
      (s.writes m off)) ∧
  (∃ (m : Master) (off : Nat) (s : State),
      ((0x100 ≤ off ∧ off < 0x10000) ∨ (0x20C80 ≤ off ∧ off < 0x30000) ∨ (0xC0600 ≤ off ∧ off < 0xD0000)) ∧
      (off % 2 = 0) ∧
      (s.reads m off) ∧
      (s.reg off = 0)) ∧
  (∃ (m : Master) (a : Addr) (s : State),
      let off : Nat := a.toNat - 0x3000000;
      ((off / 65536 = 2 ∨ off / 65536 = 5 ∨ off / 65536 = 6)) ∧
      (0x3000000 ≤ a.toNat) ∧
      (a.toNat % 2 = 0) ∧
      (readClears off = true) ∧
      (s.reads m off)) ∧
  (∃ (m : Master) (i : Fin 4) (s : State),
      (s.reads m (0x4040E + 32 * i.val))) ∧
  (∃ (h : HearthId) (a : Addr) (_v : Word) (s : State),
      (s.on) ∧
      (s.hearth[h].st = .running) ∧
      (s.hearth[h].stall = none) ∧
      (0x3000000 ≤ a.toNat) ∧
      (a.toNat < 0x3200000) ∧
      let m := hearthMaster h;
      (0x3100000 ≤ a.toNat ∨ s.mayAccess m (a.toNat / 2 * 2 - 0x3000000) true = false)) ∧
  (∃ (n : Fin 4) (a : Addr) (_v : Word) (s : State),
      (s.on) ∧
      (s.hostWorks n = true) ∧
      (s.host[n].fenced = false) ∧
      (0x3000000 ≤ a.toNat) ∧
      let m := hostMaster n;
      (0x3100000 ≤ a.toNat ∨ s.mayAccess m (a.toNat / 2 * 2 - 0x3000000) true = false)) := by
  refine ⟨⟨15, 65540, 0xff, 0, State.reset, ?_⟩,
    ⟨15, 65542, 0xff, 0, State.reset, ?_⟩,
    ⟨15, 0x3000000, 0, State.reset, ?_⟩,
    ⟨15, 256, 0, State.reset, ?_⟩,
    ⟨15, 256, State.reset, ?_⟩,
    ⟨15, 0x3050002, State.reset, ?_⟩,
    ⟨15, 0, State.reset, ?_⟩,
    ⟨5, 0x3000000, 0, { State.reset with hearth := State.reset.hearth.set 5 ({ State.reset.hearth[5] with st := .running }) }, ?_⟩,
    ⟨3, 0x3000000, 0, { State.reset with kdl := { State.reset.kdl with straps := 0x20 }, regs := [(853600, 0x1)] }, ?_⟩⟩ <;> (try dsimp only) <;> and_intros <;> decide +kernel


theorem witness_StepTakesTheFront :
    (∃ (c : Instr) (rest : List Instr) (s : State), s.pending = c :: rest) ∧
    (∃ s : State, s.pending = [] ∧ s.kdl.up = true) ∧ (∃ s : State, s.pending = [] ∧ s.kdl.up = false) :=
  ⟨⟨.strike, [], { State.reset with pending := [.strike] }, rfl⟩, ⟨State.reset, rfl, rfl⟩,
    ⟨{ State.reset with kdl := { State.reset.kdl with up := false } }, rfl, rfl⟩⟩

theorem witness_StepKeepsTables : ∃ s t : State, s.memWf ∧ Sparse.wf 0 s.swf.mt ∧ step s = .next t :=
  ⟨{ State.reset with kdl := { State.reset.kdl with up := false } }, _, by decide +kernel, by decide +kernel, rfl⟩

theorem witness_HearthEncodingRoundTrip :
    ∃ (flat tact : Bool) (entry : Nat → Word) (l : List Byte) (i : HInstr),
      l.length = needLen entry l ∧ hdecode flat tact entry l = .ok i :=
  ⟨false, false, fun _ => 0, [0xB2, 0x25],
    { pre := ⟨.once, false, none, false⟩, op := .mul, form := .rr ⟨false, 2⟩ ⟨false, 5⟩, len := 2 }, by decide +kernel, rfl⟩

end Sys2Proof.Tests
end

section
/-! PROOFS. Transfers, calls and returns of a hearth (R302 to R304, R323, R333): the command that runs an instruction,
words of bank memory that are served at once, the records of the window stack, and the statement itself. -/

namespace Sys2Proof.Machine

open Sys2Proof

/-! ## An instruction that a command carries out -/

section Instruction

variable {s u v : State} {h : HearthId} {l : List Byte} {i : HInstr}

/-- The command named after an operation runs it where it stands at PC (R322). -/
theorem exec_hearthCmd (h : HearthId) (op : HOp) (s : State) :
    exec (hearthCmd h op) s = .next (s.alive fun s => s.hearthDo h op) := by
  cases op <;> rfl

/-- An instruction that a hearth is about to execute runs under the command of its operation. -/
theorem exec_of_hearthAt (hs : s.hearthAt h l u i) : exec (hearthCmd h i.op) s = .next (u.runInstr h l i) := by
  obtain ⟨hup, hrun, hstall, hfetch, hdec⟩ := hs
  have hgo : s.hearthGoes h = true := by
    simp only [State.hearthGoes, hrun, hstall]
    rfl
  rw [exec_hearthCmd, State.alive_on hup]
  simp only [State.hearthDo, hgo, hfetch, hdec, if_true]

/-- What bytes that decode have passed: the opcode map, the stage ILLEGAL, the stage ILLPFX (R336). -/
theorem hdecode_ok {flat tact : Bool} {entry : Nat → Word} (hd : hdecode flat tact entry l = .ok i) :
    (∃ b r, decodeBody entry b r = some (i.op, i.form)) ∧
      bodyOk flat tact entry i.pre.wide l.length i.op i.form = true ∧
      prefixAccepted entry i.pre i.op i.form = true ∧ i.len = l.length := by
  unfold hdecode at hd
  dsimp only at hd
  repeat' split at hd
  all_goals cases hd
  rename_i hb hbody hpre
  exact ⟨⟨_, _, hb⟩, by simpa using hbody, by simpa using hpre, rfl⟩

/-- The operands of a customer instruction (R338). -/
def HForm.isCustomer : HForm → Bool
  | .customer _ _ _ _ => true
  | _ => false

theorem not_isCustomer_of_memForm {dir : Bool} {am : Nat} {m : Byte} {r : List Byte} {f : HForm}
    (hf : memForm dir am m r = some f) : f.isCustomer = false := by
  unfold memForm at hf
  dsimp only at hf
  split at hf
  case h_4 => split at hf <;> cases hf; rfl
  all_goals cases hf
  all_goals rfl

/-- Only a customer instruction has the operands of one: so of each part of the opcode map (R321, R338). -/
def CustomerOnly (d : Option (HOp × HForm)) : Prop :=
  ∀ op f, d = some (op, f) → f.isCustomer = true → op = .custom

theorem customerOnly_ite {c : Prop} [Decidable c] {d e : Option (HOp × HForm)} (hd : CustomerOnly d)
    (he : CustomerOnly e) : CustomerOnly (if c then d else e) := by
  split
  · exact hd
  · exact he

theorem customerOnly_none : CustomerOnly none := by simp [CustomerOnly]

theorem customerOnly_some {op : HOp} {f : HForm} (hf : f.isCustomer = false) : CustomerOnly (some (op, f)) := by
  rintro _ _ ⟨⟩ h
  simp [hf] at h

theorem customerOnly_memForm {dir : Bool} {am : Nat} {m : Byte} {r : List Byte} (g : HForm → HOp) :
    CustomerOnly ((memForm dir am m r).map fun f => (g f, f)) := by
  intro op f h hc
  obtain ⟨f', hm, he⟩ := Option.map_eq_some_iff.1 h
  cases he
  simp [not_isCustomer_of_memForm hm] at hc

theorem customerOnly_map {α : Type} {d : Option α} {g : α → HOp} {f : HForm} (hf : f.isCustomer = false) :
    CustomerOnly (d.map fun a => (g a, f)) := by
  cases d
  · exact customerOnly_none
  · exact customerOnly_some hf

theorem customerOnly_decodeTwo (o : Nat) (m : Byte) (r : List Byte) : CustomerOnly (decodeTwo o m r) := by
  refine customerOnly_ite (customerOnly_some rfl) (customerOnly_ite (customerOnly_ite ?_ customerOnly_none) ?_)
  · split
    · exact customerOnly_some rfl
    · exact customerOnly_some rfl
    · exact customerOnly_none
  · exact customerOnly_memForm _

theorem customerOnly_decodeCustomer (entry : Nat → Word) (k : Nat) (r : List Byte) :
    CustomerOnly (decodeCustomer entry k r) := by
  intro op f h _
  unfold decodeCustomer at h
  dsimp only at h
  split at h
  · cases h
  · split at h <;> simp_all

/-- The opcode map, entry by entry in the order of the decoder. -/
theorem customerOnly_decodeBody (entry : Nat → Word) (b : Byte) (r : List Byte) :
    CustomerOnly (decodeBody entry b r) := by
  refine customerOnly_ite (customerOnly_decodeCustomer _ _ _) (customerOnly_ite (customerOnly_some rfl) ?_)
  cases r with
  | nil => exact customerOnly_none
  | cons m r =>
    have hz {op : HOp} {f : HForm} (hf : f.isCustomer = false) :
        CustomerOnly (if zMod m = true then some (op, f) else none) :=
      customerOnly_ite (customerOnly_some hf) customerOnly_none
    refine customerOnly_ite (customerOnly_decodeTwo _ _ _) <|
      customerOnly_ite (customerOnly_memForm _) <| customerOnly_ite (customerOnly_memForm _) <|
      customerOnly_ite (customerOnly_memForm _) <| customerOnly_ite (customerOnly_memForm _) <|
      customerOnly_ite (customerOnly_map rfl) <| customerOnly_ite (customerOnly_some rfl) <|
      customerOnly_ite (customerOnly_some rfl) <| customerOnly_ite (customerOnly_some rfl) <|
      customerOnly_ite (customerOnly_some rfl) <| customerOnly_ite (hz rfl) <| customerOnly_ite (hz rfl) <|
      customerOnly_ite (customerOnly_some rfl) <| customerOnly_ite (customerOnly_some rfl) <|
      customerOnly_ite ?longJump <| customerOnly_ite ?far <| customerOnly_ite (customerOnly_some rfl) <|
      customerOnly_ite (customerOnly_map rfl) <| customerOnly_ite (customerOnly_some rfl) <|
      customerOnly_ite (customerOnly_some rfl) <| customerOnly_ite (customerOnly_some rfl) <|
      customerOnly_ite (hz rfl) customerOnly_none
    case longJump | far =>
      split
      · exact customerOnly_ite (customerOnly_some rfl) customerOnly_none
      · exact customerOnly_none

/-- An operation that accepts no repeat is decoded without one (R316, R328). -/
theorem rep_once_of_hdecode {flat tact : Bool} {entry : Nat → Word} (hd : hdecode flat tact entry l = .ok i)
    (hc : i.op ≠ .custom) (hr : ∀ f, acceptsRpt i.op f = false) : i.pre.rep = .once := by
  obtain ⟨⟨b, r, hb⟩, -, hp, -⟩ := hdecode_ok hd
  have hform := customerOnly_decodeBody entry b r i.op i.form hb
  cases hf : i.form with
  | customer k x y imm => exact absurd (hform (by rw [hf]; rfl)) hc
  | _ =>
    rw [hf] at hp
    simp only [prefixAccepted, hr, Bool.false_and, Bool.or_false, Bool.and_eq_true, beq_iff_eq] at hp
    exact hp.1.1.1

/-- The transfers (R321, R333). -/
def HOp.isTransfer : HOp → Bool
  | .jmpr | .callr | .jmpfr | .callfr | .longJump | .jmpf | .callf | .jcc | .ret | .retf => true
  | _ => false

theorem not_repeatable_of_isTransfer {op : HOp} (ht : op.isTransfer = true) :
    op ≠ .trap ∧ op ≠ .custom ∧ ∀ f, acceptsRpt op f = false := by
  cases op <;> cases ht <;> exact ⟨by decide, by decide, fun _ => rfl⟩

theorem rep_once_of_isTransfer (hs : s.hearthAt h l u i) (ht : i.op.isTransfer = true) : i.pre.rep = .once := by
  obtain ⟨-, -, -, -, hd⟩ := hs
  obtain ⟨-, hcustom, hrpt⟩ := not_repeatable_of_isTransfer ht
  exact rep_once_of_hdecode hd hcustom hrpt

theorem runInstr_transfer_ok {next : HNext} (hs : s.hearthAt h l u i) (ht : i.op.isTransfer = true)
    (hx : u.hexec h i = (v, .ok next)) : u.runInstr h l i = v.retire h i u.hearth[h].pc next := by
  obtain ⟨htrap, -, -⟩ := not_repeatable_of_isTransfer ht
  simp only [State.runInstr, htrap, rep_once_of_isTransfer hs ht, hx, if_false, ne_eq, not_true_eq_false, false_and,
    if_true]

theorem runInstr_transfer_error {e : HStop} (hs : s.hearthAt h l u i) (ht : i.op.isTransfer = true)
    (hx : u.hexec h i = (v, .error e)) : u.runInstr h l i = v.hstop h u.hearth[h].pc e := by
  obtain ⟨htrap, -, -⟩ := not_repeatable_of_isTransfer ht
  simp only [State.runInstr, htrap, rep_once_of_isTransfer hs ht, hx, if_false, ne_eq, not_true_eq_false, false_and]

/-- A transfer that leaves its hearth as `f` gives it retires with PC at its target (R292). -/
theorem retire_mapHearth (f : Hearth → Hearth) (pc : Word) (o : Word) :
    (v.mapHearth h f).retire h i pc (some o) =
      { v with hearth := v.hearth.set h { f v.hearth[h] with pc := o, rep := [], resume := false } } := by
  simp [State.retire, State.mapHearth, upd]

end Instruction

/-! ## Words of bank memory that are served at once (R399, R404, R407, R409) -/

section Bank

variable {s : State} {m : Master} {k : BKind} {a n : Nat}

/-- Accesses of one kind to `n` bytes from `a` on are served, and no write of this beat at the other port takes part
in them. Unlike `State.bankServes` it stays true as `m` writes. -/
structure State.Served (s : State) (m : Master) (k : BKind) (a n : Nat) : Prop where
  port : ∀ w ∈ s.bank.beatW, w.beat = s.time.beat → nearPort w.master = nearPort m
  permits : ∀ i, i < n → s.bankPermits m (bankIdx (a + i)) k = true
  awake : ∀ i, i < n → s.bank.banks[bankIdx (a + i)].asleep = false
  clean : ∀ i, i < n → Sparse.get 0 s.bank.ecc ((a + i) / 2 * 2) = 0

theorem State.Served.of_bankServes (hs : s.bankServes m k a n) : s.Served m k a n := by
  obtain ⟨hbeat, hword⟩ := hs
  exact ⟨fun w hw h => absurd h (hbeat w hw), fun i hi => (hword i hi).1, fun i hi => (hword i hi).2.1,
    fun i hi => (hword i hi).2.2⟩

theorem State.Served.otherWrite (hs : s.Served m k a n) (c : Nat) : s.otherWrite m c = none := by
  unfold State.otherWrite
  rw [List.find?_eq_none]
  intro w hw hc
  simp only [Bool.and_eq_true, beq_iff_eq, bne_iff_ne] at hc
  exact hc.2 (hs.port w hw hc.1.1)

/-- A word of `m` at any address leaves served what is served. -/
theorem State.Served.putWord (hs : s.Served m k a n) (c : Nat) (old w : Word) :
    (s.putWord m c old w).Served m k a n := by
  refine ⟨fun y hy hb => ?_, hs.permits, hs.awake, fun i hi => ?_⟩
  · simp only [State.putWord, State.mapBanks, List.mem_append, List.mem_filter, List.mem_singleton] at hy hb
    rcases hy with ⟨hy, -⟩ | rfl
    · exact hs.port y hy hb
    · rfl
  · simp only [State.putWord, State.mapBanks]
    by_cases hc : (a + i) / 2 * 2 = c
    · rw [hc, Sparse.get_set_self]
    · rw [Sparse.get_set_ne _ _ _ _ hc, hs.clean i hi]

/-- The access of a word in served memory comes to the part that takes place at the bank. -/
theorem State.Served.bankAccess (hs : s.Served m k a n) {j : Nat} (hj : j < n) (check : Bool)
    (f : Option (Word → Word)) (via : Nat) :
    s.bankAccess m (a + j) k check f via = s.bankServe m (a + j) check f := by
  simp only [State.bankAccess, hs.permits j hj, hs.awake j hj, Bool.not_true, Bool.false_eq_true, if_false]

theorem State.Served.memRead {j : Nat} (hs : s.Served m .read a n) (hj : j < n) (heven : (a + j) % 2 = 0)
    (hbank : a + j < 0x1000000) : s.memRead m (a + j) .read = (s, .ok (Memory.word s.bank.mem (a + j))) := by
  have haddr : (a + j) % 0x1000000 / 2 * 2 = a + j := by omega
  have hmark : Sparse.get 0 s.bank.ecc (a + j) = 0 := by
    simpa only [show (a + j) / 2 * 2 = a + j by omega] using hs.clean j hj
  unfold State.memRead
  rw [haddr, hs.bankAccess hj]
  simp [State.bankServe, State.seenWord, hs.otherWrite, hmark]

theorem viewWrite_plain_word (v old : Word) : viewWrite .plain .word v old = v := by
  have hones : selMask .word = BitVec.allOnes 16 := rfl
  simp only [viewWrite, merge, hones, BitVec.not_allOnes, BitVec.and_zero, BitVec.zero_or, BitVec.and_allOnes]

theorem State.Served.memWrite {j : Nat} (hs : s.Served m .write a n) (hj : j < n) (heven : (a + j) % 2 = 0)
    (hbank : a + j < 0x1000000) (v : Word) :
    s.memWrite m (a + j) .word v =
      (s.putWord m (a + j) (Memory.word s.bank.mem (a + j)) v, .ok (Memory.word s.bank.mem (a + j))) := by
  have haddr : (a + j) % 0x1000000 / 2 * 2 = a + j := by omega
  have hview : viewOf (a + j) = .plain := by simp [viewOf, hbank]
  unfold State.memWrite
  rw [haddr, hview]
  dsimp only
  rw [if_pos rfl, hs.bankAccess hj]
  simp [State.bankServe, State.bankStore, State.seenWord, hs.otherWrite, viewWrite_plain_word]

/-! ## Words put one after the other -/

/-- The state after `m` has put words at consecutive word addresses. -/
def State.putWords (s : State) (m : Master) (a : Nat) : List Word → State
  | [] => s
  | w :: r => (s.putWord m a (Memory.word s.bank.mem a) w).putWords m (a + 2) r

/-- Putting words changes bytes, codes, write-backs and the writes of the beat, and nothing else. -/
theorem State.putWords_frame (s : State) (m : Master) (a : Nat) (ws : List Word) :
    s.putWords m a ws = { s with bank := { s.bank with
      mem := (s.putWords m a ws).bank.mem, ecc := (s.putWords m a ws).bank.ecc
      writeback := (s.putWords m a ws).bank.writeback, beatW := (s.putWords m a ws).bank.beatW } } := by
  induction ws generalizing s a with
  | nil => rfl
  | cons w r ih => exact ih _ _

theorem State.putWords_frame_hearth (s : State) (m : Master) (a : Nat) (ws : List Word) (y : Vector Hearth 12) :
    { s.putWords m a ws with hearth := y } = { s with
      hearth := y
      bank := { s.bank with
        mem := (s.putWords m a ws).bank.mem, ecc := (s.putWords m a ws).bank.ecc
        writeback := (s.putWords m a ws).bank.writeback, beatW := (s.putWords m a ws).bank.beatW } } :=
  congrArg (fun t : State => { t with hearth := y }) (State.putWords_frame s m a ws)

@[simp] theorem State.putWord_hearth (s : State) (m : Master) (a : Nat) (old w : Word) :
    (s.putWord m a old w).hearth = s.hearth := rfl

@[simp] theorem State.putWords_hearth (s : State) (m : Master) (a : Nat) (ws : List Word) :
    (s.putWords m a ws).hearth = s.hearth := by
  rw [State.putWords_frame]

theorem State.byte_putWords_outside (s : State) (m : Master) (a : Nat) (ws : List Word) {c : Nat}
    (hc : c < a ∨ a + 2 * ws.length ≤ c) :
    Memory.byte (s.putWords m a ws).bank.mem c = Memory.byte s.bank.mem c := by
  induction ws generalizing s a with
  | nil => rfl
  | cons w r ih =>
    rw [List.length_cons] at hc
    exact (ih _ _ (by omega)).trans (Memory.byte_setWord_ne _ _ (by omega) (by omega))

theorem State.word_putWords (s : State) (m : Master) (a : Nat) (ws : List Word) {k : Nat} (hk : k < ws.length) :
    Memory.word (s.putWords m a ws).bank.mem (a + 2 * k) = ws[k] := by
  induction ws generalizing s a k with
  | nil => simp at hk
  | cons w r ih =>
    cases k with
    | zero =>
      have hword : Memory.word (s.putWords m a (w :: r)).bank.mem a =
          Memory.word (s.putWord m a (Memory.word s.bank.mem a) w).bank.mem a := by
        simp only [Memory.word, State.putWords]
        rw [State.byte_putWords_outside _ _ _ _ (by omega), State.byte_putWords_outside _ _ _ _ (by omega)]
      exact hword.trans (Memory.word_setWord_self _ _ _)
    | succ k =>
      have haddr : a + 2 * (k + 1) = a + 2 + 2 * k := by omega
      rw [haddr]
      exact ih _ _ _

end Bank

/-! ## Window stack records (R302 to R304) -/

section Records

variable {s : State} {h : HearthId} {k : BKind} {a o n page : Nat}

theorem hRead_bank (s : State) (h : HearthId) (ha : a < 0x1000000) :
    s.hRead h a = hearthRes a false (s.memRead (hearthMaster h) a .read) := by
  have hpage : a / 65536 ≠ 0x3FF := by omega
  have hjig : jigWordAt (a / 2 * 2) 0x1C = none := if_neg (by omega)
  simp only [State.hRead, State.busRead, hpage, hjig, show a < 0x3000000 by omega, if_true, if_false]

theorem hWrite_bank (s : State) (h : HearthId) (ha : a < 0x1000000) (sel : ByteSel) (v : Word) :
    s.hWrite h a sel v =
      (hearthRes a true (s.memWrite (hearthMaster h) a sel v)).bind fun s _ => (s, .ok ()) := by
  have hpage : a / 65536 ≠ 0x3FF := by omega
  have hjig : jigWordAt a 0x18 = none := if_neg (by omega)
  have howner : ownerAt a = none := if_neg (by omega)
  simp only [State.hWrite, State.busWrite, hpage, hjig, howner, show a < 0x3000000 by omega, if_true, if_false]

theorem HRes.bind_ok {α β : Type} (s : State) (x : α) (f : State → α → HRes β) :
    HRes.bind (s, .ok x) f = f s x := rfl

theorem aligned_even (s : State) (page : Nat) (heven : o % 2 = 0) : s.aligned page o = (s, .ok ()) :=
  if_neg (by omega)

theorem wordOf_toNat (w : Word) : wordOf w.toNat 0 = w := by
  simp [wordOf]

/-- A word of a record reads as bank memory holds it. -/
theorem State.Served.readMem {b j : Nat} (hs : s.Served (hearthMaster h) .read b n) (hj : j < n)
    (ha : page * 65536 + o = b + j) (heven : o % 2 = 0) (hbank : b + j < 0x1000000) :
    s.readMem h false page o = (s, .ok (Memory.word s.bank.mem (b + j)).toNat) := by
  rw [State.readMem, aligned_even _ _ heven, HRes.bind_ok, ha, hRead_bank s h hbank, hs.memRead hj (by omega) hbank]
  rfl

/-- A word of a record is put into bank memory. -/
theorem State.Served.writeMem {b j : Nat} (hs : s.Served (hearthMaster h) .write b n) (hj : j < n)
    (ha : page * 65536 + o = b + j) (heven : o % 2 = 0) (hbank : b + j < 0x1000000) (w : Word) :
    s.writeMem h false page o w.toNat =
      (s.putWord (hearthMaster h) (b + j) (Memory.word s.bank.mem (b + j)) w, .ok ()) := by
  rw [State.writeMem, aligned_even _ _ heven, HRes.bind_ok, ha, wordOf_toNat, hWrite_bank s h hbank,
    hs.memWrite hj (by omega) hbank]
  rfl

/-- The words of a block of the window ring from word `k` on. -/
def Hearth.blockWords (x : Hearth) (b k n : Nat) : List Word := Sparse.getAll 0 x.phys (blockReg b k) n

theorem Sparse.length_getAll {α : Type} (d : α) (t : Sparse α) (k n : Nat) :
    (Sparse.getAll d t k n).length = n := by
  induction n generalizing k with
  | zero => rfl
  | succ n ih => simp [Sparse.getAll, ih]

theorem Sparse.getElem_getAll {α : Type} (d : α) (t : Sparse α) (k n j : Nat)
    (hj : j < (Sparse.getAll d t k n).length) : (Sparse.getAll d t k n)[j] = Sparse.get d t (k + j) := by
  induction n generalizing k j with
  | zero => simp [Sparse.getAll] at hj
  | succ n ih =>
    cases j with
    | zero => rfl
    | succ j =>
      simp only [Sparse.getAll, List.getElem_cons_succ]
      rw [ih, show k + 1 + j = k + (j + 1) by omega]

theorem Hearth.length_blockWords (x : Hearth) (b k n : Nat) : (x.blockWords b k n).length = n :=
  Sparse.length_getAll ..

theorem Hearth.blockWords_succ (x : Hearth) (b k n : Nat) :
    x.blockWords b k (n + 1) = Sparse.get 0 x.phys (blockReg b k) :: x.blockWords b (k + 1) n := rfl

theorem State.putWords_cons (s : State) (m : Master) (a : Nat) (w : Word) (ws : List Word) :
    s.putWords m a (w :: ws) = (s.putWord m a (Memory.word s.bank.mem a) w).putWords m (a + 2) ws := rfl

/-- A spill whose record is served puts the block's words in their order, here those from word `k` on. -/
theorem spill_served {b k : Nat} (hs : s.Served (hearthMaster h) .write (s.hearth[h].pstk.toNat * 65536 + o) 16)
    (hpage : s.hearth[h].pstk.toNat < 0x100) (heven : o % 2 = 0) (hoff : o + 16 ≤ 65536) (hk : k + n = 8) :
    s.spill h b o n =
      (s.putWords (hearthMaster h) (s.hearth[h].pstk.toNat * 65536 + o + 2 * k) (s.hearth[h].blockWords b k n),
        .ok ()) := by
  induction n generalizing s k with
  | zero => rfl
  | succ n ih =>
    have hword : 7 - n = k := by omega
    have hmod : (o + 2 * k) % 65536 = o + 2 * k := by omega
    have hw := hs.writeMem (page := s.hearth[h].pstk.toNat) (o := o + 2 * k) (j := 2 * k) (by omega)
      (by omega) (by omega) (by omega) (Sparse.get 0 s.hearth[h].phys (blockReg b k))
    have hnext (a : Nat) : a + 2 * k + 2 = a + 2 * (k + 1) := by omega
    rw [State.spill, hword, hmod, hw, Hearth.blockWords_succ, State.putWords_cons, hnext]
    exact ih (k := k + 1) (hs.putWord _ _ _) hpage (by omega)

theorem spill_record {b : Nat} (hs : s.Served (hearthMaster h) .write (s.hearth[h].pstk.toNat * 65536 + o) 16)
    (hpage : s.hearth[h].pstk.toNat < 0x100) (heven : o % 2 = 0) (hoff : o + 16 ≤ 65536) :
    s.spill h b o 8 =
      (s.putWords (hearthMaster h) (s.hearth[h].pstk.toNat * 65536 + o) (s.hearth[h].blockWords b 0 8), .ok ()) := by
  simpa only [Nat.mul_zero, Nat.add_zero] using spill_served (b := b) (k := 0) hs hpage heven hoff rfl

/-- The words of a record from an address on. -/
def Memory.words (mem : List Host.Cell) (a : Nat) : Nat → List Word
  | 0 => []
  | n + 1 => Memory.word mem a :: Memory.words mem (a + 2) n

theorem Memory.length_words (mem : List Host.Cell) (a n : Nat) : (Memory.words mem a n).length = n := by
  induction n generalizing a with
  | zero => rfl
  | succ n ih => simp [Memory.words, ih]

theorem Memory.getElem_words (mem : List Host.Cell) (a n j : Nat) (hj : j < (Memory.words mem a n).length) :
    (Memory.words mem a n)[j] = Memory.word mem (a + 2 * j) := by
  induction n generalizing a j with
  | zero => simp [Memory.words] at hj
  | succ n ih =>
    cases j with
    | zero => rfl
    | succ j =>
      simp only [Memory.words, List.getElem_cons_succ]
      rw [ih, show a + 2 + 2 * j = a + 2 * (j + 1) by omega]

/-- A fill whose record is served reads its words in their order, here those from word `k` on, and leaves the state as
it is. -/
theorem fill_served {k : Nat} (hs : s.Served (hearthMaster h) .read (s.hearth[h].pstk.toNat * 65536 + o) 16)
    (hpage : s.hearth[h].pstk.toNat < 0x100) (heven : o % 2 = 0) (hoff : o + 16 ≤ 65536) (hk : k + n = 8) :
    s.fill h o n = (s, .ok (Memory.words s.bank.mem (s.hearth[h].pstk.toNat * 65536 + o + 2 * k) n)) := by
  induction n generalizing k with
  | zero => rfl
  | succ n ih =>
    have hword : 7 - n = k := by omega
    have hmod : (o + 2 * k) % 65536 = o + 2 * k := by omega
    have hr := hs.readMem (page := s.hearth[h].pstk.toNat) (o := o + 2 * k) (j := 2 * k) (by omega)
      (by omega) (by omega) (by omega)
    have hnext (a : Nat) : a + 2 * k + 2 = a + 2 * (k + 1) := by omega
    rw [State.fill, hword, hmod, hr]
    simp only [HRes.bind, ih (k := k + 1) (by omega), wordOf_toNat, Memory.words, hnext, Nat.add_assoc]

theorem fill_record (hs : s.Served (hearthMaster h) .read (s.hearth[h].pstk.toNat * 65536 + o) 16)
    (hpage : s.hearth[h].pstk.toNat < 0x100) (heven : o % 2 = 0) (hoff : o + 16 ≤ 65536) :
    s.fill h o 8 = (s, .ok (Memory.words s.bank.mem (s.hearth[h].pstk.toNat * 65536 + o) 8)) := by
  simpa only [Nat.mul_zero, Nat.add_zero] using fill_served (k := 0) hs hpage heven hoff rfl

/-- A key inside the span of consecutive writes reads what they have written there. -/
theorem Sparse.get_setAll_inside {α : Type} [DecidableEq α] (d : α) (t : Sparse α) (k : Nat) (xs : List α) {j : Nat}
    (hj : j < xs.length) : Sparse.get d (t.setAll d k xs) (k + j) = xs[j] := by
  have hall := Sparse.getAll_setAll d t k xs
  have hlen : j < (Sparse.getAll d (t.setAll d k xs) k xs.length).length := by rw [hall]; exact hj
  rw [← Sparse.getElem_getAll d _ k xs.length j hlen]
  simp only [hall]

end Records

/-- A hearth whose MODE bit is 0 is in window mode (R307). -/
theorem not_flatMode {x : Hearth} (hfl : bit x.fl 8 = false) : ¬x.flatMode = true := by
  simp only [Hearth.flatMode, hfl, Bool.false_eq_true, not_false_eq_true]

/-! ## Calls (R302, R304, R333) -/

section Call

variable {s u v : State} {h : HearthId} {l : List Byte} {i : HInstr} {far : Bool} {f : Hearth → Hearth} {o : Word}
  {p : BitVec 10}

/-- A hearth whose call has saved where it returns to, before the window slides. -/
def Hearth.saved (x : Hearth) (i : HInstr) (far : Bool) : Hearth :=
  let y := x.put (reg0 15) (x.nextPc i)
  if far then y.put (reg0 14) (x.pcode.zeroExtend 16) else y

@[simp] theorem Hearth.put_pcode (x : Hearth) (r : Reg) (w : Word) : (x.put r w).pcode = x.pcode := by
  unfold Hearth.put
  split <;> rfl

@[simp] theorem Hearth.saved_pcode (x : Hearth) (i : HInstr) (far : Bool) : (x.saved i far).pcode = x.pcode := by
  cases far <;> simp [Hearth.saved]

@[simp] theorem Hearth.put_base (x : Hearth) (r : Reg) (w : Word) : (x.put r w).base = x.base := by
  unfold Hearth.put
  split <;> rfl

@[simp] theorem Hearth.saved_base (x : Hearth) (i : HInstr) (far : Bool) : (x.saved i far).base = x.base := by
  cases far <;> simp [Hearth.saved]

theorem doCall_flat (hfl : bit u.hearth[h].fl 8 = true) :
    u.doCall h i far f o = (u.mapHearth h fun x => f (x.saved i far), .ok (some o)) :=
  if_pos hfl

theorem doCall_slide (hfl : bit u.hearth[h].fl 8 = false) (hres : u.hearth[h].res < 30) :
    u.doCall h i far f o = (u.mapHearth h fun x => f { x.saved i far with
      base := ((x.saved i far).base + 1) % 31, res := x.res + 1 }, .ok (some o)) :=
  (if_neg (not_flatMode hfl)).trans (if_pos hres)

theorem doCall_wstk (hfl : bit u.hearth[h].fl 8 = false) (hres : 30 ≤ u.hearth[h].res)
    (hlim : u.hearth[h].wsp.toNat < u.hearth[h].wslim.toNat + 16) :
    u.doCall h i far f o = (u, .error (.trap 6 u.hearth[h].wsp.toNat)) :=
  (if_neg (not_flatMode hfl)).trans ((if_neg (by omega)).trans (if_pos (by omega)))

/-- A call with 30 resident frames spills the oldest one's block below WSP. -/
theorem doCall_spill (hfl : bit u.hearth[h].fl 8 = false) (hres : 30 ≤ u.hearth[h].res)
    (hlim : u.hearth[h].wslim.toNat + 16 ≤ u.hearth[h].wsp.toNat)
    (hspill : u.spill h (u.hearth[h].base + 2) (u.hearth[h].wsp.toNat - 16) 8 = (v, .ok ())) :
    u.doCall h i far f o = (v.mapHearth h fun x => f { x.saved i far with
      base := ((x.saved i far).base + 1) % 31, wsp := u.hearth[h].wsp - 16 }, .ok (some o)) := by
  have hwsp : u.hearth[h].wsp - 16 = wordOf (u.hearth[h].wsp.toNat - 16) 0 := by
    unfold wordOf
    bv_omega
  rw [hwsp]
  refine (if_neg (not_flatMode hfl)).trans ((if_neg (by omega)).trans ((if_neg (by omega)).trans ?_))
  dsimp only
  rw [hspill]
  rfl

/-- A call that goes to `p`:`o`: it is carried out as a call with `f` done to its hearth after the window has slid, and
`f` sets PCODE (R333). -/
structure State.CallsTo (u : State) (h : HearthId) (i : HInstr) (far : Bool) (f : Hearth → Hearth) (p : BitVec 10)
    (o : Word) : Prop where
  transfer : i.op.isTransfer = true
  exec : u.hexec h i = u.doCall h i far f o
  page : ∀ y : Hearth, y.pcode = u.hearth[h].pcode → f y = { y with pcode := p }

/-- The four calls (R333). -/
theorem callsTo_of_form {a b : Reg} {d : Word}
    (hcall :
      i.op = .longJump ∧ i.form = .rel 14 true d ∧ far = false ∧ p = u.hearth[h].pcode ∧
          o = u.hearth[h].nextPc i + d ∨
      i.op = .callr ∧ i.form = .one a ∧ far = false ∧ p = u.hearth[h].pcode ∧ o = u.hearth[h].get a ∨
      i.op = .callfr ∧ i.form = .rr a b ∧ far = true ∧ p = (u.hearth[h].get a).truncate 10 ∧
          o = u.hearth[h].get b ∨
      i.op = .callf ∧ i.form = .far p o ∧ far = true) :
    ∃ f, u.CallsTo h i far f p o := by
  rcases hcall with ⟨hop, hform, rfl, rfl, rfl⟩ | ⟨hop, hform, rfl, rfl, rfl⟩ | ⟨hop, hform, rfl, rfl, rfl⟩ |
    ⟨hop, hform, rfl⟩
  · have hx : u.hexec h i = u.doCall h i false (fun y => y) (u.hearth[h].nextPc i + d) := by
      simp only [State.hexec, State.doRel, hop, hform, if_true]
    exact ⟨_, by rw [hop]; rfl, hx, fun y hy => by rw [← hy]⟩
  · have hx : u.hexec h i = u.doCall h i false (fun y => y) (u.hearth[h].get a) := by
      simp only [State.hexec, State.doRegJump, hop, hform, if_true]
    exact ⟨_, by rw [hop]; rfl, hx, fun y hy => by rw [← hy]⟩
  · have hx : u.hexec h i = u.doCall h i true (fun y => { y with pcode := (u.hearth[h].get a).truncate 10 })
        (u.hearth[h].get b) := by
      simp only [State.hexec, State.doRegJump, hop, hform, if_true]
    exact ⟨_, by rw [hop]; rfl, hx, fun _ _ => rfl⟩
  · have hx : u.hexec h i = u.doCall h i true (fun y => { y with pcode := p }) o := by
      simp only [State.hexec, State.doFar, hop, hform, if_true]
    exact ⟨_, by rw [hop]; rfl, hx, fun _ _ => rfl⟩

/-- A call that is carried out as `g` gives it retires at its target. -/
theorem State.CallsTo.runInstr (hs : s.hearthAt h l u i) (hc : u.CallsTo h i far f p o) {g : Hearth → Hearth}
    (hx : u.doCall h i far f o = (v.mapHearth h fun x => f (g x), .ok (some o))) (hv : v.hearth = u.hearth)
    (hg : (g u.hearth[h]).pcode = u.hearth[h].pcode) :
    u.runInstr h l i = { v with hearth := u.hearth.set h { g u.hearth[h] with
      pcode := p, pc := o, rep := [], resume := false } } := by
  rw [runInstr_transfer_ok hs hc.transfer (hc.exec.trans hx), retire_mapHearth, hv, hc.page _ hg]

end Call

/-! ## Returns (R303, R304) -/

section Return

variable {s u v : State} {h : HearthId} {l : List Byte} {i : HInstr} {far : Bool}

/-- A hearth after a return to the page in `w`: a near one stays in its page. -/
def Hearth.paged (x : Hearth) (far : Bool) (w : Word) : Hearth := if far then { x with pcode := w.truncate 10 } else x

theorem doRet_flat (hfl : bit u.hearth[h].fl 8 = true) :
    u.doRet h far = (u.mapHearth h fun x => x.paged far (u.hearth[h].get (reg0 14)),
      .ok (some (u.hearth[h].get (reg0 15)))) :=
  if_pos hfl

theorem doRet_slide (hfl : bit u.hearth[h].fl 8 = false) (hres : 1 < u.hearth[h].res) :
    u.doRet h far = (u.mapHearth h fun x => { x.paged far (u.hearth[h].get (reg0 6)) with
      base := (x.base + 30) % 31, res := x.res - 1 }, .ok (some (u.hearth[h].get (reg0 7)))) := by
  cases far <;> exact (if_neg (not_flatMode hfl)).trans (if_pos hres)

theorem doRet_wstk (hfl : bit u.hearth[h].fl 8 = false) (hres : u.hearth[h].res ≤ 1)
    (hstop : u.hearth[h].wsp = u.reg (hrtOff h.val + 0x14) &&& 0xFFFE) :
    u.doRet h far = (u, .error (.trap 6 u.hearth[h].wsp.toNat)) :=
  (if_neg (not_flatMode hfl)).trans ((if_neg (by omega)).trans (if_pos hstop))

/-- A return with one resident frame fills the block below it from the record at WSP. -/
theorem doRet_fill {ws : List Word} (hfl : bit u.hearth[h].fl 8 = false) (hres : u.hearth[h].res ≤ 1)
    (hstop : u.hearth[h].wsp ≠ u.reg (hrtOff h.val + 0x14) &&& 0xFFFE)
    (hfill : u.fill h u.hearth[h].wsp.toNat 8 = (v, .ok ws)) :
    u.doRet h far = (v.mapHearth h fun x => { x.paged far (u.hearth[h].get (reg0 6)) with
      base := (x.base + 30) % 31, wsp := x.wsp + 16
      phys := Sparse.setAll 0 x.phys (blockReg (x.base + 30) 0) ws }, .ok (some (u.hearth[h].get (reg0 7)))) := by
  cases far <;>
  · refine (if_neg (not_flatMode hfl)).trans ((if_neg (by omega)).trans ((if_neg hstop).trans ?_))
    dsimp only
    rw [hfill]
    rfl

end Return

/-! ## The clauses of the statement on transfers -/

section Transfers

variable {s u : State} {h : HearthId} {l : List Byte} {i : HInstr}

/-- A conditional transfer goes to its target where its condition holds (R323, R333). -/
theorem exec_conditional {cond : Nat} {d : Word} (hs : s.hearthAt h l u i) (hop : i.op = .jcc ∨ i.op = .longJump)
    (hform : i.form = .rel cond false d) :
    exec (hearthCmd h i.op) s = .next { u with hearth := u.hearth.set h { u.hearth[h] with
      pc := if condHolds cond u.hearth[h].fl u.hearth[h].cnt then u.hearth[h].nextPc i + d else u.hearth[h].nextPc i
      rep := [], resume := false } } := by
  have ht : i.op.isTransfer = true := by rcases hop with hop | hop <;> rw [hop] <;> rfl
  have hrel : u.hexec h i = u.doRel h i := by rcases hop with hop | hop <;> simp only [State.hexec, hop]
  by_cases hc : condHolds cond u.hearth[h].fl u.hearth[h].cnt = true
  · have hx : u.hexec h i = (u, .ok (some (u.hearth[h].nextPc i + d))) := by
      simp only [hrel, State.doRel, hform, hc, if_true, Bool.false_eq_true, if_false]
    rw [exec_of_hearthAt hs, runInstr_transfer_ok hs ht hx, if_pos hc]
    rfl
  · have hx : u.hexec h i = (u, .ok none) := by
      simp only [hrel, State.doRel, hform, hc, Bool.false_eq_true, if_false]
    rw [exec_of_hearthAt hs, runInstr_transfer_ok hs ht hx, if_neg hc]
    rfl

/-- An odd condition is the negation of the even one below it (R323). -/
theorem condHolds_odd {cond : Nat} (hlt : cond < 14) (hodd : cond % 2 = 1) (fl cnt : Word) :
    condHolds cond fl cnt = !condHolds (cond - 1) fl cnt := by
  have hcond : cond = 1 ∨ cond = 3 ∨ cond = 5 ∨ cond = 7 ∨ cond = 9 ∨ cond = 11 ∨ cond = 13 := by omega
  rcases hcond with rfl | rfl | rfl | rfl | rfl | rfl | rfl <;> simp [condHolds, bne]

/-- An unconditional jump sets PC, and a far one PCODE with it (R333). -/
theorem exec_jump {a b : Reg} {p : BitVec 10} {o : Word} (hs : s.hearthAt h l u i)
    (hjump : i.op = .jmpr ∧ i.form = .one a ∧ p = u.hearth[h].pcode ∧ o = u.hearth[h].get a ∨
      i.op = .jmpfr ∧ i.form = .rr a b ∧ p = (u.hearth[h].get a).truncate 10 ∧ o = u.hearth[h].get b ∨
      i.op = .jmpf ∧ i.form = .far p o) :
    exec (hearthCmd h i.op) s = .next { u with hearth := u.hearth.set h { u.hearth[h] with
      pcode := p, pc := o, rep := [], resume := false } } := by
  rcases hjump with ⟨hop, hform, rfl, rfl⟩ | hfar
  · have hx : u.hexec h i = (u, .ok (some (u.hearth[h].get a))) := by simp [State.hexec, State.doRegJump, hop, hform]
    rw [exec_of_hearthAt hs, runInstr_transfer_ok hs (by rw [hop]; rfl) hx]
    rfl
  · have ⟨ht, hx⟩ : i.op.isTransfer = true ∧
        u.hexec h i = (u.mapHearth h fun x => { x with pcode := p }, .ok (some o)) := by
      rcases hfar with ⟨hop, hform, rfl, rfl⟩ | ⟨hop, hform⟩
      · exact ⟨by rw [hop]; rfl, by simp [State.hexec, State.doRegJump, hop, hform]⟩
      · exact ⟨by rw [hop]; rfl, by simp [State.hexec, State.doFar, hop, hform]⟩
    rw [exec_of_hearthAt hs, runInstr_transfer_ok hs ht hx, retire_mapHearth]

/-- What a call with 30 resident frames leaves where the record of the oldest one is served (R302, R304). -/
theorem State.CallsTo.runInstr_spill {far : Bool} {f : Hearth → Hearth} {p : BitVec 10} {o : Word}
    (hs : s.hearthAt h l u i) (hc : u.CallsTo h i far f p o) (hfl : bit u.hearth[h].fl 8 = false)
    (hres : 30 ≤ u.hearth[h].res) (hlim : u.hearth[h].wslim.toNat + 16 ≤ u.hearth[h].wsp.toNat)
    (hpage : u.hearth[h].pstk.toNat < 0x100) (heven : (u.hearth[h].wsp.toNat - 16) % 2 = 0)
    (hserves : u.bankServes (hearthMaster h) .write
      (u.hearth[h].pstk.toNat * 65536 + (u.hearth[h].wsp.toNat - 16)) 16) :
    u.runInstr h l i = { u.putWords (hearthMaster h)
        (u.hearth[h].pstk.toNat * 65536 + (u.hearth[h].wsp.toNat - 16))
        (u.hearth[h].blockWords (u.hearth[h].base + 2) 0 8) with
      hearth := u.hearth.set h { u.hearth[h].saved i far with
        base := (u.hearth[h].base + 1) % 31, wsp := u.hearth[h].wsp - 16, pcode := p, pc := o, rep := []
        resume := false } } := by
  have hwsp := u.hearth[h].wsp.isLt
  have hspill := spill_record (b := u.hearth[h].base + 2) (.of_bankServes hserves) hpage heven (by omega)
  rw [hc.runInstr hs (doCall_spill hfl hres hlim hspill) (State.putWords_hearth ..) (Hearth.saved_pcode ..),
    Hearth.saved_base]

theorem hexec_ret (hop : i.op = .ret ∨ i.op = .retf) :
    i.op.isTransfer = true ∧ u.hexec h i = u.doRet h (i.op == .retf) := by
  rcases hop with hop | hop <;> rw [State.hexec, hop] <;> exact ⟨rfl, rfl⟩

/-- What a return with one resident frame leaves where the record at WSP is served (R303, R304). -/
theorem runInstr_fill (hs : s.hearthAt h l u i) (hop : i.op = .ret ∨ i.op = .retf)
    (hfl : bit u.hearth[h].fl 8 = false) (hres : u.hearth[h].res ≤ 1)
    (hstop : u.hearth[h].wsp ≠ u.reg (hrtOff h.val + 0x14) &&& 0xFFFE)
    (hpage : u.hearth[h].pstk.toNat < 0x100) (heven : u.hearth[h].wsp.toNat % 2 = 0)
    (hoff : u.hearth[h].wsp.toNat ≤ 65520)
    (hserves : u.bankServes (hearthMaster h) .read (u.hearth[h].pstk.toNat * 65536 + u.hearth[h].wsp.toNat) 16) :
    u.runInstr h l i = { u with
      hearth := u.hearth.set h { u.hearth[h].paged (i.op == .retf) (u.hearth[h].get (reg0 6)) with
        base := (u.hearth[h].base + 30) % 31, wsp := u.hearth[h].wsp + 16
        phys := Sparse.setAll 0 u.hearth[h].phys (blockReg (u.hearth[h].base + 30) 0)
          (Memory.words u.bank.mem (u.hearth[h].pstk.toNat * 65536 + u.hearth[h].wsp.toNat) 8)
        pc := u.hearth[h].get (reg0 7), rep := [], resume := false } } := by
  obtain ⟨htransfer, hx⟩ := hexec_ret (u := u) (h := h) hop
  have hfill := fill_record (.of_bankServes hserves) hpage heven (by omega)
  rw [runInstr_transfer_ok hs htransfer (hx.trans (doRet_fill hfl hres hstop hfill)), retire_mapHearth]

theorem paged_retf (x : Hearth) (w : Word) :
    x.paged (i.op == .retf) w = if i.op = .retf then { x with pcode := w.truncate 10 } else x := by
  simp only [Hearth.paged, beq_iff_eq]

/-- The ring after a fill: the block holds the words of the record, every other register is as before (R303, R304). -/
theorem get_filled (t : Sparse Word) (mem : List Host.Cell) (k a n : Nat) :
    Sparse.get 0 (Sparse.setAll 0 t k (Memory.words mem a 8)) n =
      if k ≤ n ∧ n < k + 8 then Memory.word mem (a + 2 * (n - k)) else Sparse.get 0 t n := by
  have hlen := Memory.length_words mem a 8
  split
  next hn =>
    have hj : n - k < (Memory.words mem a 8).length := by omega
    have hset := Sparse.get_setAll_inside 0 t k (Memory.words mem a 8) hj
    rwa [Nat.add_sub_cancel' hn.1, Memory.getElem_words] at hset
  next hn => exact Sparse.get_setAll_outside 0 t k _ (by omega)

end Transfers

/-- Settles O36: a transfer is never repeated, so it retires at its target once it has saved, slid, spilled or filled; a
spill or a fill whose record is served is eight words of bank memory one after the other. -/
theorem hearthTransfers : Obligations.HearthTransfers := by
  unfold Obligations.HearthTransfers
  refine ⟨fun h l u i cond d s hs hop hform => exec_conditional hs hop hform, fun cond fl cnt => ?conditions,
    fun h l u i a b p o s hs hjump => exec_jump hs hjump, fun h l u i a b d far p o s hs hcall => ?call,
    fun h l u i s hs hop => ?ret⟩
  case conditions =>
    refine ⟨?_, ?_, ?_, ?_, ?_, ?_, ?_, ?_, ?_, fun hlt hodd => condHolds_odd hlt hodd fl cnt⟩
    all_goals rintro rfl; rfl
  case call =>
    obtain ⟨f, hc⟩ := callsTo_of_form hcall
    refine ⟨u.runInstr h l i, exec_of_hearthAt hs, fun hfl => ?_, fun hfl hres => ?_, fun hfl hres hlim => ?_,
      fun hfl hres hlim hpage heven hserves => ?_⟩
    · exact hc.runInstr hs (doCall_flat hfl) rfl (Hearth.saved_pcode ..)
    · rw [hc.runInstr hs (doCall_slide hfl hres) rfl (Hearth.saved_pcode ..), Hearth.saved_base]
      rfl
    · exact runInstr_transfer_error hs hc.transfer (hc.exec.trans (doCall_wstk hfl hres hlim))
    · have ht := hc.runInstr_spill hs hfl hres hlim hpage heven hserves
      rw [ht]
      refine ⟨fun k hk => ?_, fun c hout => ?_, ?_⟩
      · exact (State.word_putWords _ _ _ _ (by rwa [Hearth.length_blockWords])).trans (Sparse.getElem_getAll ..)
      · exact State.byte_putWords_outside _ _ _ _ (by rwa [Hearth.length_blockWords])
      · exact State.putWords_frame_hearth ..
  case ret =>
    obtain ⟨htransfer, hx⟩ := hexec_ret (u := u) (h := h) hop
    refine ⟨u.runInstr h l i, exec_of_hearthAt hs, fun hfl => ?_, fun hfl hres => ?_, fun hfl hres hstop => ?_,
      fun hfl hres hstop hpage heven hoff hserves => ?_⟩
    · rw [runInstr_transfer_ok hs htransfer (hx.trans (doRet_flat hfl)), retire_mapHearth, paged_retf, if_pos hfl]
      rfl
    · rw [runInstr_transfer_ok hs htransfer (hx.trans (doRet_slide hfl hres)), retire_mapHearth, paged_retf]
      simp only [hfl]
      rfl
    · exact runInstr_transfer_error hs htransfer (hx.trans (doRet_wstk hfl hres hstop))
    · have ht := runInstr_fill hs hop hfl hres hstop hpage heven hoff hserves
      rw [paged_retf] at ht
      have hphys : (u.runInstr h l i).hearth[h].phys = Sparse.setAll 0 u.hearth[h].phys
          (blockReg (u.hearth[h].base + 30) 0) (Memory.words u.bank.mem
            (u.hearth[h].pstk.toNat * 65536 + u.hearth[h].wsp.toNat) 8) := by
        rw [ht]
        simp only [Fin.getElem_fin, Vector.getElem_set_self]
      rw [hphys]
      refine ⟨fun n _ => (get_filled ..).trans ?_, ht.trans ?_⟩
      · have hblock : blockReg (u.hearth[h].base + 30) 0 = 8 + 8 * ((u.hearth[h].base + 30) % 31) := rfl
        have hend (b : Nat) : 8 + 8 * b + 8 = 16 + 8 * b := by omega
        rw [hblock, hend]
      · simp only [hfl]
        rfl

end Sys2Proof.Machine
end

section
/-! PROOFS. Multiplication, division, shifts and rotates of a hearth (R322, R324 to R327, R330): what an instruction
that changes its own hearth leaves, the flags of a result, the values of the arithmetic, and the statement itself. -/

namespace Sys2Proof.Machine

open Sys2Proof

/-! ## The flags of a result (R307, R324) -/

theorem bit_bitMask {i k : Nat} (hk : k < 16) : bit (bitMask i) k = decide (i = k) := by
  rw [bit, bitMask, BitVec.getLsbD_ofNat, Nat.testBit_two_pow, decide_eq_true hk, Bool.true_and]

theorem bit_setBit (w : Word) (i : Nat) (b : Bool) {k : Nat} (hk : k < 16) :
    bit (setBit w i b) k = if i = k then b else bit w k := by
  have hmask : BitVec.getLsbD (bitMask i) k = decide (i = k) := bit_bitMask hk
  by_cases hi : i = k
  · cases b <;> simp [-BitVec.getLsbD_eq_getElem, bit, setBit, hmask, hk, if_pos hi, decide_eq_true hi]
  · cases b <;> simp [-BitVec.getLsbD_eq_getElem, bit, setBit, hmask, hk, hi]

/-- An operation that writes the four flags; what it writes to V also sets OVS. -/
theorem flagsSet_full (fl : Word) (w x : Nat) (c v : Bool) :
    flagsSet fl ((Alu.full w x c v).flags fl) c (x % 2 ^ w == 0) (x.testBit (w - 1)) v := by
  cases v <;> simp +contextual [flagsSet, Alu.flags, Alu.full, Alu.zn, setFlag, bit_setBit, eq_comm]

/-- The flags of a result that is a word. -/
theorem flagsSet_word (fl q : Word) (c v : Bool) :
    flagsSet fl ((Alu.full 16 q.toNat c v).flags fl) c (q == 0) q.msb v := by
  have hz : (q.toNat % 2 ^ 16 == 0) = (q == 0) := by
    rw [Nat.mod_eq_of_lt q.isLt, Bool.eq_iff_iff, beq_iff_eq, beq_iff_eq, BitVec.toNat_eq]
    rfl
  have hn : q.toNat.testBit (16 - 1) = q.msb := by rw [BitVec.msb_eq_getLsbD_last]; rfl
  rw [← hz, ← hn]
  exact flagsSet_full fl 16 q.toNat c v

/-- Only the low bits of a value count. -/
theorem Alu.full_mod {w : Nat} (hw : 0 < w) (x : Nat) (c v : Bool) : Alu.full w (x % 2 ^ w) c v = Alu.full w x c v := by
  have hn : (x % 2 ^ w).testBit (w - 1) = x.testBit (w - 1) := by simp [Nat.testBit_mod_two_pow, hw]
  simp only [Alu.full, Alu.zn, Nat.mod_mod, hn]

/-! ## An instruction that changes its own hearth (R292, R328) -/

section Instruction

variable {s u : State} {h : HearthId} {l : List Byte} {i : HInstr} {a b : Reg} {y : Hearth}

@[simp] theorem Hearth.put_pc (x : Hearth) (r : Reg) (w : Word) : (x.put r w).pc = x.pc := by
  unfold Hearth.put
  split <;> rfl

@[simp] theorem Hearth.put_fl (x : Hearth) (r : Reg) (w : Word) : (x.put r w).fl = x.fl := by
  unfold Hearth.put
  split <;> rfl

@[simp] theorem Hearth.setOperand_pc (x : Hearth) (wide : Bool) (r : Reg) (v : Nat) :
    (x.setOperand wide r v).pc = x.pc := by
  cases wide <;> simp [Hearth.setOperand]

@[simp] theorem Hearth.setOperand_fl (x : Hearth) (wide : Bool) (r : Reg) (v : Nat) :
    (x.setOperand wide r v).fl = x.fl := by
  cases wide <;> simp [Hearth.setOperand]

@[simp] theorem State.ran_fl : (u.ran h l i y).hearth[h].fl = y.fl := by simp [State.ran]

/-- An instruction that is not repeated passes to the next one. -/
theorem ran_once (hrep : i.pre.rep = .once) :
    u.ran h l i y = { u with hearth := u.hearth.set h { y with
      pc := y.pc + BitVec.ofNat 16 i.len, rep := [], resume := false } } := by
  simp [State.ran, hrep]

/-- A hearth after an iteration that left it as `y`: the repeat ends, or the next iteration is due (R328). -/
def Hearth.iterated (y : Hearth) (l : List Byte) (i : HInstr) : Hearth :=
  let z := { y with cnt := y.cnt - 1 }
  if z.repeatEnds i.pre.rep then { z with pc := z.pc + BitVec.ofNat 16 i.len, rep := [], resume := false }
  else { z with rep := l, resume := false }

theorem ran_repeated (hrep : i.pre.rep ≠ .once) :
    u.ran h l i y = { u with hearth := u.hearth.set h (y.iterated l i) } := by
  have hmore : (y.cnt - 1 != 0 && !(i.pre.rep == .rpteq && !bit y.fl 1) && !(i.pre.rep == .rptne && bit y.fl 1)) =
      !({ y with cnt := y.cnt - 1 } : Hearth).repeatEnds i.pre.rep := by
    cases i.pre.rep <;> simp [Hearth.repeatEnds, Hearth.flagZ, bne, beq_eq_decide]
  simp only [State.ran, hrep, decide_false, Bool.not_false, Bool.true_and, Bool.false_eq_true, if_false, hmore,
    Hearth.iterated]
  cases ({ y with cnt := y.cnt - 1 } : Hearth).repeatEnds i.pre.rep <;> rfl

/-- What an instruction does to its hearth counts at the hearth as it stands. -/
theorem commit_const (f : Hearth → Hearth) : u.commit h f = u.commit h fun _ => f u.hearth[h] := rfl

/-- One iteration of an instruction that leaves its hearth as `y`. -/
theorem runInstr_commit (hit : i.iterates u.hearth[h]) (htrap : i.op ≠ .trap)
    (hx : u.hexec h i = u.commit h fun _ => y) (hpc : y.pc = u.hearth[h].pc) :
    u.runInstr h l i = u.ran h l i y := by
  by_cases hrep : i.pre.rep = .once
  · simp [State.runInstr, htrap, hrep, hx, State.commit, State.retire, State.mapHearth, upd, hpc, ran_once]
  · have hcnt : u.hearth[h].cnt ≠ 0 := hit.resolve_left hrep
    simp only [State.runInstr, htrap, hrep, hcnt, hx, State.commit, and_false, if_false, ran_repeated hrep]
    simp only [Hearth.iterated, State.retire, State.mapHearth, upd, Fin.getElem_fin, Vector.getElem_set_self,
      Vector.set_set, hpc]
    split <;> rfl

/-- Such an instruction under the command of its operation. -/
theorem exec_commit (hs : s.hearthAt h l u i) (hit : i.iterates u.hearth[h]) (htrap : i.op ≠ .trap)
    (hx : u.hexec h i = u.commit h fun _ => y) (hpc : y.pc = u.hearth[h].pc) :
    exec (hearthCmd h i.op) s = .next (u.ran h l i y) := by
  rw [exec_of_hearthAt hs, runInstr_commit hit htrap hx hpc]

/-- An instruction that leaves its hearth as `y` with the flags `fl`. -/
theorem exec_commit_flags {fl : Word} (hs : s.hearthAt h l u i) (hit : i.iterates u.hearth[h]) (htrap : i.op ≠ .trap)
    (hx : u.hexec h i = u.commit h fun _ => { y with fl := fl }) (hpc : y.pc = u.hearth[h].pc) :
    ∃ t, exec (hearthCmd h i.op) s = .next t ∧ t.hearth[h].fl = fl ∧
      t = u.ran h l i { y with fl := t.hearth[h].fl } := by
  refine ⟨_, exec_commit hs hit htrap hx hpc, State.ran_fl, ?_⟩
  rw [State.ran_fl]

/-- An instruction that writes `r` to its register operand, and the four flags. -/
theorem exec_result {r : Nat} {wide c v : Bool} (hs : s.hearthAt h l u i) (hit : i.iterates u.hearth[h])
    (htrap : i.op ≠ .trap) (hr : r < 2 ^ opBits wide)
    (hx : u.hexec h i = u.commit h fun _ => u.hearth[h].result wide a (Alu.full (opBits wide) r c v)) :
    ∃ t, exec (hearthCmd h i.op) s = .next t ∧
      flagsSet u.hearth[h].fl t.hearth[h].fl c (r == 0) (r.testBit (opBits wide - 1)) v ∧
      t = u.ran h l i { u.hearth[h].setOperand wide a r with fl := t.hearth[h].fl } := by
  have hval : (Alu.full (opBits wide) r c v).val = r := Nat.mod_eq_of_lt hr
  rw [Hearth.result, hval] at hx
  obtain ⟨t, hexec, hfl, ht⟩ := exec_commit_flags hs hit htrap hx (Hearth.setOperand_pc ..)
  have hflags := flagsSet_full u.hearth[h].fl (opBits wide) r c v
  rw [Nat.mod_eq_of_lt hr, ← hfl] at hflags
  exact ⟨t, hexec, hflags, ht⟩

/-- What a quotient and a remainder leave, but for the flags (R326). -/
theorem divided_words (x : Hearth) (a : Reg) (q r : Word) (v : Bool) :
    x.divided a q.toNat r.toNat v =
      { (x.put a q).put a.next r with fl := (Alu.full 16 q.toNat false v).flags x.fl } := by
  simp only [Hearth.divided, wordOf_toNat]

/-- An instruction that takes no WIDE is decoded without it (R322, R330). -/
theorem not_wide_of_rr (hs : s.hearthAt h l u i) (hform : i.form = .rr a b) (hw : acceptsWide i.op = false) :
    i.pre.wide = false := by
  obtain ⟨-, -, -, -, hd⟩ := hs
  obtain ⟨-, -, hpre, -⟩ := hdecode_ok hd
  simp only [prefixAccepted, hform, hw, Bool.or_false, Bool.and_eq_true, Bool.not_eq_true'] at hpre
  obtain ⟨⟨⟨-, hwide⟩, -⟩, -⟩ := hpre
  exact hwide

end Instruction

/-! ## Values (R325 to R327, R330) -/

/-- A number of `n` bits read in two's complement. -/
theorem asInt_eq_toInt {n : Nat} (hn : 0 < n) (x : Nat) : asInt x n = (BitVec.ofNat n x).toInt := by
  have hpow : 2 * 2 ^ (n - 1) = 2 ^ n := mul_pow_sub_one (by omega) 2
  simp only [asInt, BitVec.toInt_eq_toNat_cond, BitVec.toNat_ofNat]
  congr 1
  exact propext (by omega)

theorem asInt_toNat (w : Word) : asInt w.toNat 16 = w.toInt := by
  rw [asInt_eq_toInt (by omega), BitVec.ofNat_toNat, BitVec.setWidth_eq]

theorem ofInt_eq_toNat (x : Int) (n : Nat) : ofInt x n = (BitVec.ofInt n x).toNat :=
  (BitVec.toNat_ofInt x).symm

theorem ofInt_mod (x : Int) {m n : Nat} (hmn : m ≤ n) : ofInt x n % 2 ^ m = ofInt x m := by
  have hdvd : ((2 ^ m : Nat) : Int) ∣ (2 ^ n : Nat) := Int.natCast_dvd_natCast.2 (Nat.pow_dvd_pow 2 hmn)
  have hpos (k : Nat) : 0 ≤ x % ((2 ^ k : Nat) : Int) := Int.emod_nonneg x (by positivity)
  apply Int.natCast_inj.1
  rw [ofInt, ofInt, Int.natCast_mod, Int.toNat_of_nonneg (hpos n), Int.toNat_of_nonneg (hpos m),
    Int.emod_emod_of_dvd x hdvd]

/-- An unsigned division (R326). -/
theorem divide_unsigned (d e : Word) : divide false d.toNat e.toNat = ((d / e).toNat, (d % e).toNat, false) := rfl

/-- A signed division truncates toward zero, and the remainder takes the sign of the dividend (R326). -/
theorem divide_signed (d e : Word) :
    divide true d.toNat e.toNat = ((d.sdiv e).toNat, (d.srem e).toNat, d == 0x8000 && e == 0xFFFF) := by
  have hq : BitVec.ofInt 16 (d.toInt.tdiv e.toInt) = d.sdiv e :=
    BitVec.eq_of_toInt_eq (by rw [BitVec.toInt_ofInt, BitVec.toInt_sdiv])
  have hr : BitVec.ofInt 16 (d.toInt.tmod e.toInt) = d.srem e := by
    rw [← BitVec.toInt_srem, BitVec.ofInt_toInt]
  have hv (w k : Word) : (w.toNat == k.toNat) = (w == k) := by
    rw [Bool.eq_iff_iff, beq_iff_eq, beq_iff_eq, BitVec.toNat_inj]
  simp only [divide, asInt_toNat, ofInt_eq_toNat, hq, hr, if_true]
  rw [← hv d, ← hv e]
  rfl

/-- The quotient and the remainder of a division by zero (R326). -/
theorem divideZero_words (signed : Bool) (d : Word) :
    divideZero signed d.toNat =
      ((if signed then if d.msb then 0x8000 else 0x7FFF else 0xFFFF : Word).toNat, d.toNat) := by
  cases signed
  · rfl
  · have hmsb : d.msb = decide (0x8000 ≤ d.toNat) := BitVec.msb_eq_decide d
    by_cases hd : 0x8000 ≤ d.toNat <;> simp [divideZero, hmsb, ← Nat.not_le, hd]

/-- MUL: C beyond 16 bits unsigned, V beyond 16 bits signed (R325). -/
theorem aluMul_words (d e : Word) :
    aluMul d.toNat e.toNat = Alu.full (opBits false) (d.toNat * e.toNat % 65536) (decide (65536 ≤ d.toNat * e.toNat))
      (decide (d.toInt * e.toInt < -32768) || decide (32767 < d.toInt * e.toInt)) := by
  have hmod := Alu.full_mod (w := 16) (by omega) (d.toNat * e.toNat) (decide (65536 ≤ d.toNat * e.toNat))
    (outside 16 (d.toInt * e.toInt))
  rw [aluMul, asInt_toNat, asInt_toNat, ← hmod]
  rfl

theorem low_word_lt (p : Nat) : p % 65536 < 2 ^ opBits false := Nat.mod_lt p (by omega)

theorem testBit_low_word (p : Nat) : (p % 65536).testBit (opBits false - 1) = p.testBit 15 := by
  have hbit := Nat.testBit_mod_two_pow p 16 15
  rwa [decide_eq_true (by omega), Bool.true_and] at hbit

theorem setOperand_low_word (x : Hearth) (a : Reg) (p : Nat) :
    x.setOperand false a (p % 65536) = x.put a (BitVec.ofNat 16 p) := by
  have hw : wordOf (p % 65536) 0 = BitVec.ofNat 16 p := BitVec.eq_of_toNat_eq (by simp [wordOf])
  rw [← hw]
  rfl

/-- The product of MULHU and MULHS in 32 bits (R322, R330). -/
def product (signed : Bool) (d e : Word) : BitVec 32 :=
  if signed then BitVec.ofInt 32 (d.toInt * e.toInt) else BitVec.ofNat 32 (d.toNat * e.toNat)

/-- The operand that MULHU and MULHS write: the high word, or with WIDE all of the product. -/
def highPart (wide : Bool) (p : BitVec 32) : Nat := if wide then p.toNat else p.toNat / 65536

theorem aluMulh_eq (wide signed : Bool) (d e : Word) :
    aluMulh wide signed d.toNat e.toNat =
      Alu.full (opBits wide) (highPart wide (product signed d e)) false false := by
  have hp : (if signed then ofInt (asInt d.toNat 16 * asInt e.toNat 16) 32 else d.toNat * e.toNat) =
      (product signed d e).toNat := by
    cases signed
    · have hlt : d.toNat * e.toNat < 2 ^ 16 * 2 ^ 16 := Nat.mul_lt_mul'' d.isLt e.isLt
      exact (Nat.mod_eq_of_lt hlt).symm
    · simp only [product, asInt_toNat, ofInt_eq_toNat, if_true]
  cases wide <;> simp only [aluMulh, hp] <;> rfl

theorem highPart_lt (wide : Bool) (p : BitVec 32) : highPart wide p < 2 ^ opBits wide := by
  have hlt := p.isLt
  cases wide <;> simp only [highPart, opBits] <;> simp <;> omega

/-- N of MULHU and MULHS is the sign of the product. -/
theorem testBit_highPart (wide : Bool) (p : BitVec 32) : (highPart wide p).testBit (opBits wide - 1) = p.msb := by
  rw [BitVec.msb_eq_getLsbD_last]
  cases wide
  · exact Nat.testBit_div_two_pow (n := 16) p.toNat 15
  · rfl

/-! ### Shifts and rotates (R327) -/

theorem opBits_le (wide : Bool) : 0 < opBits wide ∧ opBits wide ≤ 32 := by cases wide <;> decide

theorem operand_lt (x : Hearth) (wide : Bool) (r : Reg) : x.operand wide r < 2 ^ opBits wide := by
  have hlo := (x.get r).isLt
  have hhi := (x.get r.next).isLt
  cases wide <;> simp only [Hearth.operand, opBits, ofWords] <;> simp <;> omega

/-- A left shift in 32 bits, cut to the operand. -/
theorem shl_value (w d k : Nat) (hw : w ≤ 32) :
    (BitVec.ofNat 32 d <<< k).toNat % 2 ^ w = Shift.value .shl w d k := by
  have hdvd : 2 ^ w ∣ 2 ^ 32 := Nat.pow_dvd_pow 2 hw
  rw [BitVec.toNat_shiftLeft, BitVec.toNat_ofNat, Nat.shiftLeft_eq, Nat.mod_mul_mod, Nat.mod_mod_of_dvd _ hdvd]
  rfl

theorem shr_value (w d k : Nat) (hw : w ≤ 32) (hd : d < 2 ^ w) :
    (BitVec.ofNat 32 d >>> k).toNat % 2 ^ w = Shift.value .shr w d k := by
  have hlt : d < 2 ^ 32 := hd.trans_le (Nat.pow_le_pow_right (by omega) hw)
  rw [BitVec.toNat_ushiftRight, BitVec.toNat_ofNat, Nat.mod_eq_of_lt hlt, Nat.shiftRight_eq_div_pow,
    Nat.mod_eq_of_lt ((Nat.div_le_self ..).trans_lt hd)]
  rfl

/-- An arithmetic right shift in 32 bits of the sign-extended operand, cut to the operand. -/
theorem sar_value (wide : Bool) (d k : Nat) :
    ((if wide then BitVec.ofNat 32 d else ((BitVec.ofNat 32 d).truncate 16).signExtend 32).sshiftRight k).toNat %
      2 ^ opBits wide = Shift.value .sar (opBits wide) d k := by
  have hsd : (if wide then BitVec.ofNat 32 d else ((BitVec.ofNat 32 d).truncate 16).signExtend 32).toInt =
      asInt d (opBits wide) := by
    rw [asInt_eq_toInt (opBits_le wide).1]
    cases wide
    · simp [opBits, BitVec.toInt_signExtend_of_le, BitVec.setWidth_ofNat_of_le]
    · rfl
  rw [BitVec.sshiftRight, hsd, Int.shiftRight_eq_div_pow, ← ofInt_eq_toNat, ofInt_mod _ (opBits_le wide).2]
  simp only [Shift.value, Nat.cast_pow, Nat.cast_ofNat]

/-- A rotate left as a sum: the bits that it carries round and the others do not overlap. -/
theorem rotate_parts {w d k : Nat} (hk : k ≤ w) (hd : d < 2 ^ w) :
    d <<< k % 2 ^ w ||| d >>> (w - k) = (d * 2 ^ k + d / 2 ^ (w - k)) % 2 ^ w := by
  have hpow : 2 ^ w = 2 ^ (w - k) * 2 ^ k := by rw [← Nat.pow_add, Nat.sub_add_cancel hk]
  have hlow : d / 2 ^ (w - k) < 2 ^ k := Nat.div_lt_of_lt_mul (hpow ▸ hd)
  have hhigh : d * 2 ^ k % 2 ^ w = d % 2 ^ (w - k) * 2 ^ k := by rw [hpow, Nat.mul_mod_mul_right]
  have hsum : d * 2 ^ k % 2 ^ w + d / 2 ^ (w - k) < 2 ^ w := by
    have hrow : (d % 2 ^ (w - k) + 1) * 2 ^ k ≤ 2 ^ w :=
      hpow ▸ Nat.mul_le_mul_right _ (Nat.mod_lt d (Nat.two_pow_pos _))
    rw [hhigh]
    rw [Nat.succ_mul] at hrow
    omega
  calc d <<< k % 2 ^ w ||| d >>> (w - k)
      = (d % 2 ^ (w - k)) <<< k ||| d / 2 ^ (w - k) := by
        rw [Nat.shiftLeft_eq, Nat.shiftRight_eq_div_pow, hhigh, Nat.shiftLeft_eq]
    _ = d * 2 ^ k % 2 ^ w + d / 2 ^ (w - k) := by
        rw [← Nat.shiftLeft_add_eq_or_of_lt hlow, Nat.shiftLeft_eq, hhigh]
    _ = (d * 2 ^ k + d / 2 ^ (w - k)) % 2 ^ w := by rw [← Nat.mod_add_mod, Nat.mod_eq_of_lt hsum]

theorem rol_value {w d k : Nat} (hk : k < w) (hd : d < 2 ^ w) :
    ((BitVec.ofNat w d).rotateLeft k).toNat = Shift.value .rol w d k := by
  rw [BitVec.toNat_rotateLeft, Nat.mod_eq_of_lt hk, BitVec.toNat_ofNat, Nat.mod_eq_of_lt hd, rotate_parts hk.le hd]
  rfl

theorem ror_value {w d k : Nat} (hk : k < w) (hd : d < 2 ^ w) :
    ((BitVec.ofNat w d).rotateRight k).toNat = Shift.value .ror w d k := by
  have hparts := rotate_parts (Nat.sub_le w k) hd
  rw [Nat.sub_sub_self hk.le] at hparts
  rw [BitVec.toNat_rotateRight, Nat.mod_eq_of_lt hk, BitVec.toNat_ofNat, Nat.mod_eq_of_lt hd, Nat.or_comm, hparts,
    Nat.add_comm]
  rfl

/-- A shift with an amount that is not 0 writes its value, C, Z and N, and clears V. -/
theorem aluShift_of_ne {t : Shift} {w d cnt : Nat} (hk : t.amount w cnt ≠ 0) :
    aluShift t w d cnt = Alu.full w (t.value w d (t.amount w cnt)) (t.carry w d (t.amount w cnt)) false := if_neg hk

theorem aluShift_of_zero {t : Shift} {w d cnt : Nat} (hk : t.amount w cnt = 0) :
    aluShift t w d cnt = Alu.plain w d := if_pos hk

theorem Shift.value_lt (t : Shift) (k : Nat) {w d : Nat} (hd : d < 2 ^ w) : t.value w d k < 2 ^ w := by
  have hpow := Nat.two_pow_pos w
  cases t with
  | shl | rol | ror => exact Nat.mod_lt _ hpow
  | shr => exact (Nat.div_le_self ..).trans_lt hd
  | sar => rw [Shift.value, ofInt_eq_toNat]; exact BitVec.isLt _

/-- The last bit shifted out of the operand, and 0 past its width. -/
theorem shift_carry {w k j : Nat} (d : Nat) (hj : j < 32) :
    (if w < k then false else (BitVec.ofNat 32 d).getLsbD j) = (decide (k ≤ w) && d.testBit j) := by
  by_cases hk : w < k
  · rw [if_pos hk, decide_eq_false (by omega), Bool.false_and]
  · rw [if_neg hk, decide_eq_true (by omega), BitVec.getLsbD_ofNat, decide_eq_true hj]

/-- A rotate amount counts modulo the width. -/
theorem rotate_amount (wide : Bool) (cnt : Nat) : cnt % 32 % opBits wide = cnt % opBits wide := by
  cases wide <;> exact Nat.mod_mod_of_dvd cnt (by decide)

/-- An operation that writes no flag leaves its value. -/
theorem result_plain (x : Hearth) (wide : Bool) (r : Reg) {d : Nat} (hd : d < 2 ^ opBits wide) :
    x.result wide r (Alu.plain (opBits wide) d) = x.setOperand wide r d := by
  have hval : (Alu.plain (opBits wide) d).val = d := Nat.mod_eq_of_lt hd
  have hfl : (Alu.plain (opBits wide) d).flags x.fl = (x.setOperand wide r d).fl := by
    rw [Hearth.setOperand_fl]
    rfl
  rw [Hearth.result, hval, hfl]

/-! ## The clauses of the statement -/

section Clauses

variable {s u : State} {h : HearthId} {l : List Byte} {i : HInstr} {a b : Reg} {n cnt : Nat}

/-- The operations of R327. -/
def HOp.shifts : List HOp := [.shl, .shr, .sar, .rol, .ror]

theorem HOp.mem_shifts {op : HOp} : op ∈ HOp.shifts ↔ op = .shl ∨ op = .shr ∨ op = .sar ∨ op = .rol ∨ op = .ror := by
  simp only [HOp.shifts, List.mem_cons, List.not_mem_nil, or_false]

theorem hexec_shift (hop : i.op ∈ HOp.shifts)
    (hform : i.form = .rr a b ∧ cnt = (u.hearth[h].get b).toNat ∨ i.form = .count a n ∧ cnt = n) :
    u.hexec h i = u.commit h fun _ => u.hearth[h].result i.pre.wide a
      (aluShift (shiftOf i.op) (opBits i.pre.wide) (u.hearth[h].operand i.pre.wide a) cnt) := by
  have hx : u.hexec h i = u.doShift h i := by
    rcases HOp.mem_shifts.1 hop with hop | hop | hop | hop | hop <;> simp only [State.hexec, hop]
  rw [hx]
  rcases hform with ⟨hform, rfl⟩ | ⟨hform, rfl⟩ <;> simp only [State.doShift, hform] <;> rw [commit_const]

theorem hexec_mul (hop : i.op = .mul ∨ i.op = .mulhu ∨ i.op = .mulhs) (hform : i.form = .rr a b) :
    u.hexec h i = u.commit h fun _ => u.hearth[h].result i.pre.wide a
      (if i.op = .mul then aluMul (u.hearth[h].get a).toNat (u.hearth[h].get b).toNat
      else aluMulh i.pre.wide (i.op == .mulhs) (u.hearth[h].get a).toNat (u.hearth[h].get b).toNat) := by
  have hx : u.hexec h i = u.doMul h i := by rcases hop with hop | hop | hop <;> simp only [State.hexec, hop]
  rw [hx]
  simp only [State.doMul, hform]
  rw [commit_const]

theorem ne_trap_of_div (hop : i.op = .divu ∨ i.op = .divs) : i.op ≠ .trap := by
  rcases hop with hop | hop <;> simp [hop]

theorem hexec_div (hop : i.op = .divu ∨ i.op = .divs) : u.hexec h i = u.doDiv h i := by
  rcases hop with hop | hop <;> simp only [State.hexec, hop]

/-- A division by a number other than 0. -/
theorem exec_divide {q r : Word} {v : Bool} (hs : s.hearthAt h l u i) (hit : i.iterates u.hearth[h])
    (hop : i.op = .divu ∨ i.op = .divs) (hform : i.form = .rr a b) (he : u.hearth[h].get b ≠ 0)
    (hdiv : divide (i.op == .divs) (u.hearth[h].get a).toNat (u.hearth[h].get b).toNat = (q.toNat, r.toNat, v)) :
    ∃ t, exec (hearthCmd h i.op) s = .next t ∧ flagsSet u.hearth[h].fl t.hearth[h].fl false (q == 0) q.msb v ∧
      t = u.ran h l i { (u.hearth[h].put a q).put a.next r with fl := t.hearth[h].fl } := by
  have hne : (u.hearth[h].get b).toNat ≠ 0 := fun h0 => he (BitVec.eq_of_toNat_eq h0)
  have hx : u.hexec h i = u.commit h fun _ => u.hearth[h].divided a q.toNat r.toNat v := by
    rw [hexec_div hop]
    simp only [State.doDiv, hform, hne, if_false, hdiv]
    rw [commit_const]
  rw [divided_words] at hx
  obtain ⟨t, hexec, hfl, ht⟩ := exec_commit_flags hs hit (ne_trap_of_div hop) hx (by simp only [Hearth.put_pc])
  exact ⟨t, hexec, hfl ▸ flagsSet_word .., ht⟩

/-- The flags of a division by zero: those of its quotient, and DZ (R324, R326). -/
theorem flags_divideZero (fl q : Word) (hq : q ≠ 0) {k : Nat} (hk : k < 16) :
    bit (setBit ((Alu.full 16 q.toNat false false).flags fl) 4 true) k =
      if k = 0 ∨ k = 1 ∨ k = 3 then false else if k = 2 then q.msb else if k = 4 then true else bit fl k := by
  obtain ⟨hc, hz, hn, hv, hovs, hrest⟩ := flagsSet_word fl q false false
  rw [beq_eq_false_iff_ne.2 hq] at hz
  rw [bit_setBit _ _ _ hk]
  have hcases : k = 0 ∨ k = 1 ∨ k = 2 ∨ k = 3 ∨ k = 4 ∨ k = 5 ∨
      (k ≠ 0 ∧ k ≠ 1 ∧ k ≠ 2 ∧ k ≠ 3 ∧ k ≠ 4 ∧ k ≠ 5) := by omega
  rcases hcases with rfl | rfl | rfl | rfl | rfl | rfl | ⟨h0, h1, h2, h3, h4, h5⟩
  · exact hc
  · exact hz
  · exact hn
  · exact hv
  · rfl
  · exact hovs
  · rw [if_neg h4.symm, hrest k hk h0 h1 h2 h3 h5]
    simp only [h0, h1, h2, h3, h4, or_self, if_false]

/-- A division by zero that does not trap (R326). -/
theorem exec_divideZero {q : Word} (hs : s.hearthAt h l u i) (hit : i.iterates u.hearth[h])
    (hop : i.op = .divu ∨ i.op = .divs) (hform : i.form = .rr a b) (he : u.hearth[h].get b = 0)
    (hdz : bit u.hearth[h].fl 6 = false)
    (hdiv : divideZero (i.op == .divs) (u.hearth[h].get a).toNat = (q.toNat, (u.hearth[h].get a).toNat)) :
    ∃ t, exec (hearthCmd h i.op) s = .next t ∧
      t.hearth[h].fl = setBit ((Alu.full 16 q.toNat false false).flags u.hearth[h].fl) 4 true ∧
      t = u.ran h l i { (u.hearth[h].put a q).put a.next (u.hearth[h].get a) with fl := t.hearth[h].fl } := by
  have hx : u.hexec h i = u.commit h fun _ =>
      let y := u.hearth[h].divided a q.toNat (u.hearth[h].get a).toNat false
      { y with fl := setBit y.fl 4 true } := by
    have he0 : (u.hearth[h].get b).toNat = 0 := by rw [he]; rfl
    rw [hexec_div hop]
    simp only [State.doDiv, hform, he0, Hearth.dzt, hdz, hdiv, if_true, Bool.false_eq_true, if_false]
    rw [commit_const]
  rw [divided_words] at hx
  exact exec_commit_flags hs hit (ne_trap_of_div hop) hx (by simp only [Hearth.put_pc])

/-- A division by zero that traps (R326). -/
theorem hexec_divideTrap (hop : i.op = .divu ∨ i.op = .divs) (hform : i.form = .rr a b)
    (he : u.hearth[h].get b = 0) (hdz : bit u.hearth[h].fl 6 = true) :
    u.hexec h i = (u, .error (.trap 2 0)) := by
  rw [hexec_div hop]
  simp only [State.doDiv, hform, he, Hearth.dzt, hdz, if_true]
  rfl

/-- An instruction that traps on its way takes the trap at its own PC (R292, R309). -/
theorem exec_trap {v info : Nat} (hs : s.hearthAt h l u i) (hit : i.iterates u.hearth[h]) (htrap : i.op ≠ .trap)
    (hx : u.hexec h i = (u, .error (.trap v info))) :
    exec (hearthCmd h i.op) s = .next (u.takeTrap h v info u.hearth[h].pc) := by
  have hgo : (i.pre.rep ≠ .once ∧ u.hearth[h].cnt = 0) = False := eq_false fun ⟨hr, hc⟩ => hit.elim hr (absurd hc)
  rw [exec_of_hearthAt hs]
  simp only [State.runInstr, htrap, hgo, hx, if_false, State.hstop]

theorem amount_eq_zero {op : HOp} {wide : Bool} (hop : op ∈ HOp.shifts)
    (hzero : cnt % 32 = 0 ∨ (op = .rol ∨ op = .ror) ∧ cnt % opBits wide = 0) :
    (shiftOf op).amount (opBits wide) cnt = 0 := by
  have hrot : cnt % opBits wide = 0 → cnt % 32 % opBits wide = 0 := (rotate_amount wide cnt).trans
  have hmod (h0 : cnt % 32 = 0) : cnt % 32 % opBits wide = 0 := by rw [h0, Nat.zero_mod]
  rcases HOp.mem_shifts.1 hop with rfl | rfl | rfl | rfl | rfl
  case inr.inr.inr.inl => exact hzero.elim hmod fun h0 => hrot h0.2
  case inr.inr.inr.inr => exact hzero.elim hmod fun h0 => hrot h0.2
  all_goals exact hzero.resolve_right (by simp)

theorem ne_trap_of_shift (hop : i.op ∈ HOp.shifts) : i.op ≠ .trap := by
  intro htrap
  rw [htrap] at hop
  exact absurd hop (by decide)

/-- The shifts of the statement, on words of 32 bits, and the bit of the operand that each shifts out last. -/
theorem shift_words {op : HOp} {wide : Bool} {d k : Nat} (hop : op ∈ [HOp.shl, .shr, .sar]) (hk : k ≠ 0)
    (hk32 : k < 32) (hd : d < 2 ^ opBits wide) :
    (if op = .shl then BitVec.ofNat 32 d <<< k else if op = .shr then BitVec.ofNat 32 d >>> k
        else (if wide then BitVec.ofNat 32 d
          else ((BitVec.ofNat 32 d).truncate 16).signExtend 32).sshiftRight k).toNat % 2 ^ opBits wide =
      (shiftOf op).value (opBits wide) d k ∧
    (if opBits wide < k then false else if op = .shl then (BitVec.ofNat 32 d).getLsbD (opBits wide - k)
        else (BitVec.ofNat 32 d).getLsbD (k - 1)) =
      (shiftOf op).carry (opBits wide) d k := by
  have hw := (opBits_le wide).2
  simp only [List.mem_cons, List.not_mem_nil, or_false] at hop
  rcases hop with rfl | rfl | rfl <;> simp only [reduceCtorEq, if_true, if_false]
  · exact ⟨shl_value _ d k hw, shift_carry d (by omega)⟩
  · exact ⟨shr_value _ d k hw hd, shift_carry d (by omega)⟩
  · exact ⟨sar_value wide d k, shift_carry d (by omega)⟩

theorem rotate_words {op : HOp} {w d k : Nat} (hop : op = .rol ∨ op = .ror) (hk : k < w) (hd : d < 2 ^ w) :
    (if op = .rol then ((BitVec.ofNat w d).rotateLeft k).toNat else ((BitVec.ofNat w d).rotateRight k).toNat) =
      (shiftOf op).value w d k := by
  rcases hop with rfl | rfl <;> simp only [reduceCtorEq, if_true, if_false]
  · exact rol_value hk hd
  · exact ror_value hk hd

/-- A shift or rotate whose amount is not 0. -/
theorem exec_shift {k : Nat} (hs : s.hearthAt h l u i) (hit : i.iterates u.hearth[h]) (hop : i.op ∈ HOp.shifts)
    (hform : i.form = .rr a b ∧ cnt = (u.hearth[h].get b).toNat ∨ i.form = .count a n ∧ cnt = n)
    (hamount : (shiftOf i.op).amount (opBits i.pre.wide) cnt = k) (hk : k ≠ 0) {r : Nat} {c : Bool}
    (hr : r = (shiftOf i.op).value (opBits i.pre.wide) (u.hearth[h].operand i.pre.wide a) k)
    (hc : c = (shiftOf i.op).carry (opBits i.pre.wide) (u.hearth[h].operand i.pre.wide a) k) :
    ∃ t, exec (hearthCmd h i.op) s = .next t ∧
      flagsSet u.hearth[h].fl t.hearth[h].fl c (r == 0) (r.testBit (opBits i.pre.wide - 1)) false ∧
      t = u.ran h l i { u.hearth[h].setOperand i.pre.wide a r with fl := t.hearth[h].fl } := by
  subst hamount hr hc
  have hx := hexec_shift hop hform
  rw [aluShift_of_ne hk] at hx
  exact exec_result hs hit (ne_trap_of_shift hop) (Shift.value_lt _ _ (operand_lt ..)) hx

/-- A shift or rotate with the amount 0 changes nothing but PC. -/
theorem exec_shift_zero (hs : s.hearthAt h l u i) (hit : i.iterates u.hearth[h]) (hop : i.op ∈ HOp.shifts)
    (hform : i.form = .rr a b ∧ cnt = (u.hearth[h].get b).toNat ∨ i.form = .count a n ∧ cnt = n)
    (hamount : (shiftOf i.op).amount (opBits i.pre.wide) cnt = 0) :
    exec (hearthCmd h i.op) s =
      .next (u.ran h l i (u.hearth[h].setOperand i.pre.wide a (u.hearth[h].operand i.pre.wide a))) := by
  have hx := hexec_shift hop hform
  rw [aluShift_of_zero hamount, result_plain _ _ _ (operand_lt ..)] at hx
  exact exec_commit hs hit (ne_trap_of_shift hop) hx (Hearth.setOperand_pc ..)

end Clauses

/-- Settles O33: each operation is one value and one set of flags, which the model computes on numbers and the
statement on words; a division by zero without a trap sets DZ besides, and an amount of 0 leaves the flags. -/
theorem hearthMultiplyDivideShift : Obligations.HearthMultiplyDivideShift := by
  unfold Obligations.HearthMultiplyDivideShift
  refine ⟨?mul, ?mulh, ?divu, ?divs, ?divideZero, ?divideTrap, ?shift, ?rotate, ?amountZero⟩
  case mul =>
    intro h l u i a b s hs hit hop hform x p q
    have hwide : i.pre.wide = false := not_wide_of_rr hs hform (by rw [hop]; rfl)
    have hx : u.hexec h i = u.commit h fun _ => x.result false a (aluMul (x.get a).toNat (x.get b).toNat) := by
      rw [hexec_mul (.inl hop) hform, if_pos hop, hwide]
    rw [aluMul_words] at hx
    have hres := exec_result hs hit (by simp [hop]) (low_word_lt _) hx
    rw [testBit_low_word, setOperand_low_word, hop] at hres
    exact hres
  case mulh =>
    intro h l u i a b s hs hit hop hform x p r
    have hp : p = product (i.op == .mulhs) (x.get a) (x.get b) := by
      rcases hop with hop | hop <;> simp [p, product, hop]
    have hr : r = highPart i.pre.wide p := rfl
    have hx : u.hexec h i = u.commit h fun _ =>
        x.result i.pre.wide a (Alu.full (opBits i.pre.wide) r false false) := by
      have hmul : i.op ≠ .mul := by rcases hop with hop | hop <;> simp [hop]
      rw [hr, hp, ← aluMulh_eq, hexec_mul (.inr hop) hform, if_neg hmul]
    have hres := exec_result hs hit (by rcases hop with hop | hop <;> simp [hop]) (highPart_lt ..) hx
    rwa [testBit_highPart] at hres
  case divu =>
    intro h l u i a b s hs hit hop hform x d e he
    have hdiv : divide (i.op == .divs) d.toNat e.toNat = ((d / e).toNat, (d % e).toNat, false) := by
      rw [hop]
      exact divide_unsigned d e
    have hres := exec_divide hs hit (.inl hop) hform he hdiv
    rwa [hop] at hres
  case divs =>
    intro h l u i a b s hs hit hop hform x d e he
    have hdiv : divide (i.op == .divs) d.toNat e.toNat =
        ((d.sdiv e).toNat, (d.srem e).toNat, d == 0x8000 && e == 0xFFFF) := by
      rw [hop]
      exact divide_signed d e
    have hres := exec_divide hs hit (.inr hop) hform he hdiv
    rwa [hop] at hres
  case divideZero =>
    intro h l u i a b s hs hit hop hform x d q he hdz
    have hdiv : divideZero (i.op == .divs) d.toNat = (q.toNat, d.toNat) := by
      rw [divideZero_words]
      rcases hop with hop | hop <;> simp [q, hop]
    have hq : q ≠ 0 := by
      simp only [q]
      split
      · decide
      · split <;> decide
    obtain ⟨t, hexec, hfl, ht⟩ := exec_divideZero hs hit hop hform he hdz hdiv
    exact ⟨t, hexec, fun k hk => hfl ▸ flags_divideZero x.fl q hq hk, ht⟩
  case divideTrap =>
    intro h l u i a b s hs hit hop hform he hdz
    exact exec_trap hs hit (by rcases hop with hop | hop <;> simp [hop]) (hexec_divideTrap hop hform he hdz)
  case shift =>
    intro h l u i a b n cnt s hs hit hop x w k d hform hk sd r c
    obtain ⟨hr, hc⟩ := shift_words hop hk (Nat.mod_lt cnt (by omega)) (operand_lt x i.pre.wide a)
    have hmem : i.op ∈ HOp.shifts := List.mem_append_left [HOp.rol, .ror] hop
    have hamount : (shiftOf i.op).amount w cnt = k := by
      simp only [List.mem_cons, List.not_mem_nil, or_false] at hop
      rcases hop with hop | hop | hop <;> rw [hop] <;> rfl
    exact exec_shift hs hit hmem hform hamount hk hr hc
  case rotate =>
    intro h l u i a b n cnt s hs hit hop x w k d hform hk r c
    have hr : r = (shiftOf i.op).value w d k :=
      rotate_words hop (Nat.mod_lt cnt (opBits_le i.pre.wide).1) (operand_lt x i.pre.wide a)
    have hmem : i.op ∈ HOp.shifts := HOp.mem_shifts.2 (.inr (.inr (.inr hop)))
    have hamount : (shiftOf i.op).amount w cnt = k := by
      rcases hop with hop | hop <;> rw [hop] <;> exact rotate_amount i.pre.wide cnt
    have hc : c = (shiftOf i.op).carry w d k := by
      simp only [c, hr]
      rcases hop with hop | hop <;> rw [hop] <;> rfl
    exact exec_shift hs hit hmem hform hamount hk hr hc
  case amountZero =>
    intro h l u i a b n cnt s hs hit hop x hform hzero
    exact ⟨_, exec_shift_zero hs hit hop hform (amount_eq_zero hop hzero), rfl⟩

end Sys2Proof.Machine
end

section
/-! PROOFS. Flues and host watchdogs (R419 to R425, R432): the words of a flue and of a host as register offsets, the
clamp of a hearth that posts without being the sender, the passing of beats at a host, and the statement itself. -/

namespace Sys2Proof.Machine

open Sys2Proof

/-! ## Indices and masters -/

@[simp] theorem finOf_val {n : Nat} (i : Fin n) : finOf n i.val = some i := by simp [finOf]

@[simp] theorem hearthOf_hearthMaster (h : HearthId) : hearthOf (hearthMaster h) = some h := finOf_val h

@[simp] theorem hostOf_hostMaster (n : Fin 4) : hostOf (hostMaster n) = some n := by
  have hhost : ¬16 + n.val < 16 := by omega
  simp [hostOf, hostMaster, hhost]

theorem hostOf_eq_none {m : Master} (hm : m.val < 16) : hostOf m = none := if_pos hm

/-! ## Commands of a master that may give them -/

section Commands

variable {s : State} {m : Master} {off : Nat}

theorem State.alive_writeCmd (hw : s.writes m off) (act : State → State) :
    s.alive (fun s => s.writeCmd m off act) = (act s).respond m 0 false := by
  obtain ⟨hup, hact, hmay⟩ := hw
  rw [State.alive_on hup, State.writeCmd_of_rights hact hmay]

theorem State.alive_readCmd (hr : s.reads m off) (act : State → State × Word) :
    s.alive (fun s => s.readCmd m off act) = (act s).1.respond m (act s).2 false := by
  obtain ⟨hup, hact, hmay⟩ := hr
  rw [State.alive_on hup, State.readCmd_of_rights hact hmay]

end Commands

/-! ## The words of a flue and of a host (R433) -/

theorem fluOff_add (f k : Nat) : fluOff f + k = 0xD0000 + k + 16 * f := by unfold fluOff; omega

theorem fluHost_add (n k : Nat) : fluHost n + k = 0xD0600 + k + 32 * n := by unfold fluHost; omega

/-- Word `k` of a flue lies among the flues, and its offset gives the flue and the word back. -/
theorem fluOff_word (f : Fin 64) {k : Nat} (hk : k < 16) :
    fluOff f.val + k < 0xD0400 ∧ (fluOff f.val + k - 0xD0000) / 16 = f.val ∧ (fluOff f.val + k) % 16 = k := by
  unfold fluOff
  omega

/-! ## Posts and reads of a notice (R422, R423, R425) -/

section Notices

variable {s : State} {m : Master} {f : Fin 64}

theorem State.fluWrite_p0 (hs : s.isSender f.val m = true) (v : Word) :
    s.fluWrite m (fluOff f.val + 4) v = s.fluP0 f v := by
  obtain ⟨hlt, hflue, hword⟩ := fluOff_word f (show 4 < 16 by decide)
  simp only [State.fluWrite, hlt, hflue, hword, finOf_val, hs, if_true]

theorem State.fluWrite_p1 (hs : s.isSender f.val m = true) (v : Word) :
    s.fluWrite m (fluOff f.val + 6) v = s.fluP1 m f v := by
  obtain ⟨hlt, hflue, hword⟩ := fluOff_word f (show 6 < 16 by decide)
  simp only [State.fluWrite, hlt, hflue, hword, finOf_val, hs, if_true]

theorem State.fluP1_empty (hf : s.flue[f].full = false) (v : Word) :
    s.fluP1 m f v = s.mapFlue f fun x =>
      { full := true, n0 := x.p0.getD 0, n1 := v, n2 := s.epochOf m, p0 := none } := by
  simp only [State.fluP1, State.post, hf, Bool.false_eq_true, if_false]
  rfl

theorem State.fluP1_full_host {n : Fin 4} (hm : hostOf m = some n) (hf : s.flue[f].full = true) (v : Word) :
    s.fluP1 m f v = s.raise (fluHost n.val + 0x18) 0 := by
  simp only [State.fluP1, State.post, hf, hm, if_true]

theorem State.fluP1_full_not_host (hm : hostOf m = none) (hf : s.flue[f].full = true) (v : Word) :
    s.fluP1 m f v = s := by
  simp only [State.fluP1, State.post, hf, hm, if_true]

theorem exec_fluP0Write (hw : s.writes m (0xD0004 + 16 * f.val)) (hs : s.isSender f.val m = true) (v : Word) :
    exec (.fluP0Write m f v) s = .next ((s.fluP0 f v).respond m 0 false) := by
  rw [← fluOff_add f.val 4] at hw
  rw [← State.fluWrite_p0 hs]
  exact congrArg _ (State.alive_writeCmd hw _)

theorem exec_fluP1Write (hw : s.writes m (0xD0006 + 16 * f.val)) (hs : s.isSender f.val m = true) (v : Word) :
    exec (.fluP1Write m f v) s = .next ((s.fluP1 m f v).respond m 0 false) := by
  rw [← fluOff_add f.val 6] at hw
  rw [← State.fluWrite_p1 hs]
  exact congrArg _ (State.alive_writeCmd hw _)

theorem State.fluN2_receiver (hr : s.isReceiver f.val m = true) :
    s.fluN2 m f = (s.mapFlue f fun x => { x with full := false }, s.flue[f].n2) := by
  rw [State.fluN2, if_pos hr]

theorem exec_fluN2Read (hr : s.reads m (0xD000C + 16 * f.val)) :
    exec (.fluN2Read m f) s = .next ((s.fluN2 m f).1.respond m (s.fluN2 m f).2 false) := by
  rw [← fluOff_add f.val 0xC] at hr
  exact congrArg _ (State.alive_readCmd hr fun s => s.fluN2 m f)

end Notices

/-! ## The clamp of a hearth (R312, R469, R471) -/

section Clamp

variable {s : State} {h : HearthId}

/-- The record of a clamp changes the log and the events of the SSN_ block. -/
theorem State.logClamp_frame (s : State) (target cause : Nat) (a : Addr) :
    s.logClamp target cause a = { s with
      ssn := (s.logClamp target cause a).ssn, regs := (s.logClamp target cause a).regs
      fresh := (s.logClamp target cause a).fresh } := by
  unfold State.logClamp
  dsimp only
  split <;> rfl

@[simp] theorem State.logClamp_hearth (s : State) (target cause : Nat) (a : Addr) :
    (s.logClamp target cause a).hearth = s.hearth := by rw [State.logClamp_frame]

@[simp] theorem State.logClamp_flue (s : State) (target cause : Nat) (a : Addr) :
    (s.logClamp target cause a).flue = s.flue := by rw [State.logClamp_frame]

/-- An empty log takes the entry of a clamp. -/
theorem State.logClamp_clog_of_nil (hc : s.ssn.clog = []) (target cause : Nat) (a : Addr) :
    (s.logClamp target cause a).ssn.clog = [{
      target := target, cause := cause, addr := a, tick := wordOf s.tick.tick 0, beat := s.time.beat }] := by
  simp [State.logClamp, hc, clogInsert]

@[simp] theorem State.clampHearth_st (s : State) (h : HearthId) (cause : Nat) (a : Addr) :
    (s.clampHearth h cause a).hearth[h].st = .clamped := by
  unfold State.clampHearth
  split
  case isTrue hst => exact hst
  case isFalse => simp

/-- A clamp never touches a flue (R427). -/
@[simp] theorem State.clampHearth_flue (s : State) (h : HearthId) (cause : Nat) (a : Addr) :
    (s.clampHearth h cause a).flue = s.flue := by
  unfold State.clampHearth
  split
  case isTrue => rfl
  case isFalse => simp

/-- A clamp enters an empty log under its cause and its hearth. -/
theorem State.clampHearth_clog_of_nil (hst : s.hearth[h].st ≠ .clamped) (hc : s.ssn.clog = []) (cause : Nat)
    (a : Addr) :
    (s.clampHearth h cause a).ssn.clog = [{
      target := h.val, cause := cause, addr := a, tick := wordOf s.tick.tick 0, beat := s.time.beat }] := by
  rw [State.clampHearth, if_neg hst]
  dsimp only
  rw [State.logClamp_clog_of_nil]
  · simp only [State.raise_tick, State.raise_time]
  · exact hc

end Clamp

/-! ## A post by a hearth that is not the sender (R424) -/

section Violation

variable {s : State} {h : HearthId} {f : Fin 64}

/-- Only its sender may write P1 of a flue: no mask and no supervising right permits it. -/
theorem State.not_mayAccess_p1 (hs : s.isSender f.val (hearthMaster h) = false) :
    s.mayAccess (hearthMaster h) (fluOff f.val + 6) true = false := by
  obtain ⟨hlt, hflue, hword⟩ := fluOff_word f (show 6 < 16 by decide)
  have hge : 0xD0000 ≤ fluOff f.val + 6 := by unfold fluOff; omega
  generalize fluOff f.val + 6 = off at *
  have hnamed : s.namedOnly (hearthMaster h) off true = false := by
    simp [State.namedOnly, hge, hlt, hword, hflue, hs]
  have hsup : (supOnly off || supToo off) = false := by
    simp only [supOnly, supToo, Bool.or_eq_false_iff, Bool.and_eq_false_iff, decide_eq_false_iff_not,
      beq_eq_false_iff_ne]
    omega
  have hm : (hearthMaster h).val < 12 := h.isLt
  have hmaster : ¬((12 ≤ (hearthMaster h).val ∧ (hearthMaster h).val < 16) ∨ 20 ≤ (hearthMaster h).val) := by omega
  have hfeed : ¬((hearthMaster h).val = 16 ∧ s.feedRights = true) := by omega
  simp [State.mayAccess, hmaster, hfeed, hsup, hnamed]

theorem State.accessCause_p1 {m : Master} (hs : s.isSender f.val m = false) :
    s.accessCause m (fluOff f.val + 6) true = 7 := by
  obtain ⟨hlt, hflue, hword⟩ := fluOff_word f (show 6 < 16 by decide)
  have hge : 0xD0000 ≤ fluOff f.val + 6 := by unfold fluOff; omega
  simp only [State.accessCause, hge, hlt, hflue, hword, hs]
  rfl

theorem State.canAct_hearthMaster (hrun : s.hearth[h].st = .running) (hstall : s.hearth[h].stall = none) :
    s.canAct (hearthMaster h) = true := by
  simp only [State.canAct, hearthOf_hearthMaster, hrun, hstall]
  rfl

/-- The post is discarded and its hearth clamped under cause 7 (log entry 7). -/
theorem exec_fluP1Write_violation (hup : s.on) (hrun : s.hearth[h].st = .running) (hstall : s.hearth[h].stall = none)
    (hs : s.isSender f.val (hearthMaster h) = false) (v : Word) :
    exec (.fluP1Write (hearthMaster h) f v) s =
      .next ((s.clampHearth h 7 (regAddr (fluOff f.val + 6))).respond (hearthMaster h) 0 true) := by
  have hviol : s.regViolation (hearthMaster h) (fluOff f.val + 6) true =
      s.clampHearth h 7 (regAddr (fluOff f.val + 6)) := by
    simp only [State.regViolation, State.violate, hearthOf_hearthMaster, State.accessCause_p1 hs]
  rw [← hviol, ← State.writeCmd_of_no_rights (State.canAct_hearthMaster hrun hstall) (State.not_mayAccess_p1 hs)]
  exact congrArg _ (State.alive_on hup _)

end Violation

/-! ## The passing of beats at a host (R432) -/

/-- The sample of a host's interrupt changes its line and its count of MSIs. -/
theorem State.sampleHost_host (s : State) (n k : Fin 4) :
    (s.sampleHost n).host[k] = { s.host[k] with
      lineNow := (s.sampleHost n).host[k].lineNow, msi := (s.sampleHost n).host[k].msi } := by
  by_cases hk : k = n
  · subst hk
    simp [State.sampleHost]
  · simp [State.sampleHost, upd_ne _ _ hk]

theorem State.sampleHost_fenced (s : State) (n k : Fin 4) :
    (s.sampleHost n).host[k].fenced = s.host[k].fenced := by rw [State.sampleHost_host]

theorem State.elapse_fenced (s : State) (n : Nat) (k : Fin 4) :
    (s.elapse n).host[k].fenced = s.host[k].fenced := by
  unfold State.elapse
  split
  · rfl
  · exact (State.sampleHost_fenced _ 1 k).trans (State.sampleHost_fenced s 0 k)

/-- The beats up to an expiry fence no host (R420). -/
theorem State.until_fenced (s : State) (due : Nat) (k : Fin 4) : (s.until due).host[k].fenced = s.host[k].fenced :=
  State.elapse_fenced s _ k

/-! ## Host watchdogs and the interrupt acknowledge (R420, R432) -/

section Hosts

variable {s : State} {m : Master} {n : Fin 4}

theorem exec_hostWdgKick (hw : s.writes m (0xD0612 + 32 * n.val)) (v : Word) :
    exec (.hostWdgKick m n v) s = .next ((s.hostKick m n).respond m 0 false) := by
  rw [← fluHost_add n.val 0x12] at hw
  exact congrArg _ (State.alive_writeCmd hw _)

theorem exec_hostWdgTmoWrite (hw : s.writes m (0xD0610 + 32 * n.val)) (v : Word) :
    exec (.hostWdgTmoWrite m n v) s = .next ((s.hostWdgTmo n v).respond m 0 false) := by
  rw [← fluHost_add n.val 0x10] at hw
  exact congrArg _ (State.alive_writeCmd hw _)

theorem exec_irqAck (hw : s.writes m (0xD060E + 32 * n.val)) (v : Word) :
    exec (.irqAck m n v) s = .next ((s.irqAckWrite n).respond m 0 false) := by
  rw [← fluHost_add n.val 0xE] at hw
  exact congrArg _ (State.alive_writeCmd hw _)

theorem exec_hostWdgExpiry {e : Nat} (hup : s.on) (hend : s.host[n].wdgEnd = some e) :
    exec (.hostWdgExpiry n) s = .next
      (((s.until e).mapHost n fun x => { x with absent := true, wdgEnd := none }).raise 0xD0700 (4 + n.val)) := by
  have hexp : s.hostWdgExpiry n =
      ((s.until e).mapHost n fun x => { x with absent := true, wdgEnd := none }).raise 0xD0700 (4 + n.val) := by
    simp only [State.hostWdgExpiry, hend]
  rw [← hexp]
  exact congrArg _ (State.alive_on hup _)

/-- A host that is put back as it is leaves the state as it is. -/
theorem State.setHost_self (s : State) (n : Fin 4) : { s with host := s.host.set n s.host[n] } = s := by simp

/-- An acknowledge sends an MSI while an unmasked line is pending and the port can send one. -/
theorem State.irqAckWrite_eq (s : State) (n : Fin 4) :
    s.irqAckWrite n = { s with host := s.host.set n { s.host[n] with
      msi := if s.hostIrq n && s.msiReady n then s.host[n].msi + 1 else s.host[n].msi } } := by
  unfold State.irqAckWrite
  split
  · rfl
  · exact (State.setHost_self s n).symm

end Hosts

/-! ## The statement -/

/-- Settles O48: a post stores or finds the flue full, a post by another hearth is a violation that clamps it, and a
watchdog's expiry is the passing of the beats up to it (log entry 1) followed by the events of its host. -/
theorem fluesAndHostWatchdogs : Obligations.FluesAndHostWatchdogs := by
  unfold Obligations.FluesAndHostWatchdogs
  refine ⟨?holdP0, ?post, ?postFull, ?readN2, ?violation, ?expiry, ?kick, ?timeout, ?acknowledge⟩
  case holdP0 =>
    intro m f v s hw hs
    exact exec_fluP0Write hw hs v
  case post =>
    intro m f v s hw hs hempty
    rw [exec_fluP1Write hw hs, State.fluP1_empty hempty]
    rfl
  case postFull =>
    intro m f v s hw hs hfull
    rw [exec_fluP1Write hw hs]
    constructor
    · intro hm
      rw [State.fluP1_full_not_host (hostOf_eq_none hm) hfull]
    · rintro n rfl
      rw [State.fluP1_full_host (hostOf_hostMaster n) hfull, fluHost_add]
  case readN2 =>
    intro m f s hr hrecv
    rw [exec_fluN2Read hr, State.fluN2_receiver hrecv]
    rfl
  case violation =>
    intro h f v s hup hrun hstall hs
    have hst : s.hearth[h].st ≠ .clamped := by rw [hrun]; decide
    refine ⟨_, exec_fluP1Write_violation hup hrun hstall hs v, State.clampHearth_flue .., State.clampHearth_st ..,
      by simp, fun e he hc => ?_⟩
    rw [State.respond_ssn, State.clampHearth_clog_of_nil hst hc, List.mem_singleton] at he
    subst he
    exact ⟨rfl, rfl⟩
  case expiry =>
    intro n e s hup hend
    refine ⟨_, exec_hostWdgExpiry hup hend, State.until_beat s e, by simp, by simp,
      by simpa using State.until_fenced s e n, State.bit_raise _ _ (by omega), fun off hoff => ?others, ?frame⟩
    case others =>
      rw [State.reg_raise_ne _ _ hoff]
      exact State.reg_congr (State.elapse_regs s _) off
    case frame =>
      rw [State.until, State.elapse_frame]
      rfl
  case kick =>
    intro m n v s hw tmo
    rw [exec_hostWdgKick hw, State.hostKick]
    constructor
    · intro hm
      rw [if_pos hm, fluHost_add]
      rfl
    · intro hm
      rw [if_neg hm]
  case timeout =>
    intro m n v s hw
    rw [exec_hostWdgTmoWrite hw, State.hostWdgTmo, fluHost_add]
    rfl
  case acknowledge =>
    intro m n v s hw sends
    have hsends : sends = (s.hostIrq n && s.msiReady n) := by
      simp only [sends, State.msiReady, Bool.and_assoc]
    rw [exec_irqAck hw, State.irqAckWrite_eq, hsends]

end Sys2Proof.Machine
end

section
/-! PROOFS. Reads of register pairs (R480): the rows of the register tables, the words of pairs as each block reads them,
what keeps a master's latches and what discards them, and the statement itself. -/

namespace Sys2Proof.Machine

open Sys2Proof

/-! ## Rows of register tables (R12) -/

/-- A number whose remainder is `k` or more has the same quotient `k` below. -/
theorem sub_div_of_le_mod {a b k : Nat} (h : k ≤ a % b) : (a - k) / b = a / b := by
  rcases Nat.eq_zero_or_pos b with rfl | hb
  · simp
  · have hparts : a - k = a % b - k + b * (a / b) := by
      have hsum := Nat.mod_add_div a b
      omega
    have hlt : a % b - k < b := (Nat.sub_le ..).trans_lt (Nat.mod_lt a hb)
    rw [hparts, Nat.add_mul_div_left _ _ hb, Nat.div_eq_of_lt hlt, Nat.zero_add]

/-- The room of one register or pair of a row. -/
def RegSpec.width (r : RegSpec) : Nat := if r.pair then max r.stride 4 else r.stride

/-- The places of a row: a _LO or single register begins its room, and the _HI of a pair lies 2 above. -/
theorem RegSpec.place_eq_some {r : RegSpec} {off p : Nat} :
    r.place off = some p ↔ r.base ≤ off ∧ (off - r.base) / r.outer < r.m ∧
      (off - r.base) % r.outer / r.width < r.n ∧ (off - r.base) % r.outer % r.width = p ∧
      (p = 0 ∨ p = 2 ∧ r.pair = true) := by
  unfold RegSpec.place
  simp only [show (if r.pair = true then max r.stride 4 else r.stride) = r.width from rfl]
  grind

/-- The room of a row. -/
def RegSpec.span (r : RegSpec) : Nat := if r.outer = 0 then r.n * r.width else r.m * r.outer

theorem RegSpec.place_within {r : RegSpec} {off p : Nat} (h : r.place off = some p) (hw : 0 < r.width) :
    r.base ≤ off ∧ off < r.base + r.span := by
  obtain ⟨hbase, hm, hn, -, -⟩ := RegSpec.place_eq_some.1 h
  suffices hlt : off - r.base < r.span by omega
  unfold RegSpec.span
  split
  next ho => exact (Nat.div_lt_iff_lt_mul hw).1 (by simpa [ho] using hn)
  next ho => exact (Nat.div_lt_iff_lt_mul (Nat.pos_of_ne_zero ho)).1 hm

/-- A word of a pair lies in the room of its row. -/
theorem RegSpec.place_within_of_pair {r : RegSpec} {off p : Nat} (hp : r.pair = true) (h : r.place off = some p) :
    r.base ≤ off ∧ off < r.base + r.span := by
  refine RegSpec.place_within h ?_
  rw [RegSpec.width, if_pos hp]
  omega

theorem RegSpec.dvd_of_place {r : RegSpec} {k off : Nat} (h : r.place off = some 0) (hbase : k ∣ r.base)
    (houter : k ∣ r.outer) (hwidth : k ∣ r.width) : k ∣ off := by
  obtain ⟨hle, -, -, hmod, -⟩ := RegSpec.place_eq_some.1 h
  have hd : k ∣ off - r.base := (Nat.dvd_mod_iff houter).1 (hwidth.trans (Nat.dvd_of_mod_eq_zero hmod))
  exact (Nat.dvd_sub_iff_left hle hbase).1 hd

/-- The _HI of a pair lies 2 above its _LO. -/
theorem RegSpec.place_lo_of_hi {r : RegSpec} {off : Nat} (h : r.place off = some 2) :
    2 ≤ off ∧ r.place (off - 2) = some 0 := by
  obtain ⟨hbase, hm, hn, hw, -⟩ := RegSpec.place_eq_some.1 h
  have he : 2 ≤ (off - r.base) % r.outer := hw ▸ Nat.mod_le ..
  have hd : 2 ≤ off - r.base := he.trans (Nat.mod_le ..)
  refine ⟨by omega, RegSpec.place_eq_some.2 ⟨by omega, ?_, ?_, ?_, .inl rfl⟩⟩ <;> rw [Nat.sub_right_comm]
  · rwa [sub_div_of_le_mod he]
  · rwa [← Nat.mod_sub_of_le he, sub_div_of_le_mod hw.ge]
  · rw [← Nat.mod_sub_of_le he, ← Nat.mod_sub_of_le hw.ge, hw]

theorem RegSpec.find_eq_some {specs : List RegSpec} {off p : Nat} {r : RegSpec}
    (h : RegSpec.find specs off = some (r, p)) : r ∈ specs ∧ r.place off = some p := by
  induction specs with
  | nil => cases h
  | cons r' l ih =>
    unfold RegSpec.find at h
    split at h
    next q hq => cases h; exact ⟨List.mem_cons_self, hq⟩
    next => exact ⟨List.mem_cons_of_mem _ (ih h).1, (ih h).2⟩

/-- A word of a pair of a table stands in a row of pairs. -/
theorem RegSpec.mem_of_isPair {specs : List RegSpec} {off p : Nat} (h : RegSpec.isPair specs off p = true) :
    ∃ r ∈ specs, r.pair = true ∧ r.place off = some p := by
  unfold RegSpec.isPair at h
  split at h
  next r q hf =>
    obtain ⟨hmem, hplace⟩ := RegSpec.find_eq_some hf
    simp only [Bool.and_eq_true, beq_iff_eq] at h
    exact ⟨r, hmem, h.1, h.2 ▸ hplace⟩
  next => cases h

/-- No word is both the _LO and the _HI of a pair. -/
theorem RegSpec.not_isPair_lo_of_hi {specs : List RegSpec} {off : Nat} (h : RegSpec.isPair specs off 2 = true) :
    RegSpec.isPair specs off 0 = false := by
  unfold RegSpec.isPair at h ⊢
  split at h
  next r q hf =>
    simp only [Bool.and_eq_true, beq_iff_eq] at h
    simp [h.2]
  next => cases h

/-- A word of a pair of a table, but for a _LO that a read clears. -/
def KeptWord (specs : List RegSpec) (off : Nat) : Prop :=
  ∃ lo, (off = lo ∧ readClears lo = false ∨ off = lo + 2) ∧ ∃ r ∈ specs, r.pair = true ∧ r.place lo = some 0

theorem KeptWord.lo {specs : List RegSpec} {off : Nat} (h : RegSpec.isPair specs off 0 = true)
    (hc : readClears off = false) : KeptWord specs off :=
  ⟨off, .inl ⟨rfl, hc⟩, RegSpec.mem_of_isPair h⟩

theorem KeptWord.above {specs : List RegSpec} {off : Nat} (h : RegSpec.isPair specs off 0 = true) :
    KeptWord specs (off + 2) :=
  ⟨off, .inr rfl, RegSpec.mem_of_isPair h⟩

theorem KeptWord.hi {specs : List RegSpec} {off : Nat} (h : RegSpec.isPair specs off 2 = true) :
    KeptWord specs off := by
  obtain ⟨r, hr, hp, hplace⟩ := RegSpec.mem_of_isPair h
  obtain ⟨hle, hlo⟩ := RegSpec.place_lo_of_hi hplace
  exact ⟨off - 2, .inr (by omega), r, hr, hp, hlo⟩

/-- A kept word lies in the room of a row of pairs. -/
theorem KeptWord.row {specs : List RegSpec} {off : Nat} (h : KeptWord specs off) :
    ∃ r ∈ specs, r.pair = true ∧ r.base ≤ off ∧ off < r.base + r.span + 2 := by
  obtain ⟨lo, hoff, r, hr, hp, hplace⟩ := h
  obtain ⟨hbase, hspan⟩ := RegSpec.place_within_of_pair hp hplace
  exact ⟨r, hr, hp, by omega, by omega⟩

/-- So does every kept word where all rows of pairs do. -/
theorem KeptWord.within {specs : List RegSpec} {off a b : Nat} (h : KeptWord specs off)
    (hrows : ∀ r ∈ specs, r.pair = true → a ≤ r.base ∧ r.base + r.span + 2 ≤ b) : a ≤ off ∧ off < b := by
  obtain ⟨r, hr, hp, hbase, hspan⟩ := h.row
  obtain ⟨ha, hb⟩ := hrows r hr hp
  omega

/-! ## What a register shows does not depend on latches

Both sides agree by definition. The index that an offset selects is split first: while it is open, comparing the two sides
would count the base of the block's parts down from the offset. -/

section Live

variable (s : State) (l : Sparse (Option Word)) (off : Nat)

theorem timLive_latch : ({ s with latch := l } : State).timLive off = s.timLive off := by
  unfold State.timLive
  cases finOf 16 ((off - 0x10080) / 16) <;> cases finOf 4 ((off - 0x10200) / 16) <;> rfl

theorem swfLive_latch : ({ s with latch := l } : State).swfLive off = s.swfLive off := by
  unfold State.swfLive
  cases finOf 4 ((off - 0x40400) / 32) <;> cases finOf 11 ((off - 0x40600) / 32) <;> rfl

theorem macLive_latch : ({ s with latch := l } : State).macLive off = s.macLive off := by
  unfold State.macLive
  cases finOf 11 ((off - 0x50000) / 0x400) <;> cases finOf 16 ((off - 0x53000) / 0x80) <;> rfl

/-- Of a ring channel this holds but for its status, which a read settles first (R198). -/
theorem chanLive_latch (c : ChanId) {o : Nat} (ho : o ≠ 2) :
    ({ s with latch := l } : State).chanLive c o = s.chanLive c o := by
  unfold State.chanLive
  exact (if_neg ho).trans (if_neg ho).symm

theorem rngLive_latch {off : Nat} (h0 : off ≠ 0x60102) (h1 : off ≠ 0x60202) :
    ({ s with latch := l } : State).rngLive off = s.rngLive off := by
  unfold State.rngLive
  rw [chanLive_latch s l 0 (o := off - 0x60100) (by omega), chanLive_latch s l 1 (o := off - 0x60200) (by omega)]
  rfl

theorem canApByte_latch (c : CanId) (o : Nat) :
    ({ s with latch := l } : State).canApByte c o = s.canApByte c o := by
  unfold State.canApByte
  cases finOf 8 ((o - 0x1400) / 128) <;> rfl

theorem canLive_latch : ({ s with latch := l } : State).canLive off = s.canLive off := by
  unfold State.canLive
  split
  · cases finOf 6 ((off - 0x70000) / 0x800) <;> rfl
  · cases finOf 6 ((off - 0x74000) / 0x2000)
    · rfl
    · exact congrArg₂ (· ++ ·) (canApByte_latch ..) (canApByte_latch ..)

theorem jigLive_latch : ({ s with latch := l } : State).jigLive off = s.jigLive off := by
  unfold State.jigLive
  split
  · cases finOf 32 ((off - 0x80000) / 0x40) <;> rfl
  split
  · rfl
  split
  · exact congrArg (List.foldl · 0 (List.range 16)) <| funext₂ fun w i => by
      cases finOf 32 (i + 8 * (off - 0x80888)) <;> rfl
  · rfl

theorem motLive_latch : ({ s with latch := l } : State).motLive off = s.motLive off := by
  unfold State.motLive
  cases finOf 12 ((off - 0xA0000) / 256) <;> cases finOf 6 ((off - 0xA0C00) / 32) <;> rfl

theorem fioLive_latch : ({ s with latch := l } : State).fioLive off = s.fioLive off := by
  unfold State.fioLive
  cases finOf 32 ((off - fioOff 0x180) / 4) <;> rfl

theorem bnkLive_latch : ({ s with latch := l } : State).bnkLive off = s.bnkLive off := by
  unfold State.bnkLive
  cases finOf 64 ((off - 0xC0000) / 16) <;> rfl

end Live

/-! ## Each block reads the kept words of its pairs through its table -/

/-- The kept words of a block's pairs lie on its page, a read of them goes through the block's table, and their live
words do not depend on latches. -/
def ReadsPairs (page : Nat) (read : State → Master → Nat → State × Word) (specs : List RegSpec)
    (live : State → Nat → Word) : Prop :=
  ∀ off, KeptWord specs off → off / 65536 = page ∧ (∀ s m, read s m off = s.tableRead specs live m off) ∧
    ∀ s l, live { s with latch := l } off = live s off

section Blocks

theorem tim_readsPairs : ReadsPairs 1 State.timRead timSpecs State.timLive := by
  intro off h
  have hrows : 0x10050 ≤ off ∧ off < 0x10082 := h.within (by decide)
  refine ⟨by omega, fun s m => ?_, fun s l => timLive_latch s l off⟩
  rw [State.timRead, if_neg (by omega), if_neg (by omega), if_neg (by omega)]

theorem tck_readsPairs : ReadsPairs 2 State.tckRead tckSpecs State.tckLive := by
  intro off h
  have hpage : 0x20018 ≤ off ∧ off < 0x30000 := h.within (by decide)
  have hrows : ∀ r ∈ tckSpecs, r.pair = true →
      (r.base + r.span + 2 ≤ 0x20040 ∨ 0x20080 ≤ r.base) ∧ 4 ∣ r.base ∧ 4 ∣ r.outer ∧ 4 ∣ r.width := by decide
  obtain ⟨r, hr, hp, hbase, hspan⟩ := h.row
  obtain ⟨hrow, -⟩ := hrows r hr hp
  obtain ⟨lo, hoff, q, hq, hqp, hplace⟩ := h
  obtain ⟨-, hb, ho, hw⟩ := hrows q hq hqp
  have hword : 4 ∣ lo := RegSpec.dvd_of_place hplace hb ho hw
  simp only [readClears, Bool.or_eq_false_iff, Bool.and_eq_false_iff, decide_eq_false_iff_not,
    beq_eq_false_iff_ne] at hoff
  refine ⟨by omega, fun s m => ?_, fun _ _ => rfl⟩
  rw [State.tckRead, if_neg (by omega), if_neg (by omega), if_neg (by omega)]

theorem jnr_readsPairs : ReadsPairs 3 State.jnrRead jnrSpecs State.jnrLive := by
  intro off h
  have hpage : 0x30000 ≤ off ∧ off < 0x40000 := h.within (by decide)
  exact ⟨by omega, fun _ _ => rfl, fun _ _ => rfl⟩

theorem swf_readsPairs : ReadsPairs 4 State.swfRead swfSpecs State.swfLive := by
  rintro off ⟨lo, hoff, hrow⟩
  simp [swfSpecs, RegSpec.place_eq_some, RegSpec.width] at hrow
  refine ⟨by omega, fun s m => ?_, fun s l => swfLive_latch s l off⟩
  rw [State.swfRead, if_neg (by omega)]

theorem mac_readsPairs : ReadsPairs 5 State.macRead macSpecs State.macLive := by
  rintro off ⟨lo, hoff, hrow⟩
  simp [macSpecs, RegSpec.place_eq_some, RegSpec.width] at hrow
  refine ⟨by omega, fun s m => ?_, fun s l => macLive_latch s l off⟩
  have hgroup : (off - 0x53000) / 0x80 < 16 := by omega
  rw [State.macRead, if_neg (by omega), finOf, dif_pos hgroup]
  dsimp only
  rw [if_neg (by omega), if_neg (by omega)]

theorem rng_readsPairs : ReadsPairs 6 State.rngRead rngSpecs State.rngLive := by
  rintro off ⟨lo, hoff, hrow⟩
  simp [rngSpecs, RegSpec.place_eq_some, RegSpec.width] at hrow
  refine ⟨by omega, fun s m => ?_, fun s l => rngLive_latch s l (by omega) (by omega)⟩
  rw [State.rngRead, if_neg (by omega)]

theorem can_readsPairs : ReadsPairs 7 State.canRead canSpecs State.canLive := by
  intro off h
  have hpage : 0x70000 ≤ off ∧ off < 0x80000 := h.within (by decide)
  exact ⟨by omega, fun _ _ => rfl, fun s l => canLive_latch s l off⟩

theorem jig_readsPairs : ReadsPairs 8 State.jigRead jigReadSpecs State.jigLive := by
  rintro off ⟨lo, hoff, hrow⟩
  simp [jigReadSpecs, jigSpecs, RegSpec.place_eq_some, RegSpec.width] at hrow
  refine ⟨by omega, fun s m => ?_, fun s l => jigLive_latch s l off⟩
  rw [State.jigRead, if_neg (by omega), if_neg (by omega)]

theorem mot_readsPairs : ReadsPairs 10 State.motRead motSpecs State.motLive := by
  intro off h
  have hpage : 0xA0000 ≤ off ∧ off < 0xB0000 := h.within (by decide)
  exact ⟨by omega, fun _ _ => rfl, fun s l => motLive_latch s l off⟩

theorem fio_readsPairs : ReadsPairs 11 State.fioRead fioSpecs State.fioLive := by
  intro off h
  obtain ⟨r, hr, hp, hbase, hspan⟩ := h.row
  have hrows : ∀ r ∈ fioSpecs, r.pair = true →
      0xB0000 ≤ r.base ∧ r.base + r.span + 2 ≤ 0xB0030 ∨ 0xB003C ≤ r.base ∧ r.base + r.span + 2 ≤ 0xC0000 := by decide
  have hrow := hrows r hr hp
  refine ⟨by omega, fun s m => ?_, fun s l => fioLive_latch s l off⟩
  unfold State.fioRead fioOff
  rw [if_neg (by omega), if_neg (by omega), if_neg (by omega)]

theorem bnk_readsPairs : ReadsPairs 12 State.bnkRead bnkSpecs State.bnkLive := by
  rintro off ⟨lo, hoff, hrow⟩
  simp [bnkSpecs, RegSpec.place_eq_some, RegSpec.width] at hrow
  refine ⟨by omega, fun s m => ?_, fun s l => bnkLive_latch s l off⟩
  rw [State.bnkRead, if_neg (by omega), if_neg (by omega), if_neg (by omega)]

theorem kdl_readsPairs : ReadsPairs 14 State.kdlRead kdlSpecs State.kdlLive := by
  intro off h
  have hpage : 0xE0000 ≤ off ∧ off < 0xF0000 := h.within (by decide)
  exact ⟨by omega, fun _ _ => rfl, fun _ _ => rfl⟩

/-- A table without a pair has no kept word. -/
theorem ReadsPairs.of_no_pair {page : Nat} {read : State → Master → Nat → State × Word} {specs : List RegSpec}
    (h : ∀ r ∈ specs, r.pair = false) : ReadsPairs page read specs State.reg := by
  rintro off ⟨lo, -, r, hr, hp, -⟩
  simp [h r hr] at hp

/-- On its page, a block's read is the read of the address space. -/
theorem ReadsPairs.on_page {k page : Nat} {read : State → Master → Nat → State × Word} {specs : List RegSpec}
    {live : State → Nat → Word} (h : ReadsPairs page read specs live) (hk : k / 65536 = page)
    (hread : ∀ s m off, off / 65536 = page → State.blockRead s m off = read s m off) :
    ∃ live, ReadsPairs (k / 65536) State.blockRead specs live := by
  refine ⟨live, fun off hoff => ?_⟩
  obtain ⟨hpage, htable, hlatch⟩ := h off hoff
  exact ⟨hpage.trans hk.symm, fun s m => (hread s m off hpage).trans (htable s m), hlatch⟩

/-- Every read of a kept word goes through the table of its block (R480). -/
theorem exists_readsPairs (k : Nat) : ∃ live, ReadsPairs (k / 65536) State.blockRead (blockSpecs k) live := by
  unfold blockSpecs
  split
  case h_2 hk => exact tim_readsPairs.on_page hk fun _ _ _ h => by simp only [State.blockRead, h]
  case h_3 hk => exact tck_readsPairs.on_page hk fun _ _ _ h => by simp only [State.blockRead, h]
  case h_4 hk => exact jnr_readsPairs.on_page hk fun _ _ _ h => by simp only [State.blockRead, h]
  case h_5 hk => exact swf_readsPairs.on_page hk fun _ _ _ h => by simp only [State.blockRead, h]
  case h_6 hk => exact mac_readsPairs.on_page hk fun _ _ _ h => by simp only [State.blockRead, h]
  case h_7 hk => exact rng_readsPairs.on_page hk fun _ _ _ h => by simp only [State.blockRead, h]
  case h_8 hk => exact can_readsPairs.on_page hk fun _ _ _ h => by simp only [State.blockRead, h]
  case h_9 hk => exact jig_readsPairs.on_page hk fun _ _ _ h => by simp only [State.blockRead, h]
  case h_11 hk => exact mot_readsPairs.on_page hk fun _ _ _ h => by simp only [State.blockRead, h]
  case h_12 hk => exact fio_readsPairs.on_page hk fun _ _ _ h => by simp only [State.blockRead, h]
  case h_13 hk => exact bnk_readsPairs.on_page hk fun _ _ _ h => by simp only [State.blockRead, h]
  case h_15 hk => exact kdl_readsPairs.on_page hk fun _ _ _ h => by simp only [State.blockRead, h]
  all_goals exact ⟨_, .of_no_pair (by decide)⟩

end Blocks

/-! ## Accesses to the registers (R475) -/

section Accesses

variable {s u : State} {m : Master} {a : Addr} {p : Nat} {w : Word}

theorem isPair_of_pairAt (h : pairAt a p = true) :
    (0x3000000 ≤ a.toNat ∧ a.toNat < 0x3100000 ∧ a.toNat % 2 = 0) ∧
      RegSpec.isPair (blockSpecs (a.toNat - 0x3000000)) (a.toNat - 0x3000000) p = true := by
  unfold pairAt regOf at h
  by_cases hreg : 0x3000000 ≤ a.toNat ∧ a.toNat < 0x3100000 ∧ a.toNat % 2 = 0
  · rw [if_pos hreg] at h
    exact ⟨hreg, h⟩
  · rw [if_neg hreg] at h
    cases h

/-- A read of a register that its master may read is carried out by its block. -/
theorem State.busRead_of_rights {n : Nat} (hreg : 0x3000000 ≤ n ∧ n < 0x3100000 ∧ n % 2 = 0)
    (hmay : s.mayAccess m (n - 0x3000000) false = true) (hread : s.blockRead m (n - 0x3000000) = (u, w)) :
    s.busRead m n = (u, .ok w) := by
  have hoff : (n - 0x3000000) / 2 * 2 = n - 0x3000000 := by omega
  rw [State.busRead, if_neg (by omega), if_pos hreg.2.1]
  dsimp only
  rw [hoff, if_pos hmay, hread]

theorem State.answer_ok (s : State) (m : Master) (w : Word) : State.answer m (s, .ok w) = s.respond m w false := rfl

theorem State.registerRead_of_reads (hreg : 0x3000000 ≤ a.toNat ∧ a.toNat < 0x3100000 ∧ a.toNat % 2 = 0)
    (hr : s.reads m (a.toNat - 0x3000000)) (hread : s.blockRead m (a.toNat - 0x3000000) = (u, w)) :
    s.registerRead m a = u.respond m w false := by
  obtain ⟨-, hact, hmay⟩ := hr
  rw [State.registerRead, if_pos hact, State.busRead_of_rights hreg hmay hread, State.answer_ok]

theorem exec_pairLoRead (hp : pairAt a 0 = true) (hr : s.reads m (a.toNat - 0x3000000))
    (hread : s.blockRead m (a.toNat - 0x3000000) = (u, w)) :
    exec (.pairLoRead m a) s = .next (u.respond m w false) := by
  refine congrArg _ ((State.alive_on hr.1 _).trans ?_)
  rw [if_pos hp, State.registerRead_of_reads (isPair_of_pairAt hp).1 hr hread]

end Accesses

/-! ## Reads through a table (R480) -/

section Table

variable {s : State} {specs : List RegSpec} {live : State → Nat → Word} {m : Master} {off : Nat}

theorem State.tableRead_lo (h : RegSpec.isPair specs off 0 = true) :
    s.tableRead specs live m off = (s.latchWord m (off + 2) (live s (off + 2)), live s off) := if_pos h

theorem State.tableRead_hi (h : RegSpec.isPair specs off 2 = true) :
    s.tableRead specs live m off = (s, s.latched m off (live s off)) := by
  rw [State.tableRead, RegSpec.not_isPair_lo_of_hi h, if_neg Bool.false_ne_true, if_pos h]

/-- A master without latches reads the live word. -/
theorem State.tableRead_no_latch :
    (({ s with latch := [] } : State).tableRead specs live m off).2 = live { s with latch := [] } off := by
  unfold State.tableRead
  split
  · rfl
  · split <;> rfl

end Table

/-- What a latch and the answer to its master leave. -/
theorem State.latchWord_respond (s : State) (m : Master) (off : Nat) (w v : Word) :
    let t := (s.latchWord m off w).respond m v false
    t.resp[m] = { value := v, error := false } ∧ Sparse.get none t.latch (latchKey m off) = some w ∧
      (∀ k, k ≠ latchKey m off → Sparse.get none t.latch k = Sparse.get none s.latch k) ∧
      t = { s with latch := t.latch, resp := t.resp } := by
  refine ⟨State.respond_self .., ?_, fun k hk => ?_, rfl⟩
  · rw [State.respond_latch, State.latchWord, Sparse.get_set_self]
  · rw [State.respond_latch, State.latchWord, Sparse.get_set_ne _ _ _ _ hk]

/-- What a block answers to a read of a kept word of a pair: at present its live word, which a latch of the reading
master stands for at _HI (R480). -/
theorem State.blockRead_hi {s : State} {m : Master} {off : Nat}
    (h : RegSpec.isPair (blockSpecs off) off 2 = true) :
    s.blockRead m off = (s, s.latched m off (({ s with latch := [] } : State).blockRead m off).2) := by
  obtain ⟨live, hlive⟩ := exists_readsPairs off
  obtain ⟨-, hread, hlatch⟩ := hlive off (.hi h)
  rw [hread, hread, State.tableRead_no_latch, hlatch, State.tableRead_hi h]

theorem State.blockRead_lo {s : State} {m : Master} {off : Nat}
    (h : RegSpec.isPair (blockSpecs off) off 0 = true) (hc : readClears off = false) :
    s.blockRead m off = (s.latchWord m (off + 2) (({ s with latch := [] } : State).blockRead m (off + 2)).2,
      (({ s with latch := [] } : State).blockRead m off).2) := by
  obtain ⟨live, hlive⟩ := exists_readsPairs off
  obtain ⟨-, hread, hlatch⟩ := hlive off (.lo h hc)
  obtain ⟨-, hread', hlatch'⟩ := hlive (off + 2) (.above h)
  rw [hread, hread, hread', State.tableRead_no_latch, State.tableRead_no_latch, hlatch, hlatch', State.tableRead_lo h]

/-! ## What keeps the latches and what discards them (R312, R417, R480) -/

theorem State.advanceEpoch_frame (s : State) (m : Master) :
    s.advanceEpoch m = { s with epoch := (s.advanceEpoch m).epoch } := by
  unfold State.advanceEpoch
  split
  · split <;> rfl
  · rfl

theorem State.dropP0_frame (s : State) (m : Master) : s.dropP0 m = { s with flue := (s.dropP0 m).flue } := by
  unfold State.dropP0
  induction finList 64 generalizing s with
  | nil => rfl
  | cons f r ih =>
    rw [List.foldl_cons, ih]
    split <;> rfl

@[simp] theorem State.advanceEpoch_latch (s : State) (m : Master) : (s.advanceEpoch m).latch = s.latch := by
  rw [State.advanceEpoch_frame]

@[simp] theorem State.dropP0_latch (s : State) (m : Master) : (s.dropP0 m).latch = s.latch := by
  rw [State.dropP0_frame]

@[simp] theorem State.logClamp_latch (s : State) (target cause : Nat) (a : Addr) :
    (s.logClamp target cause a).latch = s.latch := by rw [State.logClamp_frame]

theorem State.enterStopped_latch (s : State) (h : HearthId) : (s.enterStopped h).latch = s.latch :=
  (State.dropP0_latch ..).trans (State.advanceEpoch_latch ..)

theorem State.releaseHearth_latch (s : State) (h : HearthId) : (s.releaseHearth h).latch = s.latch :=
  State.enterStopped_latch _ h

theorem State.clampHearth_latch (s : State) (h : HearthId) (cause : Nat) (a : Addr) :
    (s.clampHearth h cause a).latch = s.latch := by
  unfold State.clampHearth
  split
  · rfl
  · exact State.logClamp_latch ..

theorem State.hostReset_latch (s : State) (n : Fin 4) :
    (s.hostReset n).latch = (s.clearLatches (hostMaster n)).latch := by
  unfold State.hostReset
  simp only [State.raise_latch, State.dropP0_latch]
  exact congrArg (List.filter _) (State.advanceEpoch_latch s _)

/-- What a table holds at a key after its entries are sorted out by key. -/
theorem Sparse.get_filter {α : Type} (d : α) (l : Sparse α) (keep : Nat → Bool) (k : Nat) :
    Sparse.get d (l.filter fun e => keep e.1) k = if keep k then Sparse.get d l k else d := by
  induction l with
  | nil => simp
  | cons e r ih =>
    rw [List.filter_cons, Sparse.get_cons]
    by_cases hk : e.1 = k
    · subst hk
      cases hkeep : keep e.1 <;> simp [hkeep, ih, Sparse.get_cons]
    · cases keep e.1 <;> simp [ih, Sparse.get_cons, hk]

/-- Discarding a master's latches leaves those of the others (R417). -/
theorem State.get_clearLatches (s : State) (m k : Master) {off : Nat} (hoff : off < 0x100000) :
    Sparse.get none (s.clearLatches m).latch (latchKey k off) =
      if k = m then none else Sparse.get none s.latch (latchKey k off) := by
  have hkey : latchKey k off / 1048576 = k.val := by
    unfold latchKey
    omega
  refine (Sparse.get_filter none s.latch (fun e => e / 1048576 != m.val) (latchKey k off)).trans ?_
  rw [hkey]
  by_cases hk : k = m
  · simp [hk]
  · rw [if_neg hk, if_pos (by simpa [Fin.ext_iff] using hk)]

/-! ## The statement -/

/-- A read of a _LO answers its word and latches the _HI word for its master (R480). The words are given as `live`, what
a master without latches reads. -/
theorem exec_pairLoRead_latches {s : State} {m : Master} {a : Addr} {off : Nat} {live : Nat → State × Word}
    (hoff : a.toNat - 0x3000000 = off) (hlive : ∀ o, ({ s with latch := [] } : State).blockRead m o = live o)
    (hpair : pairAt a 0 = true) (hclears : readClears off = false) (hreads : s.reads m off) :
    exec (.pairLoRead m a) s = .next ((s.latchWord m (off + 2) (live (off + 2)).2).respond m (live off).2 false) := by
  subst hoff
  have hread := State.blockRead_lo (s := s) (m := m) (isPair_of_pairAt hpair).2 hclears
  rw [hlive, hlive] at hread
  exact exec_pairLoRead hpair hreads hread

/-- Settles O54: every block reads the words of its pairs through its table, so a read of _LO latches the live _HI and a
read of _HI answers the latch or the live word; of the events only a host reset touches latches, those of its host. -/
theorem pairReads : Obligations.PairReads := by
  unfold Obligations.PairReads
  refine ⟨?lo, ?hi, ?kept, ?cleared⟩
  case lo =>
    intro m a s off live hpair hclears hreads
    exact ⟨_, exec_pairLoRead_latches (off := off) (live := live) rfl (fun _ => rfl) hpair hclears hreads,
      State.latchWord_respond ..⟩
  case hi =>
    intro m a s
    dsimp only
    intro hpair hreads
    obtain ⟨hreg, hp⟩ := isPair_of_pairAt hpair
    obtain ⟨-, -, hmay⟩ := hreads
    exact State.busRead_of_rights hreg hmay (State.blockRead_hi hp)
  case kept =>
    exact fun h cause a s => ⟨State.enterStopped_latch s h, rfl, State.clampHearth_latch s h cause a,
      State.releaseHearth_latch s h⟩
  case cleared =>
    intro n off s hoff t
    simp only [t, State.hostReset_latch, State.get_clearLatches s _ _ hoff, if_true, true_and]
    exact fun m hm => if_neg hm

end Sys2Proof.Machine
end

section
/-! PROOFS. Accesses to registers (R14, R15, R476, R477, R482, R489): writes that a block's table carries out, reserved
offsets, registers that a read clears, violations of hearths and hosts, and the statement itself. -/

namespace Sys2Proof.Machine

open Sys2Proof

/-! ## Writes to the registers (R475 to R477) -/

section Writes

variable {s : State} {m : Master} {a : Addr} {off : Nat}

theorem exec_registerWrite (hup : s.on) (m : Master) (sel : ByteSel) (a : Addr) (v : Word) :
    exec (.registerWrite m sel a v) s = .next (s.registerWrite m sel a v) :=
  congrArg _ (State.alive_on hup _)

theorem toNat_regAddr (hoff : off < 0x100000) : (BitVec.ofNat 26 (0x3000000 + off)).toNat = 0x3000000 + off := by
  rw [BitVec.toNat_ofNat]
  exact Nat.mod_eq_of_lt (by omega)

/-- A write of a word that its master may write is carried out by its block. -/
theorem exec_registerWrite_word (hoff : off < 0x100000) (heven : off % 2 = 0) (hw : s.writes m off) (v : Word) :
    exec (.registerWrite m .word (BitVec.ofNat 26 (0x3000000 + off)) v) s =
      .next ((s.blockWrite m off v).respond m 0 false) := by
  obtain ⟨hup, hact, hmay⟩ := hw
  have hword : (0x3000000 + off - 0x3000000) / 2 * 2 = off := by omega
  rw [exec_registerWrite hup, State.registerWrite, toNat_regAddr hoff, if_pos hact, if_pos (by omega), State.busWrite,
    if_neg (by omega), if_pos (by omega)]
  simp only [hword, hmay]
  rfl

/-- A byte write that its master may make gets an error response and changes nothing (R477). -/
theorem exec_registerWrite_byte {sel : ByteSel} (hsel : sel ≠ .word) (hge : 0x3000000 ≤ a.toNat)
    (hlt : a.toNat < 0x3100000) (hw : s.writes m (a.toNat / 2 * 2 - 0x3000000)) (v : Word) :
    exec (.registerWrite m sel a v) s = .next (s.respond m 0 true) := by
  obtain ⟨hup, hact, hmay⟩ := hw
  have hword : (a.toNat - 0x3000000) / 2 * 2 = a.toNat / 2 * 2 - 0x3000000 := by omega
  rw [exec_registerWrite hup, State.registerWrite, if_pos hact, if_pos hge, State.busWrite,
    if_neg (by omega), if_pos hlt]
  simp only [hword, hmay, bne_iff_ne.2 hsel]
  rfl

end Writes

/-! ## Single registers of the tables (R14, R15) -/

/-- A single register of a row that its block writes through its table. -/
structure PlainRow (off : Nat) (r : RegSpec) : Prop where
  find : RegSpec.find (blockSpecs off) off = some (r, 0)
  single : r.pair = false
  act : ∀ (s : State) (m : Master) (v : Word), s.blockAct m off v = s.tableWrite (blockSpecs off) m off v

section Rows

variable {s : State} {m : Master} {off : Nat} {r : RegSpec}

theorem PlainRow.blockWrite (h : PlainRow off r) (s : State) (m : Master) (v : Word) :
    s.blockWrite m off v = s.setReg off (r.apply 0 (s.reg off) (s.freshAt off) v) := by
  obtain ⟨hfind, hsingle, hact⟩ := h
  simp [State.blockWrite, RegSpec.isPair, hact, State.tableWrite, hfind, hsingle]

/-- What a write to a single register leaves. -/
theorem exec_plainRow (h : PlainRow off r) (hoff : off < 0x100000) (heven : off % 2 = 0) (hw : s.writes m off)
    (v : Word) :
    ∃ t, exec (.registerWrite m .word (BitVec.ofNat 26 (0x3000000 + off)) v) s = .next t ∧
      t.reg off = r.apply 0 (s.reg off) (s.freshAt off) v ∧ (∀ c, c ≠ off → t.reg c = s.reg c) ∧
      t.resp[m].error = false ∧ t = { s with regs := t.regs, resp := t.resp } := by
  refine ⟨_, exec_registerWrite_word hoff heven hw v, ?_⟩
  rw [h.blockWrite]
  exact ⟨State.reg_setReg_self .., fun c hc => State.reg_setReg_ne _ _ hc, by simp, rfl⟩

/-- A register of W1C bits: a 1 clears its bit, but for what the device has set in this beat (R15). -/
theorem RegSpec.apply_event (hrw : r.rw = 0) (old keep v : Word) :
    r.apply 0 old keep v = old &&& ~~~(v &&& BitVec.ofNat 16 r.w1c &&& ~~~keep) := by
  have hmask : (if r.pair = true ∧ 0 = 2 then r.rw &&& r.rwHi else r.rw) = 0 := (if_neg (by simp)).trans hrw
  simp only [RegSpec.apply, hmask, merge, BitVec.not_zero, BitVec.and_allOnes, BitVec.and_zero, BitVec.or_zero]

/-- A register of RW bits takes them from the word written (R14). -/
theorem RegSpec.apply_enable (hw1c : r.w1c = 0) (old keep v : Word) :
    r.apply 0 old keep v = (old &&& ~~~BitVec.ofNat 16 r.rw) ||| (v &&& BitVec.ofNat 16 r.rw) := by
  have hmask : (if r.pair = true ∧ 0 = 2 then r.rw &&& r.rwHi else r.rw) = r.rw := if_neg (by simp)
  simp only [RegSpec.apply, hmask, merge, hw1c, BitVec.and_zero, BitVec.zero_and, BitVec.not_zero, BitVec.and_allOnes]

end Rows

/-! ## Reserved offsets (R476) -/

section Reserved

variable {s : State} {m : Master} {off : Nat}

theorem RegSpec.find_eq_none {specs : List RegSpec}
    (hrows : ∀ r ∈ specs, 0 < r.width ∧ (off < r.base ∨ r.base + r.span ≤ off)) : RegSpec.find specs off = none := by
  cases hf : RegSpec.find specs off with
  | none => rfl
  | some e =>
    obtain ⟨hmem, hplace⟩ := RegSpec.find_eq_some hf
    obtain ⟨hwidth, hout⟩ := hrows e.1 hmem
    have hin := RegSpec.place_within hplace hwidth
    omega

/-- Offsets past the last register of the ID, TCK and BNK blocks. -/
def ReservedOff (off : Nat) : Prop :=
  (0x100 ≤ off ∧ off < 0x10000) ∨ (0x20C80 ≤ off ∧ off < 0x30000) ∨ (0xC0600 ≤ off ∧ off < 0xD0000)

/-- No row of a table names a reserved offset, and the block of one leaves its accesses to its table. -/
theorem ReservedOff.accesses (h : ReservedOff off) :
    RegSpec.find (blockSpecs off) off = none ∧
      (∀ (s : State) (m : Master) (v : Word), s.blockAct m off v = s.tableWrite (blockSpecs off) m off v) ∧
      ∀ (s : State) (m : Master), s.blockRead m off = (s, s.reg off) := by
  have hrows {specs : List RegSpec} {b : Nat} (hle : b ≤ off)
      (hspan : ∀ r ∈ specs, 0 < r.width ∧ r.base + r.span ≤ b) : RegSpec.find specs off = none :=
    RegSpec.find_eq_none fun r hr => ⟨(hspan r hr).1, .inr ((hspan r hr).2.trans hle)⟩
  have htable {specs : List RegSpec} (hnone : RegSpec.find specs off = none) (live : State → Nat → Word) (s : State)
      (m : Master) : s.tableRead specs live m off = (s, live s off) := by
    simp [State.tableRead, RegSpec.isPair, hnone]
  rcases h with h | h | h
  · have hpage : off / 65536 = 0 := by omega
    have hnone : RegSpec.find idSpecs off = none := hrows (b := 0x100) h.1 (by decide)
    refine ⟨by simpa only [blockSpecs, hpage], fun s m v => ?_, fun s m => ?_⟩
    · simp only [State.blockAct, blockSpecs, hpage, State.idWrite]
    · simp only [State.blockRead, hpage, State.idRead]
      rw [if_neg (by omega), if_neg (by omega)]
  · have hpage : off / 65536 = 2 := by omega
    have hnone : RegSpec.find tckSpecs off = none := hrows (b := 0x20C80) h.1 (by decide)
    have hmode : tckTableMode off = none := by
      rw [tckTableMode, if_neg (by omega), if_neg (by omega)]
    refine ⟨by simpa only [blockSpecs, hpage], fun s m v => ?_, fun s m => ?_⟩
    · simp only [State.blockAct, blockSpecs, hpage, State.tckWrite, hmode]
      rw [if_neg (by omega), if_neg (by omega), if_neg (by omega)]
    · simp only [State.blockRead, hpage]
      rw [State.tckRead, if_neg (by omega), if_neg (by omega), if_neg (by omega), htable hnone]
      unfold State.tckLive
      dsimp only
      rw [if_neg (by omega), if_neg (by omega), if_neg (by omega), if_neg (by omega), if_neg (by omega)]
  · have hpage : off / 65536 = 12 := by omega
    have hnone : RegSpec.find bnkSpecs off = none := hrows (b := 0xC0600) h.1 (by decide)
    refine ⟨by simpa only [blockSpecs, hpage], fun s m v => ?_, fun s m => ?_⟩
    · simp only [State.blockAct, blockSpecs, hpage, State.bnkWrite]
      rw [if_neg (by omega)]
    · simp only [State.blockRead, hpage]
      rw [State.bnkRead, if_neg (by omega), if_neg (by omega), if_neg (by omega), htable hnone, State.bnkLive,
        if_neg (by omega), if_neg (by omega), if_neg (by omega), if_neg (by omega), if_neg (by omega)]

theorem ReservedOff.lt (h : ReservedOff off) : off < 0x100000 := by
  unfold ReservedOff at h
  omega

/-- A write to a reserved offset is ignored. -/
theorem exec_registerWrite_reserved (h : ReservedOff off) (heven : off % 2 = 0) (hw : s.writes m off) (v : Word) :
    exec (.registerWrite m .word (BitVec.ofNat 26 (0x3000000 + off)) v) s = .next (s.respond m 0 false) := by
  obtain ⟨hnone, hact, -⟩ := h.accesses
  have hwrite : s.blockWrite m off v = s := by
    simp [State.blockWrite, RegSpec.isPair, hact, State.tableWrite, hnone]
  rw [exec_registerWrite_word h.lt heven hw, hwrite]

/-- A read of a reserved offset reads 0. -/
theorem State.busRead_reserved (h : ReservedOff off) (heven : off % 2 = 0) (hr : s.reads m off) (hzero : s.reg off = 0) :
    s.busRead m (0x3000000 + off) = (s, .ok 0) := by
  obtain ⟨-, -, hmay⟩ := hr
  obtain ⟨-, -, hread⟩ := h.accesses
  have hlt := h.lt
  have hoff : 0x3000000 + off - 0x3000000 = off := by omega
  refine State.busRead_of_rights (n := 0x3000000 + off) (by omega) ?_ ?_ <;> rw [hoff]
  · exact hmay
  · rw [hread, hzero]

end Reserved

/-! ## Violations (R489) -/

section Violations

variable {s : State} {m : Master} {h : HearthId} {n : Fin 4}

theorem State.logClamp_reg_ne (s : State) (target cause : Nat) (a : Addr) {off : Nat} (hoff : off ≠ 0xF0004) :
    (s.logClamp target cause a).reg off = s.reg off := by
  have hclamp := State.reg_raise_ne s 10 hoff
  unfold State.logClamp
  dsimp only
  split
  · exact hclamp
  · rw [State.reg_raise_ne _ 11 hoff]
    exact hclamp

@[simp] theorem State.logClamp_bank (s : State) (target cause : Nat) (a : Addr) :
    (s.logClamp target cause a).bank = s.bank := by rw [State.logClamp_frame]

@[simp] theorem State.logClamp_host (s : State) (target cause : Nat) (a : Addr) :
    (s.logClamp target cause a).host = s.host := by rw [State.logClamp_frame]

/-- A clamp of a hearth changes the events of the hearth and of the SSN_ block, no memory and no other hearth. -/
theorem State.clampHearth_frame (hst : s.hearth[h].st ≠ .clamped) (cause : Nat) (a : Addr) :
    let t := s.clampHearth h cause a
    (∀ off, off ≠ 0xF0004 → off ≠ 0x90004 + 0x200 * h.val → t.reg off = s.reg off) ∧ t.bank = s.bank ∧
      ∀ g : HearthId, g ≠ h → t.hearth[g] = s.hearth[g] := by
  dsimp only
  rw [State.clampHearth, if_neg hst]
  refine ⟨fun off hlog hev => ?_, by simp, fun g hg => ?_⟩
  · rw [State.logClamp_reg_ne _ _ _ _ hlog, State.reg_raise_ne _ _ hev]
    exact State.reg_congr rfl off
  · simp only [State.logClamp_hearth, State.raise_hearth]
    exact upd_ne _ _ hg

/-- A fence of a host changes its port and the events of the FLU_ and SSN_ blocks, no memory and no hearth (R419). -/
theorem State.fenceHost_frame (hf : s.host[n].fenced = false) (cause : Nat) (a : Addr) :
    let t := s.fenceHost n cause a
    t.host[n].fenced = true ∧ bit (t.reg 0xD0700) n.val = true ∧
      (∀ off, off ≠ 0xF0004 → off ≠ 0xD0700 → t.reg off = s.reg off) ∧ t.bank = s.bank ∧ t.hearth = s.hearth := by
  dsimp only
  rw [State.fenceHost, if_neg (by rw [hf]; exact Bool.false_ne_true)]
  refine ⟨by simp [HostPort.fence], ?_, fun off hlog hev => ?_, by simp, by simp⟩
  · rw [State.logClamp_reg_ne _ _ _ _ (by decide)]
    exact State.bit_raise _ _ (by omega)
  · rw [State.logClamp_reg_ne _ _ _ _ hlog, State.reg_raise_ne _ _ hev]
    exact State.reg_congr rfl off

theorem State.violate_hearthMaster (s : State) (h : HearthId) (cause : Nat) (a : Addr) :
    s.violate (hearthMaster h) cause a = s.clampHearth h cause a := by
  simp only [State.violate, hearthOf_hearthMaster]

theorem hearthOf_hostMaster (n : Fin 4) : hearthOf (hostMaster n) = none := dif_neg (by simp only [hostMaster]; omega)

theorem State.violate_hostMaster (s : State) (n : Fin 4) (cause : Nat) (a : Addr) :
    s.violate (hostMaster n) cause a = s.fenceHost n cause a := by
  simp only [State.violate, hearthOf_hostMaster, hostOf_hostMaster]

theorem State.canAct_hostMaster (hworks : s.hostWorks n = true) (hf : s.host[n].fenced = false) :
    s.canAct (hostMaster n) = true := by
  simp only [State.canAct, hearthOf_hostMaster, hostOf_hostMaster, hworks, hf]
  rfl

/-- An access of a hearth or a host to registers outside its rights, or past them, is a violation with an error
response. -/
theorem State.registerWrite_violation {a : Addr} (hact : s.canAct m = true)
    (hm : (hearthOf m).isSome = true ∨ (hostOf m).isSome = true) (hge : 0x3000000 ≤ a.toNat)
    (hlt : a.toNat < 0x3200000 ∨ (hostOf m).isSome = true)
    (hout : 0x3100000 ≤ a.toNat ∨ s.mayAccess m (a.toNat / 2 * 2 - 0x3000000) true = false) (v : Word) :
    ∃ cause addr, s.registerWrite m .word a v = (s.violate m cause addr).respond m 0 true := by
  have hviol : violRes m = .viol := if_pos (by simpa using hm)
  have hanswer (u : State) : State.answer m (u, .viol) = u.respond m 0 true := rfl
  rw [State.registerWrite, if_pos hact, if_pos hge, State.busWrite, if_neg (by omega)]
  by_cases hreg : a.toNat < 0x3100000
  · have hword : (a.toNat - 0x3000000) / 2 * 2 = a.toNat / 2 * 2 - 0x3000000 := by omega
    have hmay := hout.resolve_left (by omega)
    rw [if_pos hreg]
    simp only [hword, hmay, hviol, Bool.not_false, if_true, hanswer, State.regViolation]
    exact ⟨_, _, rfl⟩
  · rw [if_neg hreg]
    by_cases hwin : a.toNat < 0x3200000
    · rw [if_pos hwin, hviol, hanswer]
      exact ⟨_, _, rfl⟩
    · rw [if_neg hwin, State.reservedAccess, if_pos (hlt.resolve_left hwin), hanswer]
      exact ⟨_, _, rfl⟩

end Violations

/-! ## Registers that a read clears (R14, R77, R482) -/

section ReadClear

variable {s u : State} {m : Master} {a : Addr} {off : Nat} {w : Word}

theorem pairAt_eq (ha : a.toNat = 0x3000000 + off) (hlt : off < 0x100000) (heven : off % 2 = 0) (p : Nat) :
    pairAt a p = RegSpec.isPair (blockSpecs off) off p := by
  have hoff : a.toNat - 0x3000000 = off := by omega
  rw [pairAt, regOf, if_pos (by omega), hoff]

/-- A read of a register that it clears, carried out by its block, which answers the state and the word of `r`. -/
theorem exec_readClear {r : State × Word} (ha : a.toNat = 0x3000000 + off) (hlt : off < 0x100000) (heven : off % 2 = 0)
    (hclears : readClears off = true) (hr : s.reads m off) (hread : s.blockRead m off = r) :
    exec (.readClear m a) s = .next (r.1.respond m r.2 false) := by
  obtain rfl : a.toNat - 0x3000000 = off := by omega
  have hreg : 0x3000000 ≤ a.toNat ∧ a.toNat < 0x3100000 ∧ a.toNat % 2 = 0 := by omega
  have hof : regOf a = some (a.toNat - 0x3000000) := if_pos hreg
  obtain ⟨u, w⟩ := r
  refine congrArg _ ((State.alive_on hr.1 _).trans ?_)
  simp only [hof, hclears, if_true, State.registerRead_of_reads hreg hr hread]

/-- What the clear of a single register leaves. -/
theorem State.clearRead_respond (s : State) (m : Master) (off : Nat) :
    let t := (s.clearRead off).1.respond m (s.clearRead off).2 false
    t.resp[m] = { value := s.reg off, error := false } ∧ t.reg off = s.freshAt off ∧
      (∀ c, c ≠ off → t.reg c = s.reg c) ∧ t = { s with regs := t.regs, latch := t.latch, resp := t.resp } :=
  ⟨State.respond_self .., State.reg_setReg_self .., fun _ hc => State.reg_setReg_ne _ _ hc, rfl⟩

/-- A read of the _LO of a pair that it clears latches the high word and leaves in both what this beat has counted. -/
def State.clearPair (s : State) (m : Master) (off : Nat) : State × Word :=
  ((s.latchWord m (off + 2) (s.reg (off + 2))).setPair off (ofWords [s.freshAt off, s.freshAt (off + 2)]), s.reg off)

theorem wordOf_ofWords (x y : Word) : wordOf (ofWords [x, y]) 0 = x ∧ wordOf (ofWords [x, y]) 1 = y := by
  constructor <;> apply BitVec.eq_of_toNat_eq <;> simp only [wordOf, ofWords, BitVec.toNat_ofNat] <;> omega

theorem State.clearPair_respond (s : State) (m : Master) (off : Nat) :
    let t := (s.clearPair m off).1.respond m (s.clearPair m off).2 false
    t.resp[m] = { value := s.reg off, error := false } ∧ t.reg off = s.freshAt off ∧
      t.reg (off + 2) = s.freshAt (off + 2) ∧ t.latched m (off + 2) 0 = s.reg (off + 2) ∧
      (∀ c, c ≠ off → c ≠ off + 2 → t.reg c = s.reg c) ∧
      t = { s with regs := t.regs, latch := t.latch, resp := t.resp } := by
  obtain ⟨hlo, hhi⟩ := wordOf_ofWords (s.freshAt off) (s.freshAt (off + 2))
  simp only [State.clearPair, State.setPair, hlo, hhi]
  refine ⟨State.respond_self .., ?_, ?_, ?_, fun c hc hc2 => ?_, ?_⟩
  · rw [State.reg_respond, State.reg_setReg_ne _ _ (by omega), State.reg_setReg_self]
  · rw [State.reg_respond, State.reg_setReg_self]
  · simp [State.latched, State.latchWord]
  · rw [State.reg_respond, State.reg_setReg_ne _ _ hc2, State.reg_setReg_ne _ _ hc]
    exact State.reg_congr rfl c
  · simp only [State.respond, State.setReg, State.latchWord]

/-- The overrun counts of the TCK_ block are pairs that a read of _LO clears (R77). -/
theorem tckRead_clears_pair (hlo : 0x20080 ≤ off) (hhi : off < 0x200B8) (hword : off % 4 = 0) :
    RegSpec.isPair tckSpecs off 0 = true ∧ ∀ s m, State.tckRead s m off = s.clearPair m off := by
  have hpairs : ∀ k < 14, RegSpec.isPair tckSpecs (0x20080 + 4 * k) 0 = true := by decide
  have hpair : RegSpec.isPair tckSpecs off 0 = true := by
    have hk := hpairs ((off - 0x20080) / 4) (by omega)
    rwa [show 0x20080 + 4 * ((off - 0x20080) / 4) = off by omega] at hk
  have hlive (s : State) {o : Nat} (h0 : 0x20080 ≤ o) (h1 : o < 0x200C0) : s.tckLive o = s.reg o := by
    unfold State.tckLive
    dsimp only
    rw [if_neg (by omega), if_neg (by omega), if_neg (by omega), if_neg (by omega), if_neg (by omega)]
  refine ⟨hpair, fun s m => ?_⟩
  rw [State.tckRead, if_neg (by omega), if_neg (by omega), if_pos ⟨hlo, hhi, hword⟩]
  dsimp only
  rw [State.tableRead_lo hpair, hlive s hlo (by omega), hlive s (by omega) (by omega)]
  rfl

/-- The registers of the TCK_, MAC_ and RNG_ blocks that a read clears: single ones, and the pairs of overrun counts. -/
theorem blockRead_clears (hpage : off / 65536 = 2 ∨ off / 65536 = 5 ∨ off / 65536 = 6) (hc : readClears off = true) :
    RegSpec.isPair (blockSpecs off) off 0 = false ∧ (∀ s m, State.blockRead s m off = s.clearRead off) ∨
      RegSpec.isPair (blockSpecs off) off 0 = true ∧ ∀ s m, State.blockRead s m off = s.clearPair m off := by
  have hsingle {specs : List RegSpec} (hrows : ∀ r ∈ specs, r.pair = true → off < r.base ∨ r.base + r.span ≤ off) :
      RegSpec.isPair specs off 0 = false := by
    by_contra hp
    obtain ⟨r, hr, hpair, hplace⟩ := RegSpec.mem_of_isPair (Bool.eq_true_of_not_eq_false hp)
    have hin := RegSpec.place_within_of_pair hpair hplace
    have hout := hrows r hr hpair
    omega
  simp only [readClears, Bool.or_eq_true, Bool.and_eq_true, decide_eq_true_eq, beq_iff_eq] at hc
  rcases hpage with hpage | hpage | hpage <;> simp only [blockSpecs, State.blockRead, hpage]
  · by_cases hcount : 0x20080 ≤ off
    · obtain ⟨hpair, hread⟩ := tckRead_clears_pair (off := off) hcount (by omega) (by omega)
      exact .inr ⟨hpair, hread⟩
    · have hrows : ∀ r ∈ tckSpecs, r.pair = true → r.base + r.span ≤ 0x20040 ∨ 0x2005C ≤ r.base := by decide
      refine .inl ⟨hsingle fun r hr hp => ?_, fun s m => ?_⟩
      · have hrow := hrows r hr hp
        omega
      · rw [State.tckRead, if_neg (by omega), if_pos (by omega)]
  · have hrows : ∀ r ∈ macSpecs, r.pair = true → 0x52C00 ≤ r.base := by decide
    refine .inl ⟨hsingle fun r hr hp => ?_, fun s m => ?_⟩
    · have hrow := hrows r hr hp
      omega
    · rw [State.macRead, if_pos (by omega), if_pos (by omega)]
  · have hoff : off = 0x6011A ∨ off = 0x6021A := by omega
    refine .inl ⟨?_, fun s m => by rw [State.rngRead, if_pos hoff]⟩
    rcases hoff with rfl | rfl <;> rfl

/-- What a read of such a register answers and leaves. -/
theorem exec_readClear_block (ha : a.toNat = 0x3000000 + off) (heven : off % 2 = 0)
    (hpage : off / 65536 = 2 ∨ off / 65536 = 5 ∨ off / 65536 = 6) (hc : readClears off = true) (hr : s.reads m off) :
    ∃ t, exec (.readClear m a) s = .next t ∧ t.resp[m] = { value := s.reg off, error := false } ∧
      t.reg off = s.freshAt off ∧
      (pairAt a 0 = true → t.reg (off + 2) = s.freshAt (off + 2) ∧ t.latched m (off + 2) 0 = s.reg (off + 2)) ∧
      (∀ c, c ≠ off → (pairAt a 0 = false ∨ c ≠ off + 2) → t.reg c = s.reg c) ∧
      t = { s with regs := t.regs, latch := t.latch, resp := t.resp } := by
  rw [pairAt_eq ha (by omega) heven]
  rcases blockRead_clears hpage hc with ⟨hp, hread⟩ | ⟨hp, hread⟩ <;> rw [hp]
  · obtain ⟨hresp, hoff, hother, ht⟩ := State.clearRead_respond s m off
    exact ⟨_, exec_readClear ha (by omega) heven hc hr (hread s m), hresp, hoff, by simp,
      fun c hne _ => hother c hne, ht⟩
  · obtain ⟨hresp, hoff, hhi, hlatch, hother, ht⟩ := State.clearPair_respond s m off
    exact ⟨_, exec_readClear ha (by omega) heven hc hr (hread s m), hresp, hoff, fun _ => ⟨hhi, hlatch⟩,
      fun c hne hne' => hother c hne (by simpa using hne'), ht⟩

/-- The count of lost frames of a mirror clears as it is read. -/
theorem swfRead_lost (s : State) (m : Master) (i : Fin 4) :
    s.blockRead m (0x4040E + 32 * i.val) = (s.mapMirror i fun x => { x with lost := s.freshAt (0x4040E + 32 * i.val) },
      s.swf.mirrors[i].lost) := by
  have hpage : (0x4040E + 32 * i.val) / 65536 = 4 := by omega
  have hmirror : finOf 4 ((0x4040E + 32 * i.val - 0x40400) / 32) = some i := by
    rw [show (0x4040E + 32 * i.val - 0x40400) / 32 = i.val by omega, finOf_val]
  have hword : (0x4040E + 32 * i.val) % 32 = 0xE := by omega
  simp only [State.blockRead, hpage]
  rw [State.swfRead, if_pos (by omega), hmirror, State.swfLive, if_neg (by omega), if_pos (by omega), hmirror, hword]
  rfl

theorem exec_readClear_lost {i : Fin 4} (hr : s.reads m (0x4040E + 32 * i.val)) :
    exec (.readClear m (BitVec.ofNat 26 (0x304040E + 32 * i.val))) s = .next
      ((s.mapMirror i fun x => { x with lost := s.freshAt (0x4040E + 32 * i.val) }).respond m
        s.swf.mirrors[i].lost false) := by
  have ha : (BitVec.ofNat 26 (0x304040E + 32 * i.val)).toNat = 0x3000000 + (0x4040E + 32 * i.val) := by
    rw [BitVec.toNat_ofNat]
    omega
  have hclears : ∀ i : Fin 4, readClears (0x4040E + 32 * i.val) = true := by decide
  exact exec_readClear ha (by omega) (by omega) (hclears i) hr (swfRead_lost s m i)

/-- What the clear of a mirror's count leaves. -/
theorem State.mapMirror_lost_respond (s : State) (m : Master) (i : Fin 4) (w v : Word) :
    let t := (s.mapMirror i fun x => { x with lost := w }).respond m v false
    t.resp[m].value = v ∧ t.swf.mirrors[i].lost = w ∧ t = { s with
      swf := { s.swf with mirrors := s.swf.mirrors.set i { s.swf.mirrors[i] with lost := t.swf.mirrors[i].lost } }
      resp := t.resp } := by
  have hlost : ((s.mapMirror i fun x => { x with lost := w }).respond m v false).swf.mirrors[i].lost = w := by
    simp [State.mapMirror, State.mapSwf]
  refine ⟨by simp, hlost, ?_⟩
  dsimp only
  rw [hlost]
  rfl

end ReadClear

/-! ## The statement -/

/-- Settles O56: a write goes through the table of its block, which names no reserved offset; a read clears its register or
pair but for what this beat has counted; an access outside a master's rights clamps its hearth or fences its host. -/
theorem registerAccess : Obligations.RegisterAccess := by
  unfold Obligations.RegisterAccess
  refine ⟨?events, ?enables, ?bytes, ?reservedWrites, ?reservedReads, ?clears, ?mirrors, ?hearths, ?hosts⟩
  case events =>
    intro m off bits v s hmem hw
    simp only [List.mem_cons, Prod.mk.injEq, List.not_mem_nil, or_false] at hmem
    have hrow : ∃ r, PlainRow off r ∧ r.rw = 0 ∧ BitVec.ofNat 16 r.w1c = bits := by
      rcases hmem with ⟨rfl, rfl⟩ | ⟨rfl, rfl⟩ | ⟨rfl, rfl⟩ | ⟨rfl, rfl⟩ | ⟨rfl, rfl⟩ | ⟨rfl, rfl⟩ | ⟨rfl, rfl⟩ |
        ⟨rfl, rfl⟩ | ⟨rfl, rfl⟩ <;> exact ⟨_, ⟨rfl, rfl, fun _ _ _ => rfl⟩, rfl, rfl⟩
    obtain ⟨r, hplain, hrw, rfl⟩ := hrow
    rw [← RegSpec.apply_event hrw]
    exact exec_plainRow hplain (by omega) (by omega) hw v
  case enables =>
    intro m off bits v s hmem hw
    simp only [List.mem_cons, Prod.mk.injEq, List.not_mem_nil, or_false] at hmem
    have hrow : ∃ r, PlainRow off r ∧ r.w1c = 0 ∧ BitVec.ofNat 16 r.rw = bits := by
      rcases hmem with ⟨rfl, rfl⟩ | ⟨rfl, rfl⟩ | ⟨rfl, rfl⟩ | ⟨rfl, rfl⟩ | ⟨rfl, rfl⟩ | ⟨rfl, rfl⟩ | ⟨rfl, rfl⟩ |
        ⟨rfl, rfl⟩ | ⟨rfl, rfl⟩ <;> exact ⟨_, ⟨rfl, rfl, fun _ _ _ => rfl⟩, rfl, rfl⟩
    obtain ⟨r, hplain, hw1c, rfl⟩ := hrow
    rw [← RegSpec.apply_enable hw1c _ (s.freshAt off)]
    exact exec_plainRow hplain (by omega) (by omega) hw v
  case bytes =>
    intro m a v s hge hlt hw
    exact ⟨exec_registerWrite_byte (by decide) hge hlt hw v, exec_registerWrite_byte (by decide) hge hlt hw v⟩
  case reservedWrites =>
    intro m off v s hoff heven hw
    exact exec_registerWrite_reserved hoff heven hw v
  case reservedReads =>
    intro m off s hoff heven hr hzero
    exact State.busRead_reserved hoff heven hr hzero
  case clears =>
    intro m a s off hpage hge heven hc hr
    exact exec_readClear_block (by omega) (by omega) hpage hc hr
  case mirrors =>
    intro m i s hr
    exact ⟨_, exec_readClear_lost hr, State.mapMirror_lost_respond ..⟩
  case hearths =>
    intro h a v s hup hrun hstall hge hlt m hout
    have hst : s.hearth[h].st ≠ .clamped := by rw [hrun]; decide
    obtain ⟨cause, addr, hviol⟩ := State.registerWrite_violation (State.canAct_hearthMaster hrun hstall)
      (.inl (by simp)) hge (.inl hlt) hout v
    obtain ⟨hregs, hbank, hothers⟩ := State.clampHearth_frame hst cause addr
    rw [State.violate_hearthMaster] at hviol
    exact ⟨_, (exec_registerWrite hup ..).trans (congrArg _ hviol), State.clampHearth_st .., by simp [m], hregs, hbank,
      hothers⟩
  case hosts =>
    intro n a v s hup hworks hf hge m hout
    obtain ⟨cause, addr, hviol⟩ := State.registerWrite_violation (State.canAct_hostMaster hworks hf)
      (.inr (by simp)) hge (.inr (by simp)) hout v
    obtain ⟨hfenced, hbit, hregs, hbank, hhearth⟩ := State.fenceHost_frame hf cause addr
    rw [State.violate_hostMaster] at hviol
    exact ⟨_, (exec_registerWrite hup ..).trans (congrArg _ hviol), hfenced, by simp [m], hbit, hregs, hbank, hhearth⟩

end Sys2Proof.Machine
end

section
set_option Elab.async false
/-! PROOFS. The encoding of hearth instructions (R315 to R323, R336): the encoder writes the prefixes in the order of their
classes and the body byte for byte, so decoding what it writes gives the same instruction. -/

namespace Sys2Proof.Machine

open Sys2Proof

/-! ## Bytes of two fields -/

theorem byte_eq_ofNat {b : Byte} {n : Nat} (h : n = b.toNat) : BitVec.ofNat 8 n = b := by
  rw [h, BitVec.ofNat_toNat, BitVec.setWidth_eq]

theorem nibbles_mod (m : Byte) : nibbles (modFa m) (modFb m) = m :=
  byte_eq_ofNat (by unfold modFa modFb; omega)

/-- A Z mod byte holds its register code only. -/
theorem nibbles_zMod {m : Byte} (h : zMod m = true) : nibbles (modFa m) 0 = m := by
  have hlow : m.toNat % 16 = 0 := by simpa [zMod] using h
  exact byte_eq_ofNat (by unfold modFa; omega)

theorem toNat_mod_two_beq_one (n : Nat) : (n % 2 == 1).toNat = n % 2 := by
  rcases Nat.mod_two_eq_zero_or_one n with h | h <;> simp [h]

theorem toNat_getLsbD (m : Byte) (i : Nat) : (m.getLsbD i).toNat = m.toNat / 2 ^ i % 2 := by
  rw [BitVec.getLsbD, Nat.testBit_eq_decide_div_mod_eq]
  rcases Nat.mod_two_eq_zero_or_one (m.toNat / 2 ^ i) with h | h <;> simp [h]

/-- The mod byte of a memory operand: its register, PSTK and its pointer (R319). -/
theorem nibbles_memory (m : Byte) : nibbles (modFa m) (8 * (m.getLsbD 3).toNat + m.toNat % 8) = m := by
  refine byte_eq_ofNat ?_
  rw [toNat_getLsbD]
  unfold modFa
  omega

/-! ## Immediates and displacements -/

theorem truncate_sext8 (x : Byte) : (sext8 x).truncate 8 = x := by
  ext i hi
  have hsext : (sext8 x).getLsbD i = x.getLsbD i := by
    rw [sext8, BitVec.getLsbD_signExtend, if_pos hi, decide_eq_true (show i < 16 by omega), Bool.true_and]
  rw [BitVec.truncate_eq_setWidth, BitVec.getElem_setWidth, hsext, BitVec.getLsbD_eq_getElem hi]

theorem immBytes_sext8 (x : Byte) : immBytes 1 (sext8 x) = [x] := by
  simp only [immBytes, truncate_sext8, List.take_succ_cons, List.take_zero]

theorem getLsbD_word2 (x y : Byte) (i : Nat) : (word2 x y).getLsbD i = if i < 8 then x.getLsbD i else y.getLsbD (i - 8) :=
  BitVec.getLsbD_append

theorem immBytes_word2 (x y : Byte) : immBytes 2 (word2 x y) = [x, y] := by
  have hlo : (word2 x y).truncate 8 = x := by
    ext i hi
    rw [BitVec.truncate_eq_setWidth, BitVec.getElem_setWidth, getLsbD_word2, if_pos hi, BitVec.getLsbD_eq_getElem hi]
  have hhi : (word2 x y >>> 8).truncate 8 = y := by
    ext i hi
    rw [BitVec.truncate_eq_setWidth, BitVec.getElem_setWidth, BitVec.getLsbD_ushiftRight, getLsbD_word2,
      if_neg (by omega), Nat.add_sub_cancel_left, BitVec.getLsbD_eq_getElem hi]
  simp only [immBytes, hlo, hhi, List.take_succ_cons, List.take_zero]

/-- A memory operand is its mod byte and the bytes after it (R319). -/
theorem memForm_bytes {dir : Bool} {am : Nat} {m : Byte} {l : List Byte} {f : HForm} (h : memForm dir am m l = some f) :
    ∃ sp ptr d, f = .mem (reg0 (modFa m)) dir sp ptr am d ∧
      nibbles (modFa m) (8 * sp.toNat + ptr) :: immBytes (amBytes am) d = m :: l := by
  unfold memForm at h
  have hmod := nibbles_memory m
  split at h
  · cases h
    exact ⟨_, _, _, rfl, by rw [hmod]; rfl⟩
  · cases h
    exact ⟨_, _, _, rfl, by rw [hmod]; exact congrArg _ (immBytes_sext8 _)⟩
  · cases h
    exact ⟨_, _, _, rfl, by rw [hmod]; exact congrArg _ (immBytes_word2 ..)⟩
  · dsimp only at h
    split at h
    · rename_i hptr
      rw [hptr] at hmod
      cases h
      exact ⟨_, _, _, rfl, by rw [hmod]; exact congrArg _ (immBytes_word2 ..)⟩
    · cases h
  · cases h

/-! ## Opcodes -/

theorem twoCode_twoOp {k : Nat} (h : k < 10) : twoCode (twoOp k) = k := by
  interval_cases k <;> rfl

theorem rrCode_twoOp {k : Nat} (h : k < 10) (x y : Reg) : rrCode (twoOp k) x y = 16 * k + 2 * x.g.toNat + y.g.toNat := by
  interval_cases k <;> rfl

theorem memCode_twoOp {k : Nat} (h : k < 10) (dir : Bool) (am : Nat) :
    memCode (if twoOp k = .mov then (if dir then .st else .ld) else twoOp k) dir am = 16 * k + 8 + 4 * dir.toNat + am := by
  interval_cases k <;> cases dir <;> rfl

theorem rrCode_pairOp {o : Nat} (hlo : 0xB2 ≤ o) (hhi : o < 0xC0) (x y : Reg) : rrCode (pairOp o) x y = o := by
  interval_cases o <;> rfl

theorem countCode_countOp {o : Nat} (hlo : 0xC0 ≤ o) (hhi : o < 0xC5) : countCode (countOp o) = o := by
  interval_cases o <;> rfl

theorem oneCode_unaryOp {k : Nat} {op : HOp} (h : unaryOp k = some op) (g : Bool) : oneCode op g = (0xB0 + g.toNat, k) := by
  unfold unaryOp at h
  split at h <;> cases h <;> rfl

theorem systemCode_systemOp {k : Nat} {op : HOp} (h : systemOp k = some op) : systemCode op = k := by
  unfold systemOp at h
  split at h <;> cases h <;> rfl

/-! ## The body, group by group -/

/-- The two-operand group (R321). -/
theorem encodeBody_decodeTwo {b m : Byte} {r : List Byte} {op : HOp} {f : HForm} (entry : Nat → Word)
    (hgroup : b.toNat < 0xA0) (hlen : r.length + 2 = bodyLen entry b) (h : decodeTwo b.toNat m r = some (op, f)) :
    encodeBody op f (r.length + 2) = b :: m :: r := by
  have hop : b.toNat / 16 < 10 := by omega
  rw [bodyLen, if_pos hgroup] at hlen
  dsimp only at hlen
  simp only [decodeTwo] at h
  split at h
  · rw [if_pos ‹b.toNat % 16 < 4›] at hlen
    cases h
    have hr : r = [] := List.length_eq_zero_iff.1 (by omega)
    simp only [encodeBody, rrCode_twoOp hop, toNat_mod_two_beq_one, nibbles_mod, hr]
    rw [byte_eq_ofNat (b := b) (by omega)]
  · rw [if_neg ‹¬b.toNat % 16 < 4›] at hlen
    split at h
    · rw [if_pos ‹b.toNat % 16 < 8›] at hlen
      split at h
      · split at h
        · cases h
          have hopcode : 16 * (b.toNat / 16) + 4 + 2 + b.toNat % 2 = b.toNat := by grind
          simp [encodeBody, twoCode_twoOp hop, toNat_mod_two_beq_one, nibbles_zMod ‹_›, immBytes_sext8, byte_eq_ofNat hopcode]
        · cases h
          have hopcode : 16 * (b.toNat / 16) + 4 + 0 + b.toNat % 2 = b.toNat := by grind
          simpa [encodeBody, twoCode_twoOp hop, toNat_mod_two_beq_one, nibbles_zMod ‹_›, immBytes_word2] using byte_eq_ofNat hopcode
        · cases h
      · cases h
    · obtain ⟨form, hform, hpair⟩ := Option.map_eq_some_iff.1 h
      cases hpair
      obtain ⟨sp, ptr, d, rfl, hbytes⟩ := memForm_bytes hform
      have hdir : (b.toNat % 16 / 4 % 2 == 1).toNat = b.toNat % 16 / 4 % 2 := toNat_mod_two_beq_one _
      rw [encodeBody, memCode_twoOp hop, hdir, byte_eq_ofNat (b := b) (by omega)]
      exact congrArg (b :: ·) hbytes

/-- The operations of memory operands: LDB, LDBS, STB and LEA (R321). -/
theorem encodeBody_memForm {b m : Byte} {r : List Byte} {op : HOp} {dir : Bool} {f : HForm} {o : HOp} (n : Nat)
    (hcode : memCode op dir (b.toNat % 4) = b.toNat)
    (h : (memForm dir (b.toNat % 4) m r).map (fun f => (op, f)) = some (o, f)) : encodeBody o f n = b :: m :: r := by
  obtain ⟨form, hform, hpair⟩ := Option.map_eq_some_iff.1 h
  cases hpair
  obtain ⟨sp, ptr, d, rfl, hbytes⟩ := memForm_bytes hform
  rw [encodeBody, byte_eq_ofNat hcode]
  exact congrArg (b :: ·) hbytes

/-- A customer instruction (R338). -/
theorem encodeBody_decodeCustomer {entry : Nat → Word} {b : Byte} {r : List Byte} {op : HOp} {f : HForm}
    (hgroup : 0xE0 ≤ b.toNat) (h : decodeCustomer entry (b.toNat - 0xE0) r = some (op, f)) :
    encodeBody op f (r.length + 1) = b :: r := by
  have hcode : BitVec.ofNat 8 (0xE0 + (b.toNat - 0xE0)) = b := byte_eq_ofNat (by omega)
  simp only [decodeCustomer] at h
  split at h
  · cases h
  · split at h <;> cases h <;>
      simp [encodeBody, hcode, nibbles_mod, immBytes_sext8, immBytes_word2]

/-- Opcodes of two bytes (R315, R320). -/
theorem bodyLen_two {entry : Nat → Word} {b : Byte}
    (h : 0xB0 ≤ b.toNat ∧ b.toNat < 0xCD ∨ 0xD0 ≤ b.toNat ∧ b.toNat < 0xE0 ∨ 0xF8 ≤ b.toNat ∧ b.toNat ≤ 0xFC) :
    bodyLen entry b = 2 := by
  unfold bodyLen
  dsimp only
  rw [if_neg (by omega), if_neg (by omega)]
  rcases h with h | h | h
  · rw [if_pos (by omega)]
  · rw [if_neg (by omega), if_neg (by omega), if_neg (by omega), if_pos (by omega)]
  · rw [if_neg (by omega), if_neg (by omega), if_neg (by omega), if_neg (by omega), if_neg (by omega), if_pos (by omega)]

/-- An operation of two register codes without G bits. -/
theorem encodeBody_rr {b m : Byte} {r : List Byte} {op : HOp} {n : Nat}
    (hcode : rrCode op (reg0 (modFa m)) (reg0 (modFb m)) = b.toNat) (hr : r = []) :
    encodeBody op (.rr (reg0 (modFa m)) (reg0 (modFb m))) n = b :: m :: r := by
  rw [encodeBody, byte_eq_ofNat hcode, hr]
  exact congrArg (fun x => [b, x]) (nibbles_mod m)

/-- A jump through a register and WAITDB: their mod bytes are Z (R318). -/
theorem encodeBody_zMod {b m : Byte} {r : List Byte} {op : HOp} {n : Nat} (hcode : (oneCode op false).1 = b.toNat)
    (hlow : (oneCode op false).2 = 0) (hz : zMod m = true) (hr : r = []) :
    encodeBody op (.one (reg0 (modFa m))) n = b :: m :: r := by
  simp only [encodeBody, reg0, byte_eq_ofNat hcode, hlow, nibbles_zMod hz, hr]

/-- MFS and MTS: the low bit of the opcode is bit 4 of the special register's number (R321). -/
theorem encodeBody_special {b m : Byte} {r : List Byte} {op : HOp} {base n : Nat}
    (hop : (if op = .mfs then 0xC5 else 0xC7) = base) (hb : base ≤ b.toNat ∧ b.toNat < base + 2) (hr : r = []) :
    encodeBody op (.special (reg0 (modFa m)) (modFb m + 16 * (b.toNat - base))) n = b :: m :: r := by
  have hfb : modFb m < 16 := Nat.mod_lt _ (by omega)
  rw [encodeBody, hop, byte_eq_ofNat (b := b) (by omega), hr, show (modFb m + 16 * (b.toNat - base)) % 16 = modFb m by omega]
  exact congrArg (fun x => [b, x]) (nibbles_mod m)

/-- Far jumps and calls: page and offset (R321). -/
theorem encodeBody_far {b m p x y : Byte} {n : Nat} (hb : b.toNat = 0xCE ∨ b.toNat = 0xCF) (hp : p.toNat < 4) :
    encodeBody (if b.toNat = 0xCE then .jmpf else .callf)
      (.far (BitVec.ofNat 10 (m.toNat + 256 * p.toNat)) (word2 x y)) n = [b, m, p, x, y] := by
  have hpage : (BitVec.ofNat 10 (m.toNat + 256 * p.toNat)).toNat = m.toNat + 256 * p.toNat := by
    rw [BitVec.toNat_ofNat]
    omega
  have hlow : (BitVec.ofNat 10 (m.toNat + 256 * p.toNat)).truncate 8 = m :=
    BitVec.eq_of_toNat_eq (by rw [BitVec.truncate_eq_setWidth, BitVec.toNat_setWidth, hpage]; omega)
  rw [encodeBody, hlow, hpage, byte_eq_ofNat (b := p) (by omega), immBytes_word2]
  rcases hb with hb | hb
  · obtain rfl : 0xCE = b := BitVec.eq_of_toNat_eq hb.symm
    rfl
  · obtain rfl : 0xCF = b := BitVec.eq_of_toNat_eq hb.symm
    rfl

/-- Every other body: an opcode, a mod byte and the bytes after it. -/
theorem encodeBody_decodeBody_mod {entry : Nat → Word} {b m : Byte} {r : List Byte} {op : HOp} {f : HForm}
    (hcustom : ¬(0xE0 ≤ b.toNat ∧ b.toNat < 0xF0)) (hnop : b.toNat ≠ 0xFF) (hlen : r.length + 2 = bodyLen entry b)
    (h : decodeBody entry b (m :: r) = some (op, f)) : encodeBody op f (r.length + 2) = b :: m :: r := by
  have hshort {o : Nat} (ho : b.toNat = o)
      (hr : 0xB0 ≤ o ∧ o < 0xCD ∨ 0xD0 ≤ o ∧ o < 0xE0 ∨ 0xF8 ≤ o ∧ o ≤ 0xFC) : r = [] :=
    List.length_eq_zero_iff.1 (by rw [bodyLen_two (by omega)] at hlen; omega)
  rw [decodeBody.eq_def, if_neg hcustom, if_neg hnop] at h
  rw [ite_eq_iff] at h
  rcases h with ⟨hc, h⟩ | ⟨hn, h⟩
  · exact encodeBody_decodeTwo entry hc hlen h
  rw [ite_eq_iff] at h
  rcases h with ⟨hc, h⟩ | ⟨hn, h⟩
  · exact encodeBody_memForm _ (by simp only [memCode]; omega) h
  rw [ite_eq_iff] at h
  rcases h with ⟨hc, h⟩ | ⟨hn, h⟩
  · exact encodeBody_memForm _ (by simp only [memCode]; omega) h
  rw [ite_eq_iff] at h
  rcases h with ⟨hc, h⟩ | ⟨hn, h⟩
  · exact encodeBody_memForm _ (by simp only [memCode]; omega) h
  rw [ite_eq_iff] at h
  rcases h with ⟨hc, h⟩ | ⟨hn, h⟩
  · exact encodeBody_memForm _ (by simp only [memCode]; omega) h
  rw [ite_eq_iff] at h
  rcases h with ⟨hc, h⟩ | ⟨hn, h⟩
  · obtain ⟨u, hunary, hpair⟩ := Option.map_eq_some_iff.1 h
    cases hpair
    rw [hshort rfl (by omega), encodeBody, oneCode_unaryOp hunary, toNat_mod_two_beq_one, byte_eq_ofNat (b := b) (by omega)]
    simp only [nibbles_mod]
  rw [ite_eq_iff] at h
  rcases h with ⟨hc, h⟩ | ⟨hn, h⟩
  · cases h
    rw [hshort rfl (by omega), encodeBody, byte_eq_ofNat (rrCode_pairOp (by omega) hc ..)]
    exact congrArg (fun x => [b, x]) (nibbles_mod m)
  rw [ite_eq_iff] at h
  rcases h with ⟨hc, h⟩ | ⟨hn, h⟩
  · cases h
    rw [hshort rfl (by omega), encodeBody, byte_eq_ofNat (countCode_countOp (by omega) hc)]
    exact congrArg (fun x => [b, x]) (nibbles_mod m)
  rw [ite_eq_iff] at h
  rcases h with ⟨hc, h⟩ | ⟨hn, h⟩
  · cases h
    exact encodeBody_special rfl ⟨by omega, hc⟩ (hshort rfl (by omega))
  rw [ite_eq_iff] at h
  rcases h with ⟨hc, h⟩ | ⟨hn, h⟩
  · cases h
    exact encodeBody_special rfl ⟨by omega, hc⟩ (hshort rfl (by omega))
  rw [ite_eq_iff] at h
  rcases h with ⟨hc, h⟩ | ⟨hn, h⟩
  · obtain ⟨hz, hpair⟩ := Option.ite_none_right_eq_some.1 h
    cases hpair
    exact encodeBody_zMod hc.symm rfl hz (hshort hc (by omega))
  rw [ite_eq_iff] at h
  rcases h with ⟨hc, h⟩ | ⟨hn, h⟩
  · obtain ⟨hz, hpair⟩ := Option.ite_none_right_eq_some.1 h
    cases hpair
    exact encodeBody_zMod hc.symm rfl hz (hshort hc (by omega))
  rw [ite_eq_iff] at h
  rcases h with ⟨hc, h⟩ | ⟨hn, h⟩
  · cases h
    exact encodeBody_rr hc.symm (hshort hc (by omega))
  rw [ite_eq_iff] at h
  rcases h with ⟨hc, h⟩ | ⟨hn, h⟩
  · cases h
    exact encodeBody_rr hc.symm (hshort hc (by omega))
  rw [ite_eq_iff] at h
  rcases h with ⟨hc, h⟩ | ⟨hn, h⟩
  · obtain rfl : 0xCD = b := BitVec.eq_of_toNat_eq hc.symm
    match r, h with
    | [x, y], h =>
      dsimp only at h
      rcases ite_eq_iff.1 h with ⟨⟨hmod, -⟩, hpair⟩ | ⟨-, hpair⟩ <;> cases hpair
      rw [encodeBody, if_pos rfl, byte_eq_ofNat (b := m) (by rw [toNat_getLsbD]; omega), immBytes_word2]
  rw [ite_eq_iff] at h
  rcases h with ⟨hc, h⟩ | ⟨hn, h⟩
  · split at h
    · obtain ⟨hpage, hpair⟩ := Option.ite_none_right_eq_some.1 h
      cases hpair
      exact encodeBody_far (by omega) hpage
    · cases h
  rw [ite_eq_iff] at h
  rcases h with ⟨hc, h⟩ | ⟨hn, h⟩
  · cases h
    rw [hshort rfl (by omega), encodeBody, if_neg (by decide), truncate_sext8, byte_eq_ofNat (b := b) (by omega)]
  rw [ite_eq_iff] at h
  rcases h with ⟨hc, h⟩ | ⟨hn, h⟩
  · obtain rfl : 0xF8 = b := BitVec.eq_of_toNat_eq hc.symm
    obtain ⟨u, hsystem, hpair⟩ := Option.map_eq_some_iff.1 h
    cases hpair
    rw [hshort rfl (by decide), encodeBody, if_neg (by simp), byte_eq_ofNat (systemCode_systemOp hsystem)]
  rw [ite_eq_iff] at h
  rcases h with ⟨hc, h⟩ | ⟨hn, h⟩
  · obtain rfl : 0xF9 = b := BitVec.eq_of_toNat_eq hc.symm
    cases h
    rw [hshort rfl (by decide), encodeBody, BitVec.truncate_eq_setWidth, BitVec.setWidth_setWidth_of_le _ (by omega),
      BitVec.setWidth_eq]
  rw [ite_eq_iff] at h
  rcases h with ⟨hc, h⟩ | ⟨hn, h⟩
  · cases h
    exact encodeBody_rr hc.symm (hshort hc (by omega))
  rw [ite_eq_iff] at h
  rcases h with ⟨hc, h⟩ | ⟨hn, h⟩
  · cases h
    exact encodeBody_rr hc.symm (hshort hc (by omega))
  rw [ite_eq_iff] at h
  rcases h with ⟨hc, h⟩ | ⟨hn, h⟩
  · obtain ⟨hz, hpair⟩ := Option.ite_none_right_eq_some.1 h
    cases hpair
    exact encodeBody_zMod hc.symm rfl hz (hshort hc (by omega))
  cases h

/-- The body that the decoder reads is spelt byte for byte. -/
theorem encodeBody_decodeBody {entry : Nat → Word} {b : Byte} {r : List Byte} {op : HOp} {f : HForm}
    (hlen : r.length + 1 = bodyLen entry b) (h : decodeBody entry b r = some (op, f)) :
    encodeBody op f (r.length + 1) = b :: r := by
  by_cases hcustom : 0xE0 ≤ b.toNat ∧ b.toNat < 0xF0
  · rw [decodeBody.eq_def, if_pos hcustom] at h
    exact encodeBody_decodeCustomer hcustom.1 h
  by_cases hnop : b.toNat = 0xFF
  · rw [decodeBody.eq_def, if_neg hcustom, if_pos hnop] at h
    have hb : b = 0xFF := BitVec.eq_of_toNat_eq hnop
    cases h
    subst hb
    have hr : r = [] := List.length_eq_zero_iff.1 (by simpa [bodyLen] using hlen)
    simp [encodeBody, hr]
  cases r with
  | nil =>
    rw [decodeBody.eq_def, if_neg hcustom, if_neg hnop] at h
    cases h
  | cons m r => exact encodeBody_decodeBody_mod hcustom hnop hlen h

/-! ## Prefixes (R316) -/

/-- The bytes of the prefixes, by the low three bits. -/
def prefixByte (k : Fin 8) : Byte := BitVec.ofNat 8 (0xF0 + k.val)

theorem isPrefix_prefixByte (k : Fin 8) : isPrefix (prefixByte k) = true := by
  decide +revert

theorem exists_prefixByte {b : Byte} (h : isPrefix b = true) : ∃ k, prefixByte k = b := by
  simp only [isPrefix, Bool.and_eq_true, decide_eq_true_eq] at h
  exact ⟨⟨b.toNat - 0xF0, by omega⟩, byte_eq_ofNat (show 0xF0 + (b.toNat - 0xF0) = b.toNat by omega)⟩

theorem exists_prefixCodes {l : List Byte} (h : ∀ b ∈ l, isPrefix b = true) : ∃ k : List (Fin 8), k.map prefixByte = l := by
  induction l with
  | nil => exact ⟨[], rfl⟩
  | cons b r ih =>
    obtain ⟨k, rfl⟩ := ih fun c hc => h c (by simp [hc])
    obtain ⟨c, rfl⟩ := exists_prefixByte (h b (by simp))
    exact ⟨c :: k, rfl⟩

/-- Prefix bytes that R316 accepts are spelt by the encoder in the order of their classes. -/
def prefixesRespelt (l : List Byte) : Bool :=
  let p := prefixBytes (prefixesOf l)
  !prefixesOk l || (prefixesOk p && decide (prefixesOf p = prefixesOf l) && p.length == l.length && p.all isPrefix)

theorem prefixesRespelt_codes : ∀ l : List (Fin 8), prefixesRespelt (l.map prefixByte) = true
  | [] => rfl
  | [a] => by decide +revert
  | [a, b] => by decide +revert
  | [a, b, c] => by
    have hall : ∀ a b c : Fin 8, prefixesRespelt [prefixByte a, prefixByte b, prefixByte c] = true := by decide +kernel
    exact hall a b c
  | a :: b :: c :: d :: l => by simp [prefixesRespelt, prefixesOk]

theorem prefixBytes_prefixesOf {l : List Byte} (hall : ∀ b ∈ l, isPrefix b = true) (hok : prefixesOk l = true) :
    prefixesOk (prefixBytes (prefixesOf l)) = true ∧ prefixesOf (prefixBytes (prefixesOf l)) = prefixesOf l ∧
      (prefixBytes (prefixesOf l)).length = l.length ∧ ∀ b ∈ prefixBytes (prefixesOf l), isPrefix b = true := by
  obtain ⟨k, rfl⟩ := exists_prefixCodes hall
  have h := prefixesRespelt_codes k
  simpa [prefixesRespelt, hok, and_assoc] using h

/-! ## The statement -/

theorem takeWhile_isPrefix_append {p r : List Byte} {b : Byte} (hp : ∀ c ∈ p, isPrefix c = true) (hb : isPrefix b = false) :
    (p ++ b :: r).takeWhile isPrefix = p := by
  rw [List.takeWhile_append_of_pos hp, List.takeWhile_cons_of_neg (by simp [hb]), List.append_nil]

/-- An instruction is prefix bytes, an opcode and the bytes after it. -/
theorem exists_opcode_of_hdecode {flat tact : Bool} {entry : Nat → Word} {l : List Byte} {i : HInstr}
    (h : hdecode flat tact entry l = .ok i) :
    ∃ p b r, l = p ++ b :: r ∧ (∀ c ∈ p, isPrefix c = true) ∧ isPrefix b = false := by
  have hl : l = l.takeWhile isPrefix ++ l.dropWhile isPrefix := List.takeWhile_append_dropWhile.symm
  cases hrest : l.dropWhile isPrefix with
  | nil =>
    rw [hrest, List.append_nil] at hl
    rw [hdecode, ← hl, List.drop_length] at h
    dsimp only at h
    split at h <;> cases h
  | cons b r =>
    rw [hrest] at hl
    exact ⟨_, b, r, hl, fun c => List.mem_takeWhile_imp,
      Bool.eq_false_iff.2 (by simpa [hrest] using List.head_dropWhile_not isPrefix (l := l) (by simp [hrest]))⟩

/-- When the decoder takes such bytes for an instruction. -/
theorem hdecode_append {flat tact : Bool} {entry : Nat → Word} {p r : List Byte} {b : Byte} {i : HInstr}
    (hp : ∀ c ∈ p, isPrefix c = true) (hb : isPrefix b = false) :
    hdecode flat tact entry (p ++ b :: r) = .ok i ↔ prefixesOk p = true ∧ decodeBody entry b r = some (i.op, i.form) ∧
      bodyOk flat tact entry (prefixesOf p).wide (p.length + (r.length + 1)) i.op i.form = true ∧
      prefixAccepted entry (prefixesOf p) i.op i.form = true ∧ i.pre = prefixesOf p ∧ i.len = p.length + (r.length + 1) := by
  obtain ⟨pre, op, form, len⟩ := i
  rw [hdecode, takeWhile_isPrefix_append hp hb, List.drop_left, List.length_append, List.length_cons]
  dsimp only
  cases hok : prefixesOk p
  · simp
  cases hbody : decodeBody entry b r with
  | none => simp
  | some body =>
    obtain ⟨op', form'⟩ := body
    by_cases hpair : op' = op ∧ form' = form
    · obtain ⟨rfl, rfl⟩ := hpair
      simp
      grind
    · grind

theorem needLen_append {entry : Nat → Word} {p r : List Byte} {b : Byte} (hp : ∀ c ∈ p, isPrefix c = true)
    (hb : isPrefix b = false) (hlt : p.length < 4) : needLen entry (p ++ b :: r) = p.length + bodyLen entry b := by
  simp [needLen, takeWhile_isPrefix_append hp hb, hlt]

/-- Settles O60: the prefixes are spelt in the order of their classes, at the same length, and the body byte for byte. -/
theorem hearthEncodingRoundTrip : Obligations.HearthEncodingRoundTrip := by
  unfold Obligations.HearthEncodingRoundTrip
  intro flat tact entry l i hneed h
  obtain ⟨p, b, r, rfl, hp, hb⟩ := exists_opcode_of_hdecode h
  obtain ⟨hok, hbody, hbodyOk, haccept, hpre, hlen⟩ := (hdecode_append hp hb).1 h
  obtain ⟨hok', hpre', hplen, hp'⟩ := prefixBytes_prefixesOf hp hok
  have hshort : p.length ≤ 3 := by
    simp only [prefixesOk, Bool.and_eq_true, decide_eq_true_eq] at hok
    exact hok.1.1
  have hbodyLen : r.length + 1 = bodyLen entry b := by
    rw [needLen_append hp hb (by omega), List.length_append, List.length_cons] at hneed
    omega
  have hcode : hencode i = prefixBytes (prefixesOf p) ++ b :: r := by
    have hn : i.len - (prefixBytes i.pre).length = r.length + 1 := by rw [hlen, hpre, hplen, Nat.add_sub_cancel_left]
    rw [hencode, hn, encodeBody_decodeBody hbodyLen hbody, hpre]
  rw [hcode, hdecode_append hp' hb, hpre', hplen, List.length_append, hplen]
  exact ⟨⟨hok', hbody, hbodyOk, haccept, hpre, hlen⟩, hlen.symm⟩

end Sys2Proof.Machine
end

section
set_option Elab.async false
/-! PROOFS. Bits and fields of words: what each operation on words leaves in each bit, and fields as runs of bits. -/

namespace Sys2Proof.Machine

open Sys2Proof

/-! ## Bits -/

theorem bit_and (v w : Word) (i : Nat) : bit (v &&& w) i = (bit v i && bit w i) := BitVec.getLsbD_and

theorem bit_or (v w : Word) (i : Nat) : bit (v ||| w) i = (bit v i || bit w i) := BitVec.getLsbD_or

theorem bit_not (w : Word) {i : Nat} (hi : i < 16) : bit (~~~w) i = !bit w i := by
  simp [bit, hi]

theorem bit_ofNat (x : Nat) {i : Nat} (hi : i < 16) : bit (BitVec.ofNat 16 x) i = x.testBit i := by
  rw [bit, BitVec.getLsbD_ofNat, decide_eq_true hi, Bool.true_and]

@[simp] theorem bit_zero (i : Nat) : bit 0#16 i = false := BitVec.getLsbD_zero

/-- Words are equal where all their bits are. -/
theorem word_ext {v w : Word} (h : ∀ i, i < 16 → bit v i = bit w i) : v = w :=
  BitVec.eq_of_getLsbD_eq fun i hi => h i hi

theorem bit_merge (mask old new : Word) {i : Nat} (hi : i < 16) :
    bit (merge mask old new) i = if bit mask i then bit new i else bit old i := by
  rw [merge, bit_or, bit_and, bit_and, bit_not _ hi]
  cases bit mask i <;> simp

/-- The mask of a field has the bits of the field. -/
theorem bit_fieldMask (lo n : Nat) {i : Nat} (hi : i < 16) :
    bit (BitVec.ofNat 16 ((2 ^ n - 1) * 2 ^ lo)) i = decide (lo ≤ i ∧ i < lo + n) := by
  rw [bit_ofNat _ hi, Nat.testBit_mul_two_pow, Nat.testBit_two_pow_sub_one]
  by_cases h : lo ≤ i
  · simp [h]
    omega
  · simp [h]

theorem bit_setFld (w : Word) (lo n v : Nat) {i : Nat} (hi : i < 16) :
    bit (setFld w lo n v) i = if lo ≤ i ∧ i < lo + n then v.testBit (i - lo) else bit w i := by
  rw [setFld, bit_merge _ _ _ hi, bit_fieldMask _ _ hi, bit_ofNat _ hi, Nat.testBit_mul_two_pow]
  by_cases h : lo ≤ i ∧ i < lo + n <;> simp [h]

theorem bit_flag (b : Bool) {i k : Nat} (hk : k < 16) : bit (flag b i) k = (b && decide (i = k)) := by
  cases b
  · simp [flag, b2n]
  · rw [flag, b2n, if_pos rfl, Nat.one_mul, bit_ofNat _ hk, Nat.testBit_two_pow, Bool.true_and]

/-! ## Fields -/

/-- A field as a number of its bits. -/
theorem testBit_fld (w : Word) (lo n i : Nat) : (fld w lo n).testBit i = (decide (i < n) && bit w (lo + i)) := by
  rw [fld, bitsAt, Nat.testBit_mod_two_pow, Nat.testBit_div_two_pow, Nat.add_comm i lo]
  rfl

/-- Words with the same bits in a field have the same field. -/
theorem fld_congr {v w : Word} {lo n : Nat} (h : ∀ i, lo ≤ i → i < lo + n → bit v i = bit w i) : fld v lo n = fld w lo n := by
  refine Nat.eq_of_testBit_eq fun i => ?_
  rw [testBit_fld, testBit_fld]
  by_cases hi : i < n
  · rw [h (lo + i) (by omega) (by omega)]
  · simp [hi]

theorem fld_lt (w : Word) (lo n : Nat) : fld w lo n < 2 ^ n := Nat.mod_lt _ (Nat.two_pow_pos n)

/-- A field takes the value that it is set to. -/
theorem fld_setFld (w : Word) {lo n : Nat} (v : Nat) (h : lo + n ≤ 16) : fld (setFld w lo n v) lo n = v % 2 ^ n := by
  refine Nat.eq_of_testBit_eq fun i => ?_
  rw [testBit_fld, Nat.testBit_mod_two_pow]
  by_cases hi : i < n
  · rw [bit_setFld _ _ _ _ (by omega), if_pos (by omega), Nat.add_sub_cancel_left]
  · simp [hi]

/-- A field outside the one that is set stays. -/
theorem fld_setFld_of_disjoint (w : Word) {lo n lo' n' : Nat} (v : Nat) (h : lo' + n' ≤ lo ∨ lo + n ≤ lo') (h16 : lo' + n' ≤ 16) :
    fld (setFld w lo n v) lo' n' = fld w lo' n' :=
  fld_congr fun i _ _ => by rw [bit_setFld _ _ _ _ (by omega), if_neg (by omega)]

theorem fld_setBit_of_outside (w : Word) {lo n i : Nat} (b : Bool) (h : i < lo ∨ lo + n ≤ i) (h16 : lo + n ≤ 16) :
    fld (setBit w i b) lo n = fld w lo n :=
  fld_congr fun k _ _ => by rw [bit_setBit _ _ _ (by omega), if_neg (by omega)]

end Sys2Proof.Machine
end

section
set_option Elab.async false
/-! PROOFS. What the shared operations leave: the passing of beats, events under a condition, and the commands of masters
that may give them. Each frame is one conjunction, which `simp` uses field by field. -/

namespace Sys2Proof.Machine

open Sys2Proof

/-! ## Frames -/

/-- States are equal where each part is. A frame is shown part by part. -/
theorem State.eq_of_fields {s t : State} (pending : s.pending = t.pending) (time : s.time = t.time) (tick : s.tick = t.tick)
    (jnr : s.jnr = t.jnr) (swf : s.swf = t.swf) (mac : s.mac = t.mac) (ring : s.ring = t.ring) (can : s.can = t.can)
    (jig : s.jig = t.jig) (hearth : s.hearth = t.hearth) (mot : s.mot = t.mot) (fio : s.fio = t.fio)
    (bank : s.bank = t.bank) (host : s.host = t.host) (flue : s.flue = t.flue) (epoch : s.epoch = t.epoch)
    (kdl : s.kdl = t.kdl) (ssn : s.ssn = t.ssn) (regs : s.regs = t.regs) (hold : s.hold = t.hold)
    (latch : s.latch = t.latch) (gp : s.gp = t.gp) (fresh : s.fresh = t.fresh) (resp : s.resp = t.resp)
    (free : s.free = t.free) : s = t := by
  cases s
  cases t
  simp_all

/-! ## Commands -/

section Commands

variable {s : State} {m : Master} {c : Instr} {off : Nat}

/-- A write command of a master that may give it. -/
theorem exec_writeCmd {act : State → State} (hw : s.writes m off)
    (he : exec c s = .next (s.alive fun s => s.writeCmd m off act)) : exec c s = .next ((act s).respond m 0 false) := by
  rw [he, State.alive_writeCmd hw]

theorem exec_writeCmd_eq {act : State → State} {t : State} (hw : s.writes m off)
    (he : exec c s = .next (s.alive fun s => s.writeCmd m off act)) (ht : act s = t) :
    exec c s = .next (t.respond m 0 false) := by
  rw [he, State.alive_writeCmd hw, ht]

/-- A read command of a master that may give it. -/
theorem exec_readCmd {act : State → State × Word} (hr : s.reads m off)
    (he : exec c s = .next (s.alive fun s => s.readCmd m off act)) :
    exec c s = .next ((act s).1.respond m (act s).2 false) := by
  rw [he, State.alive_readCmd hr]

/-- What happens to a device that is out of reset. -/
theorem exec_alive {f : State → State} (hon : s.on) (he : exec c s = .next (s.alive f)) : exec c s = .next (f s) := by
  rw [he, State.alive_on hon]

end Commands

/-! ## The passing of beats (R34, R35) -/

@[simp] theorem TimeUnit.elapse_fields (t : TimeUnit) (n : Nat) :
    (t.elapse n).adj = t.adj ∧ (t.elapse n).adjNew = t.adjNew ∧ (t.elapse n).integ = t.integ ∧ (t.elapse n).adjSat =
    t.adjSat ∧ (t.elapse n).locked = t.locked ∧ (t.elapse n).good = t.good ∧ (t.elapse n).bad = t.bad ∧ (t.elapse
    n).hold = t.hold ∧ (t.elapse n).holdFrom = t.holdFrom ∧ (t.elapse n).holdBeat = t.holdBeat ∧ (t.elapse
    n).holdTime = t.holdTime ∧ (t.elapse n).sdsOk = t.sdsOk ∧ (t.elapse n).canOk = t.canOk ∧ (t.elapse n).sdsPer =
    t.sdsPer ∧ (t.elapse n).sdsBeat = t.sdsBeat ∧ (t.elapse n).canSpanTod = t.canSpanTod ∧ (t.elapse n).canSpanBeat
    = t.canSpanBeat ∧ (t.elapse n).cnvNs = t.cnvNs ∧ (t.elapse n).cnvRes = t.cnvRes ∧ (t.elapse n).tsi = t.tsi ∧
    (t.elapse n).tso = t.tso :=
  ⟨rfl, rfl, rfl, rfl, rfl, rfl, rfl, rfl, rfl, rfl, rfl, rfl, rfl, rfl, rfl, rfl, rfl, rfl, rfl, rfl, rfl⟩

section Beats

variable (s : State) (n due : Nat)

@[simp] theorem State.elapse_fields :
    (s.elapse n).pending = s.pending ∧ (s.elapse n).tick = s.tick ∧ (s.elapse n).jnr = s.jnr ∧ (s.elapse n).swf =
    s.swf ∧ (s.elapse n).mac = s.mac ∧ (s.elapse n).ring = s.ring ∧ (s.elapse n).can = s.can ∧ (s.elapse n).jig =
    s.jig ∧ (s.elapse n).hearth = s.hearth ∧ (s.elapse n).mot = s.mot ∧ (s.elapse n).fio = s.fio ∧ (s.elapse n).bank
    = s.bank ∧ (s.elapse n).flue = s.flue ∧ (s.elapse n).epoch = s.epoch ∧ (s.elapse n).kdl = s.kdl ∧ (s.elapse
    n).regs = s.regs ∧ (s.elapse n).hold = s.hold ∧ (s.elapse n).latch = s.latch ∧ (s.elapse n).gp = s.gp ∧
    (s.elapse n).fresh = s.fresh ∧ (s.elapse n).resp = s.resp ∧ (s.elapse n).free = s.free := by
  rw [State.elapse_frame]
  exact ⟨rfl, rfl, rfl, rfl, rfl, rfl, rfl, rfl, rfl, rfl, rfl, rfl, rfl, rfl, rfl, rfl, rfl, rfl, rfl, rfl, rfl, rfl⟩

theorem State.until_frame :
    s.until due = { s with
      time := s.time.elapse (due - s.time.beat), host := (s.until due).host, ssn := (s.until due).ssn } :=
  s.elapse_frame _

@[simp] theorem State.until_fields :
    (s.until due).pending = s.pending ∧ (s.until due).tick = s.tick ∧ (s.until due).jnr = s.jnr ∧ (s.until due).swf
    = s.swf ∧ (s.until due).mac = s.mac ∧ (s.until due).ring = s.ring ∧ (s.until due).can = s.can ∧ (s.until
    due).jig = s.jig ∧ (s.until due).hearth = s.hearth ∧ (s.until due).mot = s.mot ∧ (s.until due).fio = s.fio ∧
    (s.until due).bank = s.bank ∧ (s.until due).flue = s.flue ∧ (s.until due).epoch = s.epoch ∧ (s.until due).kdl =
    s.kdl ∧ (s.until due).regs = s.regs ∧ (s.until due).hold = s.hold ∧ (s.until due).latch = s.latch ∧ (s.until
    due).gp = s.gp ∧ (s.until due).fresh = s.fresh ∧ (s.until due).resp = s.resp ∧ (s.until due).free = s.free :=
  s.elapse_fields _

@[simp] theorem State.until_time : (s.until due).time = s.time.elapse (due - s.time.beat) := s.elapse_time _

@[simp] theorem State.reg_elapse (off : Nat) : (s.elapse n).reg off = s.reg off := State.reg_congr (s.elapse_regs n) off

@[simp] theorem State.reg_until (off : Nat) : (s.until due).reg off = s.reg off := s.reg_elapse _ off

/-- A due beat is reached unless it has passed. -/
@[simp] theorem add_sub_eq_max (b d : Nat) : b + (d - b) = max b d := by omega

end Beats

/-! ## Events under a condition -/

section RaiseIf

variable (s : State) (c : Bool) (off i : Nat)

theorem State.raiseIf_frame :
    s.raiseIf c off i = { s with regs := (s.raiseIf c off i).regs, fresh := (s.raiseIf c off i).fresh } := by
  cases c <;> rfl

@[simp] theorem State.raiseIf_fields :
    (s.raiseIf c off i).pending = s.pending ∧ (s.raiseIf c off i).time = s.time ∧ (s.raiseIf c off i).tick = s.tick
    ∧ (s.raiseIf c off i).jnr = s.jnr ∧ (s.raiseIf c off i).swf = s.swf ∧ (s.raiseIf c off i).mac = s.mac ∧
    (s.raiseIf c off i).ring = s.ring ∧ (s.raiseIf c off i).can = s.can ∧ (s.raiseIf c off i).jig = s.jig ∧
    (s.raiseIf c off i).hearth = s.hearth ∧ (s.raiseIf c off i).mot = s.mot ∧ (s.raiseIf c off i).fio = s.fio ∧
    (s.raiseIf c off i).bank = s.bank ∧ (s.raiseIf c off i).host = s.host ∧ (s.raiseIf c off i).flue = s.flue ∧
    (s.raiseIf c off i).epoch = s.epoch ∧ (s.raiseIf c off i).kdl = s.kdl ∧ (s.raiseIf c off i).ssn = s.ssn ∧
    (s.raiseIf c off i).hold = s.hold ∧ (s.raiseIf c off i).latch = s.latch ∧ (s.raiseIf c off i).gp = s.gp ∧
    (s.raiseIf c off i).resp = s.resp ∧ (s.raiseIf c off i).free = s.free := by
  rw [State.raiseIf_frame]
  exact ⟨rfl, rfl, rfl, rfl, rfl, rfl, rfl, rfl, rfl, rfl, rfl, rfl, rfl, rfl, rfl, rfl, rfl, rfl, rfl, rfl, rfl, rfl, rfl⟩

theorem State.reg_raiseIf_self : (s.raiseIf c off i).reg off = if c then s.reg off ||| bitMask i else s.reg off := by
  cases c
  · rfl
  · exact s.reg_raise_self off i

theorem State.reg_raiseIf_ne {off p : Nat} (h : p ≠ off) : (s.raiseIf c off i).reg p = s.reg p := by
  cases c
  · rfl
  · exact s.reg_raise_ne i h

/-- An event sets its bit where its condition holds, and no other. -/
theorem State.bit_raiseIf {k : Nat} (hk : k < 16) :
    bit ((s.raiseIf c off i).reg off) k = (bit (s.reg off) k || (c && decide (i = k))) := by
  cases c
  · simp [State.raiseIf]
  · rw [State.reg_raiseIf_self, if_pos rfl, bit_or, bit_bitMask hk, Bool.true_and]

end RaiseIf

/-! ## Low bytes -/

/-- The low byte of a word. -/
theorem bit_low_byte (w : Word) {i : Nat} (hi : i < 16) : bit (w &&& 0xFF) i = (bit w i && decide (i < 8)) := by
  have hmask : ∀ k : Fin 16, bit (0xFF : Word) k = decide (k.val < 8) := by decide
  rw [bit_and, hmask ⟨i, hi⟩]

theorem fld_low_byte (w : Word) {lo n : Nat} (h : lo + n ≤ 8) : fld (w &&& 0xFF) lo n = fld w lo n :=
  fld_congr fun i _ _ => by rw [bit_low_byte w (by omega), decide_eq_true (by omega), Bool.and_true]

/-- The same of the mask as `simp` writes it. -/
theorem bit_and_255 (w : Word) {i : Nat} (hi : i < 16) : bit (w &&& 255#16) i = (bit w i && decide (i < 8)) :=
  bit_low_byte w hi

theorem fld_and_255 (w : Word) {lo n : Nat} (h : lo + n ≤ 8) : fld (w &&& 255#16) lo n = fld w lo n := fld_low_byte w h

end Sys2Proof.Machine
end

section
set_option Elab.async false
/-! PROOFS. The servo of the time unit (R39 to R45, R58): a write of TIM_CTRL by the bits that it sets, the samples, and the
entry into holdover. -/

namespace Sys2Proof.Machine

open Sys2Proof

/-! ## TIM_CTRL (R39, R41, R45, R58) -/

/-- A new ADJ in the time unit, at once where ticks are stopped (R37). -/
def TimeUnit.withAdj (t : TimeUnit) (running : Bool) (x : Int) : TimeUnit :=
  if running then { t with adjNew := some x } else { t with adj := x, adjNew := none }

@[simp] theorem TimeUnit.withAdj_fields (t : TimeUnit) (running : Bool) (x : Int) :
    (t.withAdj running x).beat = t.beat ∧ (t.withAdj running x).todx = t.todx ∧ (t.withAdj running x).integ =
    t.integ ∧ (t.withAdj running x).adjSat = t.adjSat ∧ (t.withAdj running x).locked = t.locked ∧ (t.withAdj running
    x).good = t.good ∧ (t.withAdj running x).bad = t.bad ∧ (t.withAdj running x).hold = t.hold ∧ (t.withAdj running
    x).holdFrom = t.holdFrom ∧ (t.withAdj running x).holdBeat = t.holdBeat ∧ (t.withAdj running x).holdTime =
    t.holdTime ∧ (t.withAdj running x).sdsOk = t.sdsOk ∧ (t.withAdj running x).canOk = t.canOk ∧ (t.withAdj running
    x).sdsPer = t.sdsPer ∧ (t.withAdj running x).sdsBeat = t.sdsBeat ∧ (t.withAdj running x).canSpanTod =
    t.canSpanTod ∧ (t.withAdj running x).canSpanBeat = t.canSpanBeat ∧ (t.withAdj running x).cnvNs = t.cnvNs ∧
    (t.withAdj running x).cnvRes = t.cnvRes ∧ (t.withAdj running x).tsi = t.tsi ∧ (t.withAdj running x).tso = t.tso := by
  cases running <;> exact ⟨rfl, rfl, rfl, rfl, rfl, rfl, rfl, rfl, rfl, rfl, rfl, rfl, rfl, rfl, rfl, rfl, rfl, rfl, rfl, rfl, rfl⟩

@[simp] theorem TimeUnit.withAdj_adj (t : TimeUnit) (x : Int) :
    (t.withAdj false x).adj = x ∧ (t.withAdj false x).adjNew = none ∧ (t.withAdj true x).adj = t.adj ∧
      (t.withAdj true x).adjNew = some x :=
  ⟨rfl, rfl, rfl, rfl⟩

theorem State.newAdj_eq (s : State) (x : Int) : s.newAdj x = s.mapTime fun t => t.withAdj s.tick.running x := by
  unfold State.newAdj TimeUnit.withAdj
  split <;> rfl

/-- The time unit after a write of TIM_CTRL: whether the write restarts the holdover count, clears the integrator, and
leaves the servo with a source. -/
def TimeUnit.ctrl (t : TimeUnit) (running restart clear sourced : Bool) : TimeUnit :=
  let t := if restart then { t with holdFrom := t.beat } else t
  let t := if clear then { t with integ := 0 } else t
  let t := if sourced then t else (if t.hold then t.endHold else t).withAdj running t.integ
  if clear then t.withAdj running 0 else t

/-- Whether a word of TIM_CTRL enables the servo with a source (R41). -/
def sourced (v : Word) : Bool := bit v 0 && (decide (1 ≤ fld v 1 3) && decide (fld v 1 3 ≤ 4))

/-- Whether a write of `v` over `old` restarts the holdover count (R45). -/
def restarts (old v : Word) : Bool := (!bit old 0 && bit v 0) || fld old 1 3 != fld v 1 3

theorem State.sourced_setReg {t : State} (s : State) (v : Word) (h : t.regs = (s.setReg 0x10000 (v &&& 0xFF)).regs) :
    (t.srvOn && t.srvHasSource) = sourced v := by
  have hreg : t.reg 0x10000 = v &&& 0xFF := (State.reg_congr h 0x10000).trans (s.reg_setReg_self ..)
  rw [State.srvOn, State.srvHasSource, State.srvSource, State.rbit, State.rfld, hreg, bit_low_byte v (by omega),
    fld_low_byte v (by omega)]
  simp [sourced]

/-- A write of TIM_CTRL: its register, the time unit, and SET. -/
theorem State.timCtrl_eq (s : State) (v : Word) :
    s.timCtrl v =
      let t := (s.setReg 0x10000 (v &&& 0xFF)).mapTime fun t =>
        t.ctrl s.tick.running (restarts (s.reg 0x10000) v) (bit v 9) (sourced v)
      if bit v 8 then t.setTod else t := by
  unfold State.timCtrl
  dsimp only
  rw [← restarts]
  cases restarts (s.reg 0x10000) v <;> cases bit v 9 <;> simp only [Bool.false_eq_true, if_false, if_true] <;>
    (rw [State.sourced_setReg s v]; · cases sourced v <;> simp only [State.newAdj_eq] <;> rfl
     · rfl)

section Ctrl

variable (t : TimeUnit) (running restart clear sourced : Bool)

@[simp] theorem TimeUnit.ctrl_beat : (t.ctrl running restart clear sourced).beat = t.beat := by
  cases running <;> cases restart <;> cases clear <;> cases sourced <;> cases h : t.hold <;>
    simp [TimeUnit.ctrl, TimeUnit.withAdj, TimeUnit.endHold, h]

@[simp] theorem TimeUnit.ctrl_todx : (t.ctrl running restart clear sourced).todx = t.todx := by
  cases running <;> cases restart <;> cases clear <;> cases sourced <;> cases h : t.hold <;>
    simp [TimeUnit.ctrl, TimeUnit.withAdj, TimeUnit.endHold, h]

@[simp] theorem TimeUnit.ctrl_integ : (t.ctrl running restart clear sourced).integ = if clear then 0 else t.integ := by
  cases running <;> cases restart <;> cases clear <;> cases sourced <;> cases h : t.hold <;>
    simp [TimeUnit.ctrl, TimeUnit.withAdj, TimeUnit.endHold, h]

end Ctrl

/-- A word that is written back with SET or INTEG_CLR. -/
theorem timCtrlNow_or (s : State) {i : Nat} (hi : i = 8 ∨ i = 9) :
    (s.timCtrlNow ||| bitMask i) &&& 0xFF = s.reg 0x10000 &&& 0xFF ∧ bit (s.timCtrlNow ||| bitMask i) 8 = decide (i = 8) ∧
      bit (s.timCtrlNow ||| bitMask i) 9 = decide (i = 9) ∧
      restarts (s.reg 0x10000) (s.timCtrlNow ||| bitMask i) = false := by
  have hbit (k : Nat) (hk : k < 16) :
      bit (s.timCtrlNow ||| bitMask i) k = (bit (s.reg 0x10000) k && decide (k < 8) || decide (i = k)) := by
    rw [bit_or, State.timCtrlNow, bit_low_byte _ hk, bit_bitMask hk]
  refine ⟨word_ext fun k hk => ?_, ?_, ?_, ?_⟩
  · rw [bit_low_byte _ hk, bit_low_byte _ hk, hbit k hk]
    by_cases hlow : k < 8
    · rw [decide_eq_false (by omega : ¬i = k)]
      simp
    · simp [hlow]
  · rw [hbit 8 (by omega)]
    simp
  · rw [hbit 9 (by omega)]
    simp
  · have hfld : fld (s.timCtrlNow ||| bitMask i) 1 3 = fld (s.reg 0x10000) 1 3 :=
      fld_congr fun k _ _ => by
        rw [hbit k (by omega), decide_eq_true (by omega : k < 8), decide_eq_false (by omega : ¬i = k)]
        simp
    rw [restarts, hfld, hbit 0 (by omega), decide_eq_false (by omega : ¬i = 0)]
    simp

/-- A word that sets a field of the low byte of TIM_CTRL neither sets the time nor clears the integrator. -/
theorem bit_timCtrlNow_high (s : State) {k : Nat} (hk : 8 ≤ k) (h16 : k < 16) : bit s.timCtrlNow k = false := by
  rw [State.timCtrlNow, bit_low_byte _ h16, decide_eq_false (by omega), Bool.and_false]

theorem bit_timCtrlNow_low (s : State) {k : Nat} (hk : k < 8) : bit s.timCtrlNow k = bit (s.reg 0x10000) k := by
  rw [State.timCtrlNow, bit_low_byte _ (by omega), decide_eq_true hk, Bool.and_true]

/-- The time unit where the servo is left without a source: holdover ends, and ADJ goes to the integrator. -/
theorem TimeUnit.ctrl_unsourced (t : TimeUnit) (running restart : Bool) :
    (t.ctrl running restart false false).hold = false ∧
      (running = false → (t.ctrl running restart false false).adj = t.integ) ∧
      (running = true → (t.ctrl running restart false false).adjNew = some t.integ) := by
  cases running <;> cases restart <;> cases h : t.hold <;> simp [TimeUnit.ctrl, TimeUnit.withAdj, TimeUnit.endHold, h]

/-- A cleared integrator leaves a new ADJ of 0 (R58). -/
theorem TimeUnit.ctrl_cleared_running (t : TimeUnit) (restart sourced : Bool) :
    (t.ctrl true restart true sourced).adj = t.adj ∧ (t.ctrl true restart true sourced).adjNew = some 0 := by
  cases restart <;> cases sourced <;> cases h : t.hold <;> simp [TimeUnit.ctrl, TimeUnit.withAdj, TimeUnit.endHold, h]

theorem TimeUnit.ctrl_cleared_stopped (t : TimeUnit) (restart sourced : Bool) :
    (t.ctrl false restart true sourced).adj = 0 ∧ (t.ctrl false restart true sourced).adjNew = none := by
  cases restart <;> cases sourced <;> cases h : t.hold <;> simp [TimeUnit.ctrl, TimeUnit.withAdj, TimeUnit.endHold, h]

theorem TimeUnit.ctrl_holdFrom (t : TimeUnit) (running restart clear sourced : Bool) :
    (t.ctrl running restart clear sourced).holdFrom = if restart then t.beat else t.holdFrom := by
  cases running <;> cases restart <;> cases clear <;> cases sourced <;> cases h : t.hold <;>
    simp [TimeUnit.ctrl, TimeUnit.withAdj, TimeUnit.endHold, h]

/-! ## Samples (R43 to R45) -/

/-- What one accepted sample leaves before the lock rule: the integrator, ADJ, and the end of holdover (R43, R45). -/
def TimeUnit.sampled (t : TimeUnit) (running : Bool) (integ raw : Int) : TimeUnit :=
  ({ t.endHold with integ := integ, adjSat := sat32 raw != raw, holdFrom := t.beat } : TimeUnit).withAdj running (sat32 raw)

/-- The lock rule on the time unit (R44). -/
def TimeUnit.judged (t : TimeUnit) (small : Bool) : TimeUnit :=
  if small then { t with good := t.good + 1, bad := 0, locked := t.locked || decide (8 ≤ t.good + 1) }
  else { t with good := 0, bad := t.bad + 1, locked := t.locked && !(t.locked && decide (4 ≤ t.bad + 1)) }

theorem TimeUnit.sampled_running (t : TimeUnit) (integ raw : Int) :
    t.sampled true integ raw = { t.endHold with
      integ := integ, adjSat := sat32 raw != raw, holdFrom := t.beat, adjNew := some (sat32 raw) } := rfl

theorem TimeUnit.sampled_stopped (t : TimeUnit) (integ raw : Int) :
    t.sampled false integ raw = { t.endHold with
      integ := integ, adjSat := sat32 raw != raw, holdFrom := t.beat, adj := sat32 raw, adjNew := none } := rfl

section Sampled

variable (t : TimeUnit) (running small : Bool) (integ raw : Int)

/-- What a sample sets whether ticks run or not. -/
@[simp] theorem TimeUnit.sampled_fields :
    (t.sampled running integ raw).integ = integ ∧ (t.sampled running integ raw).adjSat = (sat32 raw != raw) ∧
      (t.sampled running integ raw).hold = false ∧ (t.sampled running integ raw).holdFrom = t.beat ∧
      (t.sampled running integ raw).todx = t.todx ∧ (t.sampled running integ raw).locked = t.locked ∧
      (t.sampled running integ raw).good = t.good ∧ (t.sampled running integ raw).bad = t.bad := by
  cases running <;> exact ⟨rfl, rfl, rfl, rfl, rfl, rfl, rfl, rfl⟩

/-- The lock rule changes nothing but LOCKED and the two counts. -/
@[simp] theorem TimeUnit.judged_fields :
    (t.judged small).integ = t.integ ∧ (t.judged small).adjSat = t.adjSat ∧ (t.judged small).hold = t.hold ∧
      (t.judged small).holdFrom = t.holdFrom ∧ (t.judged small).todx = t.todx ∧ (t.judged small).adj = t.adj ∧
      (t.judged small).adjNew = t.adjNew := by
  cases small <;> exact ⟨rfl, rfl, rfl, rfl, rfl, rfl, rfl⟩

end Sampled

theorem State.lockRule_eq (s : State) (small : Bool) :
    s.lockRule small = (s.mapTime fun t => t.judged small).raiseIf
      (!small && (s.time.locked && decide (4 ≤ s.time.bad + 1))) 0x10004 0 := by
  cases small <;> rfl

/-- The integrator and the unlimited ADJ of a sample (R43). -/
def State.sampleInteg (s : State) (e : Int) : Int :=
  sat32 (s.time.integ + servoTerm e (s.reg 0x1005C).toNat (s.rfld 0x1005E 8 5))

def State.sampleAdj (s : State) (e : Int) : Int :=
  s.sampleInteg e + servoTerm e (s.reg 0x1005A).toNat (s.rfld 0x1005E 0 5)

theorem State.sample_eq (s : State) (e0 : Int) :
    s.sample e0 =
      let e := clip (-2147483648) 2147483647 e0
      let small := decide (e.natAbs < (s.reg 0x10068).toNat)
      ((s.raiseIf (e != e0) 0x10004 5).mapTime fun t =>
        (t.sampled s.tick.running (s.sampleInteg e) (s.sampleAdj e)).judged small).raiseIf
          (!small && (s.time.locked && decide (4 ≤ s.time.bad + 1))) 0x10004 0 := by
  unfold State.sample
  dsimp only
  rw [State.newAdj_eq, State.lockRule_eq, State.reg_mapTime, State.reg_raiseIf_ne _ _ _ (by decide)]
  cases hrun : s.tick.running <;> simp [State.mapTime, TimeUnit.sampled, TimeUnit.withAdj, TimeUnit.endHold,
    State.sampleInteg, State.sampleAdj, hrun]

/-- Settles O1: a write of TIM_CTRL is its register, one change of the time unit and SET; a sample is the integrator and ADJ
of R43 with the lock rule of R44. -/
theorem servoCommands : Obligations.ServoCommands := by
  unfold Obligations.ServoCommands
  refine ⟨?set, ?setRej, ?integ, ?en, ?src, ?submit, ?hold⟩
  case set =>
    intro m s hw hrun
    obtain ⟨hlow, hset, hclr, hrestart⟩ := timCtrlNow_or s (i := 8) (.inl rfl)
    refine ⟨_, exec_writeCmd hw rfl, ?_⟩
    rw [State.timCtrl_eq, hlow, hset, hclr, hrestart]
    dsimp only
    rw [if_pos (by rfl), State.setTod, if_neg (by simp [hrun])]
    refine ⟨by simp, ?_, by simp, fun off hoff => by simp [State.reg_setReg_ne _ _ hoff], by simp [TimeUnit.elapse], ?_⟩
    · simp [State.setWords, List.range_succ, State.reg_setReg_ne, sliverX]
    · rw [State.elapse_frame]
      rfl
  case setRej =>
    intro m s hw hrun
    obtain ⟨hlow, hset, hclr, hrestart⟩ := timCtrlNow_or s (i := 8) (.inl rfl)
    refine ⟨_, exec_writeCmd hw rfl, ?_⟩
    rw [State.timCtrl_eq, hlow, hset, hclr, hrestart]
    dsimp only
    rw [if_pos (by rfl), State.setTod, if_pos (by simp [hrun])]
    exact ⟨by simp, by simp, by simp [State.reg_setReg_ne]; rfl,
      fun off h0 h4 => by simp [State.reg_raise_ne _ _ h4, State.reg_setReg_ne _ _ h0], rfl⟩
  case integ =>
    intro m s hw
    obtain ⟨hlow, hset, hclr, hrestart⟩ := timCtrlNow_or s (i := 9) (.inr rfl)
    refine ⟨_, exec_writeCmd hw rfl, ?_⟩
    rw [State.timCtrl_eq, hlow, hset, hclr, hrestart]
    dsimp only
    rw [if_neg (by decide)]
    refine ⟨by simp, fun hrun => ?_, fun hrun => ?_, by simp, by simp, fun off h0 => by simp [State.reg_setReg_ne _ _ h0], rfl⟩
    · simpa [hrun] using TimeUnit.ctrl_cleared_running s.time false _
    · simpa [hrun] using TimeUnit.ctrl_cleared_stopped s.time false _
  case en =>
    intro m en s hw
    have hbit (k : Nat) (hk : k < 16) : bit (setBit s.timCtrlNow 0 en) k = if 0 = k then en else bit s.timCtrlNow k :=
      bit_setBit _ _ _ hk
    have hfld : fld (setBit s.timCtrlNow 0 en) 1 3 = fld (s.reg 0x10000) 1 3 :=
      (fld_setBit_of_outside _ _ (.inl (by omega)) (by omega)).trans (fld_low_byte _ (by omega))
    have h8 : bit (setBit s.timCtrlNow 0 en) 8 = false := (hbit 8 (by omega)).trans (bit_timCtrlNow_high s (by omega) (by omega))
    have h9 : bit (setBit s.timCtrlNow 0 en) 9 = false := (hbit 9 (by omega)).trans (bit_timCtrlNow_high s (by omega) (by omega))
    have h0 : bit (setBit s.timCtrlNow 0 en) 0 = en := hbit 0 (by omega)
    have hrestart : restarts (s.reg 0x10000) (setBit s.timCtrlNow 0 en) = (!bit (s.reg 0x10000) 0 && en) := by
      simp [restarts, hfld, h0]
    refine ⟨_, exec_writeCmd hw rfl, ?_⟩
    rw [State.timCtrl_eq, h8, h9, hrestart]
    dsimp only
    rw [if_neg (by decide)]
    refine ⟨?_, fun i h1 h8 => ?_, fun hen hold => ?_, fun hen => ?_, by simp, by simp,
      fun off h0 => by simp [State.reg_setReg_ne _ _ h0], rfl⟩
    · simp [bit_and_255, h0]
    · simp [bit_and_255, hbit i (by omega), bit_timCtrlNow_low s h8, h8, show 0 ≠ i by omega, show i < 16 by omega]
    · simp [TimeUnit.ctrl_holdFrom, hen, hold]
    · have hs : sourced (setBit s.timCtrlNow 0 en) = false := by rw [sourced, h0, hen, Bool.false_and]
      simpa [hs] using TimeUnit.ctrl_unsourced s.time s.tick.running _
  case src =>
    intro m src s hw
    have hbit (k : Nat) (hk : k < 16) : bit (setFld s.timCtrlNow 1 3 src.toNat) k =
        if 1 ≤ k ∧ k < 4 then src.toNat.testBit (k - 1) else bit s.timCtrlNow k := bit_setFld _ _ _ _ hk
    have hfld : fld (setFld s.timCtrlNow 1 3 src.toNat) 1 3 = src.toNat :=
      (fld_setFld _ _ (by omega)).trans (Nat.mod_eq_of_lt src.isLt)
    have h8 : bit (setFld s.timCtrlNow 1 3 src.toNat) 8 = false :=
      (hbit 8 (by omega)).trans (bit_timCtrlNow_high s (by omega) (by omega))
    have h9 : bit (setFld s.timCtrlNow 1 3 src.toNat) 9 = false :=
      (hbit 9 (by omega)).trans (bit_timCtrlNow_high s (by omega) (by omega))
    have h0 : bit (setFld s.timCtrlNow 1 3 src.toNat) 0 = bit (s.reg 0x10000) 0 :=
      (hbit 0 (by omega)).trans (bit_timCtrlNow_low s (by omega))
    have hrestart : restarts (s.reg 0x10000) (setFld s.timCtrlNow 1 3 src.toNat) = (fld (s.reg 0x10000) 1 3 != src.toNat) := by
      simp [restarts, hfld, h0]
    have hpps : fld (setFld s.timCtrlNow 1 3 src.toNat) 4 4 = fld (s.reg 0x10000) 4 4 :=
      (fld_setFld_of_disjoint _ _ (.inr (by omega)) (by omega)).trans (fld_low_byte _ (by omega))
    refine ⟨_, exec_writeCmd hw rfl, ?_⟩
    rw [State.timCtrl_eq, h8, h9, hrestart]
    dsimp only
    rw [if_neg (by decide)]
    refine ⟨?_, ?_, ?_, fun hne => ?_, fun hnone => ?_, by simp, by simp,
      fun off h0 => by simp [State.reg_setReg_ne _ _ h0], rfl⟩
    · simp [fld_and_255, hfld]
    · simp [bit_and_255, h0]
    · simp [fld_and_255, hpps]
    · simp [TimeUnit.ctrl_holdFrom, hne]
    · have hs : sourced (setFld s.timCtrlNow 1 3 src.toNat) = false := by
        rw [sourced, hfld]
        rcases hnone with h | h <;> simp [h]
        omega
      obtain ⟨hhold, hadj, -⟩ := TimeUnit.ctrl_unsourced s.time s.tick.running (fld (s.reg 0x10000) 1 3 != src.toNat)
      simpa [hs] using And.intro hhold hadj
  case submit =>
    intro m v s hw hen hsrc
    dsimp only
    refine ⟨_, exec_writeCmd hw rfl, ?_⟩
    rw [State.offer, if_pos (by simp [State.srvOn, State.srvSource, State.rbit, State.rfld, hen, hsrc]), State.sample_eq]
    have hclip (x : Int) : clip (-2147483648) 2147483647 x = max (-2147483648) (min 2147483647 x) := by
      unfold clip
      split <;> [skip; split] <;> omega
    have he : asInt (ofWords [s.reg 0x10060, s.reg 0x10062, v]) 48 = s.srvE v := rfl
    have hinteg (e : Int) : clip (-2147483648) 2147483647
        (s.time.integ + e * (s.reg 0x1005C).toNat * 2 ^ fld (s.reg 0x1005E) 8 5 / 65536) = s.sampleInteg e := rfl
    have hadj (e : Int) : s.sampleInteg e + e * (s.reg 0x1005A).toNat * 2 ^ fld (s.reg 0x1005E) 0 5 / 65536 =
      s.sampleAdj e := rfl
    simp only [← hclip, he, hinteg, hadj]
    generalize s.srvE v = e0
    generalize clip (-2147483648) 2147483647 e0 = e
    refine ⟨by simp, fun hrun => ?_, fun hrun => ?_, by simp [sat32], by simp, by simp, by simp, fun hne => ?_, fun hsmall => ?_, fun hlarge => ?_,
      fun off h4 => by simp [State.reg_raiseIf_ne _ _ _ h4], ?_⟩
    · simp [TimeUnit.sampled_running, TimeUnit.endHold, hrun, sat32]
    · simp [TimeUnit.sampled_stopped, hrun, sat32]
    · simp [State.bit_raiseIf, hne]
    · simp [TimeUnit.judged, hsmall]
    · have hn : ¬e.natAbs < (s.reg 0x10068).toNat := by omega
      refine ⟨?_, fun hl hb => ?_⟩
      · have hb : 4 ≤ s.time.bad + 1 ↔ ¬s.time.bad < 3 := by omega
        simp [TimeUnit.judged, hn, hb]
        grind
      · simp [State.bit_raiseIf, hn, hl, show 4 ≤ s.time.bad + 1 by omega]
    · rw [State.raiseIf_frame, State.raiseIf_frame]
      rfl
  case hold =>
    intro s hon hen h1 h4 hhold
    refine ⟨_, exec_alive hon rfl, ?_⟩
    rw [State.enterHold, if_pos (by simp [State.srvOn, State.srvHasSource, State.srvSource, State.rbit, State.rfld, hen, h1, h4, hhold])]
    dsimp only
    rw [State.newAdj_eq]
    obtain ⟨due, hdue⟩ : ∃ due, due = s.time.holdFrom + max 1 (s.reg 0x10066).toNat * 524288 := ⟨_, rfl⟩
    rw [← hdue]
    refine ⟨by simp, by simp, by simp, by simp, State.bit_raise _ _ (by omega), fun hl => ?_, fun hrun => by simp [hrun],
      fun hrun => by simp [hrun], fun off hoff => ?_, ?_⟩
    · simp [bit_or, State.bit_raiseIf, hl]
    · simp [State.reg_raise_ne _ _ hoff, State.reg_raiseIf_ne _ _ _ hoff]
    · rw [State.raiseIf_frame, State.until_frame]
      rfl

end Sys2Proof.Machine
end

section
set_option Elab.async false
/-! PROOFS. The measured clocks and the conversion (R50 to R55): the loss and return of the CAN kernel clock at every channel,
and rounding to nearest. -/

namespace Sys2Proof.Machine

open Sys2Proof

/-! ## Updates of every element -/

/-- Changing some elements of a vector, each on its own. -/
theorem foldl_upd_get {α : Type} {n : Nat} (f : Fin n → α → α) (l : List (Fin n)) (hl : l.Nodup) (v : Vector α n) (i : Fin n) :
    (l.foldl (fun v k => upd v k (f k)) v)[i] = if i ∈ l then f i v[i] else v[i] := by
  induction l generalizing v with
  | nil => simp
  | cons k l ih =>
    obtain ⟨hk, hl⟩ := List.nodup_cons.1 hl
    rw [List.foldl_cons, ih hl]
    by_cases hi : i = k
    · subst hi
      simp [hk]
    · simp [hi, upd_ne v (f k) hi]

theorem finList_foldl_upd {α : Type} {n : Nat} (f : Fin n → α → α) (v : Vector α n) (i : Fin n) :
    ((finList n).foldl (fun v k => upd v k (f k)) v)[i] = f i v[i] :=
  (foldl_upd_get f (finList n) (List.nodup_finRange n) v i).trans (if_pos (List.mem_finRange i))

/-! ## The kernel clock of the CAN channels (R52, R215, R216) -/

/-- A channel in its next state (R213): outside ERROR_ACTIVE and ERROR_PASSIVE it leaves the span of R236. -/
def CanChannel.entered (x : CanChannel) (st : CanState) : CanChannel :=
  { x with st := st, spanOut := x.spanOut || !(st == .errorActive || st == .errorPassive) }

/-- What the end of a span does to one channel. -/
def CanChannel.clocked (was now : Bool) (x : CanChannel) : CanChannel :=
  if was && !now && x.st != .off && x.st != .init then { x.entered .suspended with tx := none }
  else if now && x.st == .suspended then x.entered .integrating
  else x

theorem CanChannel.clocked_lost {x : CanChannel} (hoff : x.st ≠ .off) (hinit : x.st ≠ .init) :
    x.clocked true false = { x.entered .suspended with tx := none } := by
  simp [CanChannel.clocked, hoff, hinit]

theorem CanChannel.clocked_back {x : CanChannel} (was : Bool) (hst : x.st = .suspended) :
    x.clocked was true = x.entered .integrating := by
  simp [CanChannel.clocked, hst]

theorem CanChannel.clocked_out {x : CanChannel} (was now : Bool) (hst : x.st = .off ∨ x.st = .init) :
    x.clocked was now = x := by
  rcases hst with hst | hst <;> simp [CanChannel.clocked, hst]

theorem State.canClock_frame (s : State) (c : CanId) (was now : Bool) :
    s.canClock c was now = { s with
      can := upd s.can c (CanChannel.clocked was now), regs := (s.canClock c was now).regs
      fresh := (s.canClock c was now).fresh } := by
  by_cases hlost : (was && !now && s.can[c].st != .off && s.can[c].st != .init) = true
  · have hcan : (s.canClock c was now).can = upd s.can c (CanChannel.clocked was now) := by
      simp only [State.canClock, if_pos hlost, State.canEvent, State.raise_can, State.canEnter, State.mapCan_can]
      simp only [upd, CanChannel.clocked]
      rw [if_pos hlost]
      simp [CanChannel.entered]
    rw [← hcan, State.canClock, if_pos hlost]
    rfl
  · by_cases hback : (now && s.can[c].st == .suspended) = true
    · have hcan : (s.canClock c was now).can = upd s.can c (CanChannel.clocked was now) := by
        simp only [State.canClock, if_neg hlost, if_pos hback, State.canEnter, State.mapCan_can]
        simp only [upd, CanChannel.clocked]
        rw [if_neg hlost, if_pos hback]
        rfl
      rw [← hcan, State.canClock, if_neg hlost, if_pos hback]
      rfl
    · have hcan : (s.canClock c was now).can = upd s.can c (CanChannel.clocked was now) := by
        simp only [State.canClock, if_neg hlost, if_neg hback]
        simp only [upd, CanChannel.clocked]
        rw [if_neg hlost, if_neg hback]
        simp
      rw [← hcan, State.canClock, if_neg hlost, if_neg hback]

theorem State.reg_canClock (s : State) (c : CanId) (was now : Bool) {off : Nat} (hoff : off < 0x70000) :
    (s.canClock c was now).reg off = s.reg off := by
  have hne : off ≠ canOff c.val + 4 := by
    unfold canOff
    omega
  unfold State.canClock
  dsimp only
  split
  · rw [State.canEvent, State.reg_raise_ne _ _ hne]
    rfl
  · split <;> rfl

/-- The end of a span at the channels, one after the other. -/
theorem State.canClock_foldl (l : List CanId) (s : State) {was now : Bool} (hnow : s.time.canOk = now) :
    let t := l.foldl (fun s c => s.canClock c was s.time.canOk) s
    t.can = l.foldl (fun v c => upd v c (CanChannel.clocked was now)) s.can ∧
      (∀ off, off < 0x70000 → t.reg off = s.reg off) ∧ t = { s with can := t.can, regs := t.regs, fresh := t.fresh } := by
  induction l generalizing s with
  | nil => exact ⟨rfl, fun _ _ => rfl, rfl⟩
  | cons c l ih =>
    have hc := s.canClock_frame c was now
    obtain ⟨hcan, hreg, hframe⟩ := ih (s.canClock c was now) (by rw [hc]; exact hnow)
    rw [List.foldl_cons, hnow]
    refine ⟨?_, fun off hoff => (hreg off hoff).trans (s.reg_canClock c was now hoff), ?_⟩
    · rw [hcan, hc]
      rfl
    · rw [hframe, hc]

/-! ## Rounding (R54, R55) -/

/-- Rounding to nearest, ties to even, as one division. -/
theorem roundEven_div (a : Nat) :
    (roundEven a 8388608).toNat = (2 * a + 8388608 - (if (a / 8388608) % 2 = 0 then 1 else 0)) / 16777216 := by
  unfold roundEven
  obtain ⟨q, r, hr, rfl⟩ : ∃ q r, r < 8388608 ∧ a = 8388608 * q + r :=
    ⟨a / 8388608, a % 8388608, Nat.mod_lt _ (by omega), (Nat.div_add_mod a _).symm⟩
  have hq : (8388608 * q + r) / 8388608 = q := by omega
  have hqi : ((8388608 * q + r : Nat) : Int) / (8388608 : Nat) = q := by omega
  have hri : ((8388608 * q + r : Nat) : Int) % (8388608 : Nat) = r := by omega
  dsimp only
  rw [hq, hqi, hri]
  split_ifs <;> omega

theorem nsOf_eq (f : Nat) :
    nsOf f = (2 * (f * 1953125) + 8388608 - (if (f * 1953125 / 8388608) % 2 = 0 then 1 else 0)) / 16777216 :=
  roundEven_div _

theorem roundEven_near (a : Int) {b : Nat} (hb : 0 < b) : 2 * (b * roundEven a b - a).natAbs ≤ b := by
  have hdiv := Int.mul_ediv_add_emod a b
  have hlt := Int.emod_lt_of_pos a (Int.ofNat_lt.2 hb)
  have hpos := Int.emod_nonneg a (Int.ofNat_ne_zero.2 hb.ne')
  unfold roundEven
  dsimp only
  split
  · omega
  · split
    · rw [Int.mul_add]
      omega
    · split
      · omega
      · rw [Int.mul_add]
        omega

theorem nsOf_le {f : Nat} (hf : f < 2 ^ 32) : nsOf f ≤ 1000000000 := by
  rw [nsOf_eq]
  split <;> omega

/-- The residual is the rest of the conversion in 2^-16 ns, rounded to nearest, at most half a nanosecond (R55). -/
theorem nsResidual_near (f : Nat) :
    (256 * nsResidual f - 2 * ((f * 1953125 : Nat) - (nsOf f * 8388608 : Nat) : Int)).natAbs ≤ 128 ∧
      -32768 ≤ nsResidual f ∧ nsResidual f ≤ 32768 := by
  have hnear := roundEven_near ((f * 1953125 : Nat) - (nsOf f * 8388608 : Nat) : Int) (b := 128) (by omega)
  have hns := nsOf_eq f
  rw [nsResidual]
  generalize roundEven _ 128 = r at hnear ⊢
  generalize nsOf f = ns at hns hnear ⊢
  split at hns <;> omega

/-! ## The statement -/

theorem sdsInRange_eq_true (per : Nat) :
    sdsInRange per = true ↔ 2 ^ 48 ≤ per * 156265625 ∧ per * 156234375 ≤ 2 ^ 48 := by
  rw [sdsInRange, Bool.and_eq_true, decide_eq_true_eq, decide_eq_true_eq, and_comm]

/-- A register whose bits are all RW takes the word written (R479). -/
theorem RegSpec.apply_all {r : RegSpec} (hrw : r.rw = 0xFFFF) (hw1c : r.w1c = 0) (hhi : r.rwHi = 0xFFFF) (p : Nat)
    (old keep v : Word) : r.apply p old keep v = v := by
  have hmask : (if r.pair ∧ p = 2 then r.rw &&& r.rwHi else r.rw) = 0xFFFF := by
    rw [hrw, hhi]
    split <;> rfl
  have hones (i : Nat) (hi : i < 16) : bit (BitVec.ofNat 16 0xFFFF) i = true := by
    rw [bit_ofNat _ hi, show 0xFFFF = 2 ^ 16 - 1 from rfl, Nat.testBit_two_pow_sub_one, decide_eq_true hi]
  refine word_ext fun i hi => ?_
  rw [RegSpec.apply, hmask, hw1c, bit_and, bit_merge _ _ _ hi, if_pos (hones i hi), bit_not _ hi, bit_and, bit_and]
  simp

/-- TIM_CNV_NS after a conversion (R54). -/
def cnvNsOf (f : Nat) : BitVec 32 := if nsOf f = 1000000000 then 0x80000000 else BitVec.ofNat 32 (nsOf f)

theorem State.convert_eq (s : State) (f : Nat) :
    s.convert f = s.mapTime fun t => { t with cnvNs := cnvNsOf f, cnvRes := nsResidual f } := rfl

/-- A write of the upper half of TIM_CNV_F, with the lower half that is held (R58, R481). -/
theorem State.timWrite_cnv (s : State) (m : Master) (v : Word) :
    s.timWrite m 0x1007A v =
      let t := ((s.setReg 0x10078 (s.loFor m 0x10078 (s.reg 0x10078))).setReg 0x1007A v).dropHold m
      t.convert (t.pair 0x10078) := by
  have hfind : RegSpec.find timSpecs 0x1007A = some ({ base := 0x10078, pair := true }, 2) := by decide
  have htable : s.tableWrite timSpecs m 0x1007A v =
      ((s.setReg 0x10078 (s.loFor m 0x10078 (s.reg 0x10078))).setReg 0x1007A v).dropHold m := by
    rw [State.tableWrite, hfind]
    simp only [RegSpec.apply_all]
    rfl
  rw [← htable]
  rfl

theorem State.timWrite_cnv_eq (s : State) (m : Master) (v : Word) {f : Nat}
    (hf : f = (s.loFor m 0x10078 (s.reg 0x10078)).toNat + 65536 * v.toNat) :
    s.timWrite m 0x1007A v = (((s.setReg 0x10078 (s.loFor m 0x10078 (s.reg 0x10078))).setReg 0x1007A v).dropHold m).mapTime
      fun t => { t with cnvNs := cnvNsOf f, cnvRes := nsResidual f } := by
  have hpair (lo : Word) : (((s.setReg 0x10078 lo).setReg 0x1007A v).dropHold m).pair 0x10078 = lo.toNat + 65536 * v.toNat := by
    have hlow : ((s.setReg 0x10078 lo).setReg 0x1007A v).reg 0x10078 = lo := by
      rw [State.reg_setReg_ne _ _ (by omega), State.reg_setReg_self]
    have hhigh : ((s.setReg 0x10078 lo).setReg 0x1007A v).reg (0x10078 + 2) = v := State.reg_setReg_self ..
    exact congrArg₂ (fun a b : Word => a.toNat + 65536 * b.toNat) hlow hhigh
  rw [State.timWrite_cnv]
  dsimp only
  rw [hpair, ← hf, State.convert_eq]

/-- What a conversion leaves: the pair written, its result, and the hold consumed. -/
theorem State.converted_frame (s : State) (m : Master) (lo v : Word) (ns : BitVec 32) (res : Int) :
    let t := ((((s.setReg 0x10078 lo).setReg 0x1007A v).dropHold m).mapTime fun t =>
      { t with cnvNs := ns, cnvRes := res }).respond m 0 false
    t.reg 0x10078 = lo ∧ t.reg 0x1007A = v ∧ t.time.cnvNs = ns ∧ t.time.cnvRes = res ∧ t.hold[m] = none ∧
      (∀ off, off ≠ 0x10078 → off ≠ 0x1007A → t.reg off = s.reg off) ∧
      t = { s with time := t.time, regs := t.regs, hold := t.hold, resp := t.resp } := by
  have hregs (off : Nat) : (((((s.setReg 0x10078 lo).setReg 0x1007A v).dropHold m).mapTime fun t =>
      { t with cnvNs := ns, cnvRes := res }).respond m 0 false).reg off =
        ((s.setReg 0x10078 lo).setReg 0x1007A v).reg off := rfl
  refine ⟨?_, ?_, rfl, rfl, by simp [State.dropHold], fun off h8 hA => ?_, ?_⟩
  · rw [hregs, State.reg_setReg_ne _ _ (by omega), State.reg_setReg_self]
  · rw [hregs, State.reg_setReg_self]
  · rw [hregs, State.reg_setReg_ne _ _ hA, State.reg_setReg_ne _ _ h8]
  · apply State.eq_of_fields <;> simp [State.dropHold]

/-- Settles O2: the checks wait for their due beats and compare; the conversion is one rounding division. -/
theorem clockChecksAndConversion : Obligations.ClockChecksAndConversion := by
  unfold Obligations.ClockChecksAndConversion
  refine ⟨?gate, ?span, ?conversion⟩
  case gate =>
    intro per s hon
    refine ⟨_, exec_alive hon rfl, ?_⟩
    rw [State.sdsGate]
    obtain ⟨due, hdue⟩ : ∃ due, due = s.time.sdsBeat + 524288 := ⟨_, rfl⟩
    obtain ⟨ok, hok⟩ : ∃ ok, ok = sdsInRange per.toNat := ⟨_, rfl⟩
    rw [← hdue, ← hok, ← sdsInRange_eq_true, ← hok]
    refine ⟨by simp, by simp, by simp, by simp, ?_, fun off h4 => by simp [State.reg_raiseIf_ne _ _ _ h4], ?_⟩
    · simp [State.bit_raiseIf]
    · rw [State.raiseIf_frame, State.until_frame]
      rfl
  case span =>
    intro cycles s hon
    obtain ⟨due, hdue⟩ : ∃ due, due = s.time.canSpanBeat + 524288 := ⟨_, rfl⟩
    obtain ⟨ok, hok⟩ : ∃ ok, ok = (cycles == 78125) := ⟨_, rfl⟩
    refine ⟨_, exec_alive hon rfl, ?_⟩
    rw [State.canClkSpanCmd, State.canSpan, ← hdue, ← hok]
    obtain ⟨hcan, hreg, hframe⟩ := State.canClock_foldl (finList 6)
      (((s.until due).mapTime fun t => { t with canOk := ok, canSpanBeat := t.beat, canSpanTod := t.stamp 0 }).raiseIf
        (!ok) 0x10004 4) (was := s.time.canOk) (now := ok) (by simp)
    generalize List.foldl _ _ (finList 6) = t at hcan hreg hframe ⊢
    have htime : t.time = { s.time.elapse (due - s.time.beat) with
        canOk := ok, canSpanBeat := max s.time.beat due
        canSpanTod := (s.time.elapse (due - s.time.beat)).stamp 0 } := by
      rw [hframe]
      simp
    have hchan (c : CanId) : t.can[c] = s.can[c].clocked s.time.canOk ok := by
      rw [hcan, finList_foldl_upd]
      simp
    refine ⟨by simp [htime], by simp [htime], by simp [htime, hok], by simp [htime], by simp [htime, TimeUnit.stamp, sliverX],
      ?_, fun c hwas hlost hoff hinit => ?_, fun c hback hst => ?_, fun c hst => ?_, ?_⟩
    · rw [hreg _ (by omega)]
      simp [State.bit_raiseIf, hok]
      rfl
    · rw [hchan, hwas, hok, beq_false_of_ne hlost, CanChannel.clocked_lost hoff hinit]
      exact ⟨rfl, rfl⟩
    · rw [hchan, hok, hback, beq_self_eq_true, CanChannel.clocked_back _ hst]
      rfl
    · rw [hchan, CanChannel.clocked_out _ _ hst]
    · rw [hframe, State.raiseIf_frame, State.until_frame]
      rfl
  case conversion =>
    intro m v s hw
    obtain ⟨f, hf⟩ : ∃ f, f = (s.loFor m 0x10078 (s.reg 0x10078)).toNat + 65536 * v.toNat := ⟨_, rfl⟩
    obtain ⟨hlo, hhi, hns, hres, hhold, hreg, hframe⟩ :=
      s.converted_frame m (s.loFor m 0x10078 (s.reg 0x10078)) v (cnvNsOf f) (nsResidual f)
    have hle : nsOf f ≤ 1000000000 := nsOf_le (by omega)
    refine ⟨_, exec_writeCmd_eq hw rfl (s.timWrite_cnv_eq m v hf), hhi, hlo,
      ?_, hhold, hreg, hframe⟩
    rw [hlo, ← hf, hns, hres]
    dsimp only
    rw [← nsOf_eq]
    exact ⟨fun h => if_neg (by omega), fun h => if_pos (by omega), nsResidual_near f⟩

end Sys2Proof.Machine
end

section
set_option Elab.async false
/-! PROOFS. The conversions of the joiner (R107, R114): integers and booleans, and that a float sink gets a finite
value. -/

namespace Sys2Proof.Machine

open Sys2Proof

/-! ## Limits -/

theorem clip_eq_min_max {lo hi : Int} (h : lo ≤ hi) (x : Int) : clip lo hi x = min (max x lo) hi := by
  unfold clip
  split_ifs <;> omega

theorem clip_mem {lo hi : Int} (h : lo ≤ hi) (x : Int) : lo ≤ clip lo hi x ∧ clip lo hi x ≤ hi := by
  rw [clip_eq_min_max h]
  omega

theorem clipF_fst {lo hi : Int} (h : lo ≤ hi) (x : Int) : (clipF lo hi x).1 = min (max x lo) hi := clip_eq_min_max h x

theorem clipF_snd {lo hi : Int} (h : lo ≤ hi) (x : Int) : (clipF lo hi x).2 = true ↔ min (max x lo) hi ≠ x := by
  simp [clipF, clip_eq_min_max h]

theorem sat96_eq {x : Int} (hlo : -(2 ^ 95) ≤ x) (hhi : x ≤ 2 ^ 95 - 1) : sat96 x = (x, false) := by
  have hx : clip (-(2 ^ 95)) (2 ^ 95 - 1) x = x := by
    unfold clip
    rw [if_neg (by omega), if_neg (by omega)]
  simp only [sat96, hx, bne_self_eq_false]

/-! ## Integers and booleans -/

theorem asInt_of_lt {raw n : Nat} (hraw : raw < 2 ^ n) :
    asInt raw n = if 2 ^ (n - 1) ≤ raw then (raw : Int) - 2 ^ n else raw := by
  unfold asInt
  rw [Nat.mod_eq_of_lt hraw]
  split_ifs
  · omega
  · rfl
  · push_cast
    rfl
  · omega

theorem sourceValue_of_int (d : Desc) (p : Param) {raw : Nat} (hf : d.srcFmt ≤ 1) (hraw : raw < 2 ^ d.srcW) :
    sourceValue d p raw = (if d.srcFmt = 1 ∧ 2 ^ (d.srcW - 1) ≤ raw then (raw : Int) - 2 ^ d.srcW else raw, false) := by
  obtain h | h : d.srcFmt = 0 ∨ d.srcFmt = 1 := by omega
  · simp [sourceValue, h, isFlt]
  · simp [sourceValue, h, asInt_of_lt hraw]

/-- Within the limits of R107 the scale neither overflows 96 bits nor changes the value further. -/
theorem scaled_eq (d : Desc) (p : Param) {x : Int} (hhi : x * p.factor ≤ 2 ^ 94) (hlo : -(2 ^ 94) ≤ x * p.factor)
    (hoff : p.offset.natAbs ≤ 2 ^ 31) :
    scaled d p x = (if d.scale then x * p.factor / 2 ^ p.shift + p.offset else x, false) := by
  have hpow : (0 : Int) < 2 ^ p.shift := by positivity
  have hdivhi : x * p.factor / 2 ^ p.shift ≤ 2 ^ 94 :=
    Int.ediv_le_of_le_mul hpow (hhi.trans (le_mul_of_one_le_right (by positivity) hpow))
  have hdivlo : -(2 ^ 94) ≤ x * p.factor / 2 ^ p.shift :=
    Int.le_ediv_of_mul_le hpow (le_trans (mul_le_of_one_le_right (by norm_num) hpow) hlo)
  unfold scaled
  split
  · rw [sat96_eq (by omega) (by omega)]
    dsimp only
    rw [sat96_eq (by omega) (by omega), Bool.or_false]
  · rfl

/-- The span of an integer sink. -/
def sinkSpan (d : Desc) : Int × Int :=
  (if d.dstFmt = 1 then -2 ^ (d.dstW - 1) else 0, if d.dstFmt = 1 then 2 ^ (d.dstW - 1) - 1 else 2 ^ d.dstW - 1)

theorem sinkSpan_le (d : Desc) : (sinkSpan d).1 ≤ (sinkSpan d).2 := by
  have h1 : (0 : Int) < 2 ^ (d.dstW - 1) := by positivity
  have h2 : (0 : Int) < 2 ^ d.dstW := by positivity
  unfold sinkSpan
  split <;> dsimp only <;> omega

theorem sinkValue_of_int (d : Desc) (p : Param) (x : Int) (hf : d.dstFmt ≤ 1) :
    (sinkValue d p x).1 % 2 ^ d.dstW = (min (max x (sinkSpan d).1) (sinkSpan d).2 % 2 ^ d.dstW).toNat ∧
      ((sinkValue d p x).2 = true ↔ min (max x (sinkSpan d).1) (sinkSpan d).2 ≠ x) := by
  have hle := sinkSpan_le d
  have hpow : (0 : Int) < 2 ^ d.dstW := by positivity
  obtain h | h : d.dstFmt = 0 ∨ d.dstFmt = 1 := by omega
  · simp only [sinkValue, sinkSpan, h, if_true, if_neg (show (0 : Nat) ≠ 1 by decide)] at hle ⊢
    refine ⟨?_, clipF_snd hle x⟩
    rw [clipF_fst hle]
    have h0 : (0 : Int) ≤ min (max x 0) (2 ^ d.dstW - 1) := by omega
    rw [Int.toNat_emod h0 hpow.le]
    norm_cast
  · simp only [sinkValue, sinkSpan, h, if_true, if_neg (show (1 : Nat) ≠ 0 by decide)] at hle ⊢
    refine ⟨?_, clipF_snd hle x⟩
    rw [clipF_fst hle, ofInt]
    push_cast
    refine Nat.mod_eq_of_lt ?_
    have := Int.emod_lt_of_pos (min (max x (-2 ^ (d.dstW - 1))) (2 ^ (d.dstW - 1) - 1)) hpow
    have := Int.emod_nonneg (min (max x (-2 ^ (d.dstW - 1))) (2 ^ (d.dstW - 1) - 1)) hpow.ne'
    zify
    rw [Int.toNat_of_nonneg this]
    exact_mod_cast ‹_›

/-! ## The obligations -/

/-- Settles O9: the value of a move between integers is the source value scaled, limited and clipped to the sink's
span, and within the stated bounds no step of the scale saturates. -/
theorem conversionOfIntegers : Obligations.ConversionOfIntegers := by
  unfold Obligations.ConversionOfIntegers
  refine ⟨?integers, ?booleans, ?edges, ?raw⟩
  case integers =>
    intro d p raw h hsrc hdst hedge _ _ _ _ hraw hlim x0 x1 x2 lo hi hhi hlo hoff
    have hvalue := sourceValue_of_int d p hsrc hraw
    have hscaled := scaled_eq d p hhi hlo hoff
    have hlimit : (if d.limit then clipF p.limLo p.limHi x1 else (x1, false)) = (x2, decide (x2 ≠ x1)) := by
      have hx2 : x2 = if d.limit then min (max x1 p.limLo) p.limHi else x1 := rfl
      by_cases hl : d.limit <;> simp [hl, hx2, clipF, clip_eq_min_max hlim, bne, beq_eq_decide]
    obtain ⟨hval, hflag⟩ := sinkValue_of_int d p x2 hdst
    have hmove : convertMove d p raw h =
        ((sinkValue d p x2).1 % 2 ^ d.dstW, decide (x2 ≠ x1) || (sinkValue d p x2).2, h) := by
      simp only [convertMove, if_neg (show d.srcFmt ≠ 5 by omega), hedge, ne_eq, not_true_eq_false, if_false]
      rw [hvalue]
      dsimp only
      rw [show scaled d p (if d.srcFmt = 1 ∧ 2 ^ (d.srcW - 1) ≤ raw then (raw : Int) - 2 ^ d.srcW else raw) =
        (x1, false) from hscaled]
      dsimp only
      rw [hlimit]
      rfl
    rw [hmove]
    exact ⟨hval, by simp only [Bool.or_eq_true, decide_eq_true_eq, hflag]; rfl, rfl⟩
  case booleans =>
    intro d p raw h hsrc hdst hedge hscale hlimit hw
    have h4 : 2 ^ 2 ≤ 2 ^ d.dstW := Nat.pow_le_pow_right (by decide) hw
    have h2 : 2 ^ 1 ≤ 2 ^ (d.dstW - 1) := Nat.pow_le_pow_right (by decide) (by omega)
    zify at h4 h2
    have hone : 1 % 2 ^ d.dstW = 1 := Nat.mod_eq_of_lt (by zify; omega)
    have hbool (x : Int) (hx : x = 0 ∨ x = 1) : (sinkValue d p x).1 % 2 ^ d.dstW = x.toNat := by
      obtain hf | hf : d.dstFmt ≤ 1 ∨ d.dstFmt = 2 := by omega
      · rw [(sinkValue_of_int d p x hf).1]
        have hmid : min (max x (sinkSpan d).1) (sinkSpan d).2 = x := by
          unfold sinkSpan
          split <;> dsimp only <;> omega
        rw [hmid, Int.emod_eq_of_lt (by omega) (by omega)]
      · obtain rfl | rfl := hx <;> simp [sinkValue, hf, hone]
    simp only [convertMove, hsrc, sourceValue, hedge, scaled, hscale, hlimit, ne_eq, not_true_eq_false, if_false,
      if_true, Bool.false_eq_true, Nat.reduceEqDiff]
    split
    · exact hbool 0 (.inl rfl)
    · exact hbool 1 (.inr rfl)
  case edges =>
    intro d p raw h hsrc hedge hdst level rose fell
    have hx : ((sourceValue d p raw).1 != 0) = level := by
      have : sourceValue d p raw = ((raw : Int), false) := by simp [sourceValue, hsrc, isFlt]
      simp [this, level, bne, beq_eq_decide]
    simp only [convertMove, hsrc, if_neg (show (0 : Nat) ≠ 5 by decide), if_pos hedge, hx]
    exact ⟨rfl, trivial⟩
  case raw =>
    intro d p raw h hsrc
    exact if_pos hsrc

/-! ## Floats -/

theorem roundEven_le {a M : Int} {b : Nat} (hb : 0 < b) (h : a ≤ M * b) : roundEven a b ≤ M := by
  have hb' : (0 : Int) < b := by exact_mod_cast hb
  have hq : a / b ≤ M := Int.ediv_le_of_le_mul hb' h
  have hr := Int.emod_nonneg a hb'.ne'
  have hdm := Int.mul_ediv_add_emod a b
  obtain hlt | heq := hq.lt_or_eq
  · unfold roundEven
    dsimp only
    split_ifs <;> omega
  · have hzero : a % b = 0 := by rw [heq] at hdm; linarith [mul_comm M (b : Int)]
    unfold roundEven
    dsimp only
    rw [if_pos (by omega)]
    exact hq

/-- The rounded significand of `n` in units of 2^(e − bias − fr), where `e` is at least the biased exponent of `n`
(R107). -/
def significand (n up down : Nat) : Nat :=
  if down ≤ up then n * 2 ^ (up - down) else (roundEven (n : Nat) (2 ^ (down - up))).toNat

/-- The significand has `fr + 1` bits, or is the power of two that rounding up gives. -/
theorem significand_le {n up down fr : Nat} (h : n.log2 + up ≤ down + fr) : significand n up down ≤ 2 ^ (fr + 1) := by
  have hn : n < 2 ^ (n.log2 + 1) := Nat.lt_log2_self
  unfold significand
  split
  case isTrue hle =>
    calc n * 2 ^ (up - down) ≤ 2 ^ (n.log2 + 1) * 2 ^ (up - down) := Nat.mul_le_mul_right _ hn.le
      _ = 2 ^ (n.log2 + 1 + (up - down)) := (pow_add ..).symm
      _ ≤ 2 ^ (fr + 1) := Nat.pow_le_pow_right (by decide) (by omega)
  case isFalse hlt =>
    have hround : roundEven (n : Nat) (2 ^ (down - up)) ≤ ((2 ^ (fr + 1) : Nat) : Int) := by
      refine roundEven_le (by positivity) ?_
      have : n ≤ 2 ^ (fr + 1) * 2 ^ (down - up) := by
        rw [← pow_add]
        exact hn.le.trans (Nat.pow_le_pow_right (by decide) (by omega))
      exact_mod_cast this
    exact Int.toNat_le.mpr hround

/-- A converted integer is a sign bit and a magnitude below that of infinity. -/
theorem intToFlt_finite (fmt fbits : Nat) (x : Int) (hexp : 2 ≤ fltExp fmt) :
    ∃ sign mag, (intToFlt fmt fbits x).1 = sign + mag ∧ (sign = 0 ∨ sign = 2 ^ (fltFrac fmt + fltExp fmt)) ∧
      mag < (2 ^ fltExp fmt - 1) * 2 ^ fltFrac fmt := by
  have hbig : 2 ^ 2 ≤ 2 ^ fltExp fmt := Nat.pow_le_pow_right (by decide) hexp
  have hfr : 0 < 2 ^ fltFrac fmt := by positivity
  have hinf : 0 < (2 ^ fltExp fmt - 1) * 2 ^ fltFrac fmt := Nat.mul_pos (by omega) hfr
  obtain ⟨e, he⟩ : ∃ e, e = max (x.natAbs.log2 + (2 ^ (fltExp fmt - 1) - 1) - fbits) 1 := ⟨_, rfl⟩
  have hq := significand_le (n := x.natAbs) (up := 2 ^ (fltExp fmt - 1) - 1 + fltFrac fmt) (down := e + fbits)
    (fr := fltFrac fmt) (by omega)
  obtain ⟨q, hqdef⟩ : ∃ q, q = significand x.natAbs (2 ^ (fltExp fmt - 1) - 1 + fltFrac fmt) (e + fbits) := ⟨_, rfl⟩
  obtain ⟨e', q', hpair, hq', he'⟩ : ∃ e' q', (if q = 2 ^ (fltFrac fmt + 1) then (e + 1, 2 ^ fltFrac fmt) else (e, q)) =
      (e', q') ∧ q' < 2 ^ (fltFrac fmt + 1) ∧ 1 ≤ e' := by
    rw [← hqdef] at hq
    split
    · exact ⟨_, _, rfl, Nat.pow_lt_pow_right (by decide) (by omega), by omega⟩
    · exact ⟨_, _, rfl, by omega, by omega⟩
  have hval : intToFlt fmt fbits x = if x.natAbs = 0 then (0, false) else
      if 2 ^ fltExp fmt - 1 ≤ e' then ((if x < 0 then 2 ^ (fltFrac fmt + fltExp fmt) else 0) +
        (2 ^ fltExp fmt - 1) * 2 ^ fltFrac fmt - 1, true)
      else ((if x < 0 then 2 ^ (fltFrac fmt + fltExp fmt) else 0) +
        (if q' < 2 ^ fltFrac fmt then q' else (e' - 1) * 2 ^ fltFrac fmt + q'), false) := by
    simp only [intToFlt]
    rw [← he, ← significand, ← hqdef, hpair]
  obtain ⟨sign, hsign⟩ : ∃ sign, sign = if x < 0 then 2 ^ (fltFrac fmt + fltExp fmt) else 0 := ⟨_, rfl⟩
  have hsigns : sign = 0 ∨ sign = 2 ^ (fltFrac fmt + fltExp fmt) := by
    rw [hsign]
    split <;> simp
  rw [hval, ← hsign]
  split_ifs with hzero hover hsub
  · exact ⟨0, 0, rfl, .inl rfl, hinf⟩
  · exact ⟨sign, _, Nat.add_sub_assoc hinf .., hsigns, Nat.sub_lt hinf one_pos⟩
  · exact ⟨sign, q', rfl, hsigns, hsub.trans_le (Nat.le_mul_of_pos_left _ (by omega))⟩
  · refine ⟨sign, _, rfl, hsigns, ?_⟩
    calc (e' - 1) * 2 ^ fltFrac fmt + q' < (e' - 1) * 2 ^ fltFrac fmt + 2 * 2 ^ fltFrac fmt := by
          rw [pow_succ] at hq'
          omega
      _ = (e' + 1) * 2 ^ fltFrac fmt := by
          rw [← add_mul, show e' - 1 + 2 = e' + 1 by omega]
      _ ≤ (2 ^ fltExp fmt - 1) * 2 ^ fltFrac fmt := Nat.mul_le_mul_right _ (by omega)

/-- Settles O10: what an integer becomes is a sign and a magnitude below that of infinity, so its exponent field is
not all ones. -/
theorem floatSinksAreFinite : Obligations.FloatSinksAreFinite := by
  unfold Obligations.FloatSinksAreFinite
  intro fmt fbits x hfmt
  obtain ⟨sign, mag, hx, hsign, hmag⟩ := intToFlt_finite fmt fbits x (by obtain rfl | rfl := hfmt <;> decide)
  rw [hx]
  obtain rfl | rfl := hfmt
  · simp only [fltBad, bitsAt, fltFrac, fltExp, if_true, beq_eq_false_iff_ne] at hsign hmag ⊢
    omega
  · simp only [fltBad, bitsAt, fltFrac, fltExp, beq_eq_false_iff_ne, Nat.reduceEqDiff, if_false] at hsign hmag ⊢
    omega

end Sys2Proof.Machine
end

section
set_option Elab.async false
/-! PROOFS. A step of the machine, and the state that reset leaves. -/

namespace Sys2Proof.Machine

open Sys2Proof

/-- Settles O57: a step is `exec` of the front command, and on an empty queue one beat of a device out of reset. -/
theorem stepTakesTheFront : Obligations.StepTakesTheFront := by
  unfold Obligations.StepTakesTheFront
  refine ⟨?front, ?idle, ?held⟩
  case front => exact fun c rest s h => step_cons s c rest h
  case idle =>
    intro s h hup
    refine ⟨s.elapse 1, ?_, ?_, ?_, ?_⟩
    · rw [step_nil s h, State.alive, if_pos hup]
    · rw [State.elapse_time]
      rfl
    · rw [State.elapse_time]
      simp [TimeUnit.elapse]
    · rw [State.elapse_time]
      exact State.elapse_frame s 1
  case held =>
    intro s h hup
    rw [step_nil s h, State.alive, if_neg (by simp [hup])]

/-- Settles O58: every value is read off the reset state, whose tables are empty. -/
theorem resetState : Obligations.ResetState := by
  unfold Obligations.ResetState
  refine ⟨rfl, ⟨reset_memWf, Sparse.wf_nil 0⟩, Sparse.wf_nil 0, rfl, rfl, rfl, by decide, by decide, by decide, by decide, by decide,
    by decide, by decide, rfl, rfl, rfl, rfl, rfl, rfl, ?_, ?_, ?_⟩ <;> decide

end Sys2Proof.Machine
end

section
set_option Elab.async false
/-! PROOFS. Timestamp inputs and timed outputs (R56, R57): stamps and their FIFOs, and instants of time of day as beats. -/

namespace Sys2Proof.Machine

open Sys2Proof

variable {s : State} {m : Master}

/-! ## Timestamp inputs (R56) -/

theorem TimeUnit.judged_sampled_fields (t : TimeUnit) (running small : Bool) (integ raw : Int) :
    ((t.sampled running integ raw).judged small).tsi = t.tsi ∧
      ((t.sampled running integ raw).judged small).holdFrom = t.beat ∧
      ((t.sampled running integ raw).judged small).hold = false ∧
      ((t.sampled running integ raw).judged small).integ = integ := by
  cases running <;> cases small <;> exact ⟨rfl, rfl, rfl, rfl⟩

theorem State.offer_fields (s : State) (src : Nat) (e : Int) :
    (s.offer src e).time.tsi = s.time.tsi ∧
      (∀ off, off ≠ 0x10004 → (s.offer src e).reg off = s.reg off) ∧
      bit ((s.offer src e).reg 0x10004) 6 = bit (s.reg 0x10004) 6 ∧
      s.offer src e = { s with
        time := (s.offer src e).time, regs := (s.offer src e).regs, fresh := (s.offer src e).fresh } := by
  unfold State.offer
  split
  · rw [State.sample_eq]
    refine ⟨by simp [TimeUnit.judged_sampled_fields], fun off hoff => by simp [State.reg_raiseIf_ne _ _ _ hoff], by simp [State.bit_raiseIf], ?_⟩
    apply State.eq_of_fields <;> simp
  · exact ⟨rfl, fun _ _ => rfl, rfl, rfl⟩

theorem two_pow_32 : (2 : Nat) ^ 32 = 4294967296 := by norm_num

theorem ppsError_eq (f : Nat) : ppsError f = if (f : Int) < 2 ^ 31 then -(f : Int) else 2 ^ 32 - f := by
  unfold ppsError
  split <;> split <;> omega

/-- The input after a stamp: it joins the FIFO, or OVF is set. -/
def Tsi.pushed (x : Tsi) (st : Stamp) : Tsi :=
  if x.fifo.length < 4 then { x with fifo := x.fifo ++ [st] } else { x with ovf := true }

section Push

variable (s : State) (i : Fin 16) (st : Stamp)

theorem State.tsiPush_time :
    (s.tsiPush i st).time = { s.time with tsi := upd s.time.tsi i fun x => x.pushed st } := by
  unfold State.tsiPush
  split
  case isTrue h =>
    simp only [Fin.getElem_fin] at h
    simp [State.mapTsi, upd, Tsi.pushed, h]
  case isFalse h =>
    simp only [Fin.getElem_fin] at h
    simp [State.mapTsi, upd, Tsi.pushed, h]

theorem State.reg_tsiPush {off : Nat} (h : off ≠ 0x10004) : (s.tsiPush i st).reg off = s.reg off := by
  unfold State.tsiPush
  split
  · rfl
  · rw [State.reg_raise_ne _ _ h, State.reg_markFresh]
    rfl

theorem State.bit_tsiPush : bit ((s.tsiPush i st).reg 0x10004) 6 =
    (bit (s.reg 0x10004) 6 || decide (4 ≤ s.time.tsi[i].fifo.length)) := by
  unfold State.tsiPush
  split
  case isTrue h => simp [State.mapTsi, show ¬4 ≤ s.time.tsi[i.val].fifo.length from Nat.not_le.mpr h]
  case isFalse h => simp [State.mapTsi, bit_or, bit_bitMask, show 4 ≤ s.time.tsi[i.val].fifo.length from Nat.le_of_not_lt h]

theorem State.tsiPush_frame : s.tsiPush i st = { s with
    time := (s.tsiPush i st).time, regs := (s.tsiPush i st).regs, fresh := (s.tsiPush i st).fresh } := by
  unfold State.tsiPush
  split <;> rfl

end Push

theorem State.latched_latchWords_below (s : State) (m : Master) {off o : Nat} (ws : List Word) (live : Word) (h : o < off) :
    (s.latchWords m off ws).latched m o live = s.latched m o live := by
  induction ws generalizing s off with
  | nil => rfl
  | cons w ws ih =>
    rw [State.latchWords, ih _ (by omega)]
    simp only [State.latched, State.latchWord]
    rw [Sparse.get_set_ne]
    simp only [latchKey]
    omega

/-- A latched word is what the master reads next (R40, R480). -/
theorem State.latched_latchWords (s : State) (m : Master) (off : Nat) (ws : List Word) (live : Word) {k : Nat}
    (hk : k < ws.length) : (s.latchWords m off ws).latched m (off + 2 * k) live = ws[k] := by
  induction ws generalizing s off k with
  | nil => exact absurd hk (Nat.not_lt_zero k)
  | cons w ws ih =>
    rw [State.latchWords]
    cases k with
    | zero =>
      rw [State.latched_latchWords_below _ _ _ _ (by omega)]
      simp [State.latched, State.latchWord]
    | succ k =>
      rw [show off + 2 * (k + 1) = off + 2 + 2 * k by omega, ih _ _ (by simpa using hk)]
      rfl

/-- What an offer of a PPS edge leaves. -/
theorem State.stampOffered_fields (s : State) {t : State} {c : Bool} {e : Int} (ht : t = if c then s.offer 4 e else s) :
    t.time.tsi = s.time.tsi ∧ (∀ off, off ≠ 0x10004 → t.reg off = s.reg off) ∧
      bit (t.reg 0x10004) 6 = bit (s.reg 0x10004) 6 ∧
      t = { s with time := t.time, regs := t.regs, fresh := t.fresh } := by
  subst ht
  cases c
  · exact ⟨rfl, fun _ _ => rfl, rfl, rfl⟩
  · exact s.offer_fields 4 e

@[simp] theorem Tsi.pushed_pin (x : Tsi) (st : Stamp) : (x.pushed st).pin = x.pin := by
  unfold Tsi.pushed
  split <;> rfl

theorem State.latchWords_frame (s : State) (m : Master) (off : Nat) (ws : List Word) :
    s.latchWords m off ws = { s with latch := (s.latchWords m off ws).latch } := by
  induction ws generalizing s off with
  | nil => rfl
  | cons w ws ih =>
    rw [State.latchWords, ih]
    rfl

/-- Settles O3: a stamp joins its FIFO or sets OVF, a read of S0 latches the head's other words and pops it, and EN = 0
flushes. -/
theorem timestampInputs : Obligations.TimestampInputs := by
  unfold Obligations.TimestampInputs
  refine ⟨?edge, ?read, ?clear⟩
  case edge =>
    intro i rising sub s hon hen hdir
    dsimp only
    refine ⟨_, exec_alive hon rfl, ?_⟩
    have hstamps : (s.mapTsi i fun x => { x with pin := rising }).tsiStamps i rising = true := by
      simp only [State.tsiStamps, State.mapTsi, State.rbit, State.reg_mapTime, tsiOff, hen, Bool.true_and]
      exact hdir
    rw [State.tsiEdge, if_pos hstamps]
    dsimp only
    have htod : BitVec.ofNat 80 ((s.time.todx + sub.val * s.time.rate / 8) / 2 ^ 45) = s.time.stamp sub.val := by
      rw [TimeUnit.stamp, sliverX]
    have hstamp (f : Tsi → Tsi) : (s.mapTsi i f).time.stamp sub.val = s.time.stamp sub.val := rfl
    rw [htod, hstamp]
    generalize s.time.stamp sub.val = tod
    obtain ⟨p, hp⟩ : ∃ p, p = (s.mapTsi i fun x => { x with pin := rising }).tsiPush i ⟨tod, rising⟩ := ⟨_, rfl⟩
    have htime : p.time = { s.time with
        tsi := upd s.time.tsi i fun x => ({ x with pin := rising } : Tsi).pushed ⟨tod, rising⟩ } := by
      rw [hp, State.tsiPush_time]
      simp [State.mapTsi, upd]
    have hreg : ∀ off, off ≠ 0x10004 → p.reg off = s.reg off := fun off hoff => by
      rw [hp, State.reg_tsiPush _ _ _ hoff]
      rfl
    have hbit : bit (p.reg 0x10004) 6 = (bit (s.reg 0x10004) 6 || decide (4 ≤ s.time.tsi[i].fifo.length)) := by
      rw [hp, State.bit_tsiPush]
      simp [State.mapTsi]
    have hframe : p = { s with time := p.time, regs := p.regs, fresh := p.fresh } := by
      rw [hp, State.tsiPush_frame]
      rfl
    rw [← hp]
    have hsrc : (rising && p.rfld 0x10000 4 4 == i.val) = (rising && fld (s.reg 0x10000) 4 4 == i.val) := by
      rw [State.rfld, hreg _ (by decide)]
    rw [hsrc]
    obtain ⟨t, ht⟩ : ∃ t, t = (if (rising && fld (s.reg 0x10000) 4 4 == i.val) = true then
        p.offer 4 (ppsError (tod.toNat % 4294967296)) else p) := ⟨_, rfl⟩
    rw [← ht]
    have hoffer (e : Int) : p.offer 4 e =
        if (bit (s.reg 0x10000) 0 && fld (s.reg 0x10000) 1 3 == 4) = true then p.sample e else p := by
      rw [State.offer, State.srvOn, State.srvSource, State.rbit, State.rfld, hreg _ (by decide)]
    obtain ⟨htsi, htreg, htbit, htframe⟩ := State.stampOffered_fields p ht
    have hinput : t.time.tsi = upd s.time.tsi i fun x => ({ x with pin := rising } : Tsi).pushed ⟨tod, rising⟩ := by
      rw [htsi, htime]
    refine ⟨?_, fun hroom => ?_, fun hfull => ?_, fun k hk => ?_, fun hpps => ?_, fun hpps => ?_, fun off hoff => ?_, ?_⟩
    · rw [hinput, upd_self]
      simp [Tsi.pushed_pin]
    · rw [hinput, upd_self, htbit, hbit]
      exact ⟨by simp [-Fin.getElem_fin, Tsi.pushed, hroom], by simp [-Fin.getElem_fin, Tsi.pushed, hroom],
        by simp [-Fin.getElem_fin, Nat.not_le.mpr hroom]⟩
    · rw [hinput, upd_self, htbit, hbit]
      have hn : ¬s.time.tsi[i].fifo.length < 4 := Nat.not_lt.mpr hfull
      exact ⟨by simp [-Fin.getElem_fin, Tsi.pushed, hn], by simp [-Fin.getElem_fin, Tsi.pushed, hn],
        by simp [-Fin.getElem_fin, hfull]⟩
    · rw [hinput, upd_ne _ _ hk]
    · have hsame : t = p := by
        rw [ht, hoffer]
        by_cases hc : (rising && fld (s.reg 0x10000) 4 4 == i.val) = true
        · rw [if_pos hc, if_neg]
          intro hsrv
          simp only [Bool.and_eq_true] at hc hsrv
          obtain ⟨hrise, hsel⟩ := hc
          obtain ⟨hen, hsrc4⟩ := hsrv
          rw [hrise, hsel, hen, hsrc4] at hpps
          exact absurd hpps (by decide)
        · rw [if_neg hc]
      rw [hsame, htime]
    · simp only [Bool.and_eq_true] at hpps
      obtain ⟨⟨⟨hrise, hen⟩, hsrc4⟩, hsel⟩ := hpps
      have hsample : t = p.sample (ppsError (tod.toNat % 4294967296)) := by
        rw [ht, hoffer, if_pos (by simp [hrise, hsel]), if_pos (by simp [hen, hsrc4])]
      have hclip (x : Int) : clip (-2147483648) 2147483647 x = max (-2147483648) (min 2147483647 x) := by
        unfold clip
        split <;> [skip; split] <;> omega
      rw [hsample, State.sample_eq]
      simp only [State.raiseIf_fields, State.mapTime_time, TimeUnit.judged_sampled_fields, State.sampleInteg, sat32, hclip]
      rw [State.rfld, hreg _ (by decide), hreg _ (by decide), htime]
      refine ⟨rfl, trivial, ?_⟩
      dsimp only
      rw [ppsError_eq, ← two_pow_32]
      rfl
    · rw [htreg _ hoff, hreg _ hoff]
    · rw [htframe, hframe]
  case read =>
    intro m i s hr
    have hoff : tsiOff i.val + 4 = 0x10084 + 0x10 * i.val := by
      unfold tsiOff
      omega
    refine ⟨_, exec_readCmd (off := tsiOff i.val + 4) (hoff ▸ hr) rfl, ?_⟩
    rw [State.tsiRead, State.groupRead, if_pos rfl, hoff]
    obtain ⟨x, hx⟩ : ∃ x, x = s.time.tsi[i].head := ⟨_, rfl⟩
    have hhead (st : Stamp) (hst : st ∈ s.time.tsi[i].fifo.head?) : x = st.tod.toNat := by
      rw [hx, Tsi.head]
      revert hst
      cases s.time.tsi[i].fifo with
      | nil => simp
      | cons a l => simp +contextual
    rw [← hx]
    dsimp only
    rw [State.latchWords_frame]
    refine ⟨fun st hst => ?_, fun st hst k h1 h5 => ?_, fun hnil => ?_, ?_, fun k hk => ?_, ?_⟩
    · simp [hhead st hst]
    · obtain ⟨k, rfl⟩ : ∃ j, k = j + 1 := ⟨k - 1, by omega⟩
      have hw := s.latched_latchWords m (0x10084 + 0x10 * i.val + 2) ((List.range 4).map fun k => wordOf x (k + 1)) 0
        (k := k) (by simp; omega)
      simp only [List.getElem_map, List.getElem_range, hhead st hst] at hw
      rw [show 0x10084 + 0x10 * i.val + 2 * (k + 1) = 0x10084 + 0x10 * i.val + 2 + 2 * k by omega, ← hw, hhead st hst]
      simp [State.latched, State.mapTsi]
    · have h0 : x = 0 := by rw [hx, Tsi.head, hnil]
      simp [h0, wordOf]
    · simp [State.mapTsi, upd]
    · simp [State.mapTsi, upd_ne _ _ hk]
    · apply State.eq_of_fields <;> simp [State.mapTsi]
  case clear =>
    intro m i s hw
    have hoff : tsiOff i.val = 0x10080 + 0x10 * i.val := rfl
    refine ⟨_, exec_writeCmd hw rfl, ?_⟩
    rw [State.tsiCtrl, if_neg (by rw [bit_setBit _ _ _ (by omega)]; simp), State.mapTsi, hoff]
    refine ⟨by simp, ?_, fun k hk => by simp [upd_ne _ _ hk], fun off hoff => by simp [State.reg_setReg_ne _ _ hoff], ?_⟩
    · simp only [State.reg_respond, State.reg_mapTime, State.reg_setReg_self]
      refine word_ext fun k hk => ?_
      have h7 : ∀ k : Fin 16, bit (7 : Word) k = decide (k.val < 3) := by decide
      have h6 : ∀ k : Fin 16, bit (6 : Word) k = decide (k.val = 1 ∨ k.val = 2) := by decide
      rw [bit_and, bit_and, bit_setBit _ _ _ hk, h7 ⟨k, hk⟩, h6 ⟨k, hk⟩]
      obtain rfl | rfl | rfl | h3 : k = 0 ∨ k = 1 ∨ k = 2 ∨ 3 ≤ k := by omega
      · simp
      · simp
      · simp
      · simp [show ¬k < 3 by omega, show k ≠ 1 by omega, show k ≠ 2 by omega]
    · apply State.eq_of_fields <;> simp

/-! ## Timed outputs (R57) -/

theorem Drive.flip_eq (p : Drive) : p.flip = if p = .high then .low else .high := by cases p <;> rfl

theorem tsoEntry_eq (mode : BitVec 3) (p : Drive) : tsoEntry mode.toNat p = if mode = 0 ∨ mode = 7 then .hiZ
    else if mode = 2 then .high else if mode = 6 ∧ p ≠ .hiZ then p else .low := by
  cases p <;> revert mode <;> decide

/-- ADJ within the limits of R43 keeps time of day moving. -/
theorem TimeUnit.rate_pos {t : TimeUnit} (h : -2147483648 ≤ t.adj) : 0 < t.rate := by
  have : 2147483648 < 8 * sliverX := by unfold sliverX; norm_num
  unfold TimeUnit.rate
  omega

/-- The beats to an instant of time of day: their last contains it, or none is left. -/
theorem TimeUnit.beatsTo_spec {t : TimeUnit} (x : Nat) (hrate : 0 < t.rate) :
    x < t.todx + t.beatsTo x * t.rate + t.rate ∧
      (t.todx ≤ x ∨ 0 < t.beatsTo x → t.todx + t.beatsTo x * t.rate ≤ x) := by
  have hdiv := Nat.div_mul_le_self (x - t.todx) t.rate
  have hlt := Nat.lt_div_mul_add hrate (a := x - t.todx)
  unfold TimeUnit.beatsTo
  refine ⟨by omega, fun h => ?_⟩
  rcases h with h | h
  · omega
  · have := (Nat.div_pos_iff.mp h).2
    omega

theorem TimeUnit.nextSecond_eq (t : TimeUnit) (marked : Bool) :
    t.nextSecond marked = if marked = true ∧ (t.todx + 2 ^ 77 - 1) / 2 ^ 77 * 2 ^ 77 < t.todx + t.rate then
      (t.todx + 2 ^ 77 - 1) / 2 ^ 77 * 2 ^ 77 + 2 ^ 77 else (t.todx + 2 ^ 77 - 1) / 2 ^ 77 * 2 ^ 77 := by
  unfold TimeUnit.nextSecond ceilDiv
  generalize 2 ^ 77 = D
  simp only [Bool.and_eq_true, decide_eq_true_eq]

/-- The next whole second has not passed. -/
theorem TimeUnit.todx_le_nextSecond (t : TimeUnit) (marked : Bool) : t.todx ≤ t.nextSecond marked := by
  have hD : 0 < 2 ^ 77 := by positivity
  unfold TimeUnit.nextSecond
  generalize 2 ^ 77 = D at hD ⊢
  have hceil : t.todx ≤ ceilDiv t.todx D * D := by
    have := Nat.lt_div_mul_add hD (a := t.todx + D - 1)
    unfold ceilDiv
    omega
  dsimp only
  split <;> omega

/-- Settles O4: the beats to an instant of time of day end in the beat that contains it; the rest is a change of one
output. -/
theorem timedOutputs : Obligations.TimedOutputs := by
  unfold Obligations.TimedOutputs
  refine ⟨?pps, ?pulseEnd, ?miss, ?toggle, ?push, ?mode⟩
  case pps =>
    intro j s hon hmode hadj
    dsimp only
    have hx : (if s.time.tso[j].pulse = some s.time.beat ∧
        (s.time.todx + 2 ^ 77 - 1) / 2 ^ 77 * 2 ^ 77 < s.time.todx + s.time.rate then
          (s.time.todx + 2 ^ 77 - 1) / 2 ^ 77 * 2 ^ 77 + 2 ^ 77 else (s.time.todx + 2 ^ 77 - 1) / 2 ^ 77 * 2 ^ 77) =
        s.time.nextSecond (s.time.tso[j].pulse == some s.time.beat) := by
      simp only [TimeUnit.nextSecond_eq, beq_iff_eq]
    rw [hx]
    refine ⟨_, exec_alive hon rfl, ?_⟩
    rw [State.tsoPps, if_pos (show s.tsoMode j = 3 from hmode)]
    dsimp only
    obtain ⟨hlast, hle⟩ := TimeUnit.beatsTo_spec (s.time.nextSecond (s.time.tso[j].pulse == some s.time.beat))
      (TimeUnit.rate_pos hadj)
    replace hle := hle (.inl (s.time.todx_le_nextSecond _))
    generalize s.time.nextSecond (s.time.tso[j].pulse == some s.time.beat) = x at hlast hle ⊢
    have htodx : ((s.elapse (s.time.beatsTo x)).tsoPulse j).time.todx = s.time.todx + s.time.beatsTo x * s.time.rate := by
      simp [State.tsoPulse, State.mapTso, TimeUnit.elapse]
    have hbeat : ((s.elapse (s.time.beatsTo x)).tsoPulse j).time.beat = s.time.beat + s.time.beatsTo x := by
      simp [State.tsoPulse, State.mapTso, TimeUnit.elapse]
    rw [htodx, hbeat]
    refine ⟨by simp [State.tsoPulse, State.mapTso], by simp [State.tsoPulse, State.mapTso, TimeUnit.elapse], hle, hlast, ?_,
      Nat.le_add_right .., fun k hk => by simp [State.tsoPulse, State.mapTso, upd_ne _ _ hk], ?_⟩
    · rw [Nat.add_sub_cancel_left]
    · rw [State.elapse_frame]
      rfl
  case pulseEnd =>
    intro j b s hon hpulse
    have hwidth : (if fld (s.reg (0x10200 + 0x10 * j.val)) 0 3 = 3 then
        max 1 (fld (s.reg (0x10200 + 0x10 * j.val)) 3 10) * 524288 else 4096) = s.tsoWidth j := rfl
    dsimp only
    rw [hwidth]
    refine ⟨_, exec_alive hon rfl, ?_⟩
    rw [State.tsoEnd, hpulse]
    dsimp only
    generalize b + s.tsoWidth j = due
    refine ⟨by simp [State.mapTso, TimeUnit.elapse], by simp [State.mapTso, upd], ?_⟩
    rw [State.until_frame]
    rfl
  case miss =>
    intro j h r s hon hqueue hpast
    refine ⟨_, exec_alive hon rfl, ?_⟩
    rw [State.tsoToggle, hqueue]
    dsimp only
    rw [if_pos (show h.toNat < s.time.tod from hpast)]
    refine ⟨by simp [State.mapTso, upd], ?_, fun off hoff => ?_, rfl⟩
    · simp [State.mapTso]
      rfl
    · simp [State.mapTso, State.reg_raise_ne _ _ hoff]
  case toggle =>
    intro j h r s hon hqueue hfuture hadj
    dsimp only
    refine ⟨_, exec_alive hon rfl, ?_⟩
    rw [State.tsoToggle, hqueue]
    dsimp only
    rw [if_neg (show ¬h.toNat < s.time.tod from Nat.not_lt.mpr hfuture)]
    have hx : (s.time.todx / 2 ^ 125 * 2 ^ 80 + h.toNat) * 2 ^ 45 =
        (s.time.todx / sliverX / 2 ^ 80 * 2 ^ 80 + h.toNat) * sliverX := by
      rw [sliverX, Nat.div_div_eq_div_mul, ← Nat.pow_add]
    obtain ⟨x, hx'⟩ : ∃ x, x = (s.time.todx / sliverX / 2 ^ 80 * 2 ^ 80 + h.toNat) * sliverX := ⟨_, rfl⟩
    rw [hx, ← hx']
    obtain ⟨hlast, hle⟩ := TimeUnit.beatsTo_spec x (TimeUnit.rate_pos hadj)
    have htodx (f : Tso → Tso) : ((s.elapse (s.time.beatsTo x)).mapTso j f).time.todx =
        s.time.todx + s.time.beatsTo x * s.time.rate := by simp [State.mapTso, TimeUnit.elapse]
    have hbeat (f : Tso → Tso) : ((s.elapse (s.time.beatsTo x)).mapTso j f).time.beat = s.time.beat + s.time.beatsTo x := by
      simp [State.mapTso, TimeUnit.elapse]
    rw [htodx, hbeat]
    refine ⟨?_, Nat.le_add_right .., ?_, ⟨hlast, fun hpos => hle (.inr (Nat.lt_add_right_iff_pos.mp hpos))⟩, ?_⟩
    · simp only [State.mapTso, State.mapTime_time, State.elapse_time, TimeUnit.elapse_fields, Drive.flip_eq]
      rfl
    · rw [Nat.add_sub_cancel_left]
    · rw [State.elapse_frame]
      rfl
  case push =>
    intro m j v s hw hmode
    have hoff : tsoOff j.val + 12 = 0x1020C + 0x10 * j.val := by
      unfold tsoOff
      omega
    refine ⟨_, exec_writeCmd (off := tsoOff j.val + 12) (hoff ▸ hw) rfl, ?_⟩
    rw [State.tsoPush]
    dsimp only
    rw [if_pos (show s.tsoMode j = 6 from hmode)]
    have hx : ofWords ((List.range 4).map (fun k => s.reg (tsoOff j.val + 4 + 2 * k)) ++ [v]) =
        ofWords [s.reg (0x10204 + 0x10 * j.val), s.reg (0x10204 + 0x10 * j.val + 2), s.reg (0x10204 + 0x10 * j.val + 4),
          s.reg (0x10204 + 0x10 * j.val + 6), v] := by
      rw [show tsoOff j.val + 4 = 0x10204 + 0x10 * j.val by unfold tsoOff; omega]
      rfl
    rw [hx]
    split
    case isTrue hroom =>
      refine ⟨fun _ => by simp [State.mapTso, upd], fun hfull => absurd hroom (by omega), ?_⟩
      apply State.eq_of_fields <;> simp [State.mapTso]
    case isFalse hfull =>
      refine ⟨fun hroom => absurd hroom hfull, fun _ => by simp [State.mapTso, upd], ?_⟩
      apply State.eq_of_fields <;> simp [State.mapTso]
  case mode =>
    intro m j mode s hw
    have hoff : tsoOff j.val = 0x10200 + 0x10 * j.val := rfl
    refine ⟨_, exec_writeCmd (off := tsoOff j.val) hw rfl, ?_⟩
    dsimp only
    rw [State.tsoCtrl, hoff]
    have hmode : fld (setFld (s.reg (0x10200 + 0x10 * j.val)) 0 3 mode.toNat) 0 3 = mode.toNat :=
      (fld_setFld _ _ (by omega)).trans (Nat.mod_eq_of_lt mode.isLt)
    have hmask : ∀ k : Fin 16, bit (8191#16) k = decide (k.val < 13) := by decide
    have hkeep {lo n : Nat} (h : lo + n ≤ 13) (w : Word) : fld (w &&& 8191#16) lo n = fld w lo n :=
      fld_congr fun i _ _ => by rw [bit_and, hmask ⟨i, by omega⟩, decide_eq_true (by simp; omega), Bool.and_true]
    have hwidth : fld (setFld (s.reg (0x10200 + 0x10 * j.val)) 0 3 mode.toNat) 3 10 =
        fld (s.reg (0x10200 + 0x10 * j.val)) 3 10 := fld_setFld_of_disjoint _ _ (.inr (by omega)) (by omega)
    have hold : s.tsoMode j = fld (s.reg (0x10200 + 0x10 * j.val)) 0 3 := rfl
    rw [hmode, hold]
    split
    case isTrue hsame =>
      refine ⟨by simp [hkeep, hmode], by simp [hkeep, hwidth], fun _ => by simp, fun hne => absurd hsame.symm hne,
        fun off hoff => by simp [State.reg_setReg_ne _ _ hoff], ?_⟩
      apply State.eq_of_fields <;> simp
    case isFalse hne =>
      refine ⟨by simp [State.mapTso, hkeep, hmode], by simp [State.mapTso, hkeep, hwidth], fun h => absurd h.symm hne,
        fun _ => ?_, fun off hoff => by simp [State.mapTso, State.reg_setReg_ne _ _ hoff], ?_⟩
      · simp only [tsoEntry_eq]
        rfl
      · apply State.eq_of_fields <;> simp [State.mapTso]

end Sys2Proof.Machine
end

section
set_option Elab.async false
/-! PROOFS. Ticks, strikes and phases (03_tick_and_strike.md). A block that stores its image at a strike or at the sealing
deadline waits in place for a waking bank, and the beats of that wait are beats of the command. -/

namespace Sys2Proof.Machine

open Sys2Proof

/-- A device whose ticks run and whose bank 0 belongs to `owner` and wakes until beat 100. Image 0 begins with the last word
of that bank, so that a store ends there, as the next bank is not the owner's. -/
def wakingBank (owner : Word) (enable : Nat × Word) : State :=
  { State.reset with
    kdl := { Kindling.reset with up := true }
    tick := { TickCtl.reset with running := true }
    fio := { FieldIO.reset with lost := false }
    jnr := { Joiner.reset with img := [(1, 0xFFFE), (2, 3)] }
    regs := [enable, (0xC0000, owner)]
    bank := { Banks.reset with
      banks := Banks.reset.banks.set 0 { Banks.reset.banks[0] with asleep := true, waking := some 100 } } }

set_option maxRecDepth 20000 in
/-- The field interface writes its first level word at the strike, and waits for its bank until beat 100. -/
theorem strike_waits : (wakingBank 21 (0xB0000, 1)).strikeCmd.time.beat = 100 := by rfl

/-- Refutes O5: where the bank of the field interface's image wakes, the strike ends with the wake and not in its beat. -/
theorem not_tickAndStrike : ¬ Obligations.TickAndStrike := by
  unfold Obligations.TickAndStrike
  rintro ⟨-, -, -, hstrike, -⟩
  obtain ⟨t, hexec, hbeat, -⟩ := hstrike (wakingBank 21 (0xB0000, 1)) rfl rfl rfl
  obtain rfl := Host.Outcome.next.inj hexec
  exact absurd (hbeat.symm.trans strike_waits) (by decide)

set_option maxRecDepth 20000 in
/-- The motion unit posts its status at the sealing deadline, and waits for its bank until beat 100. -/
theorem sealingDeadline_waits : (wakingBank 20 (0xA0F00, 1)).sealingDeadline.time.beat = 100 := by rfl

/-- Refutes O6: where the bank of the motion unit's status image wakes, the command of the sealing deadline ends with the
wake and not at T+P−Q. -/
theorem not_phasesAndOverruns : ¬ Obligations.PhasesAndOverruns := by
  unfold Obligations.PhasesAndOverruns
  rintro ⟨-, -, -, -, hdeadline, -⟩
  obtain ⟨t, hexec, hbeat, -⟩ := hdeadline (wakingBank 20 (0xA0F00, 1)) rfl rfl rfl
  obtain rfl := Host.Outcome.next.inj hexec
  exact absurd (hbeat.symm.trans sealingDeadline_waits) (by decide)

end Sys2Proof.Machine
end

section
set_option Elab.async false
/-! PROOFS. Seals and requests for a local switch (R69, R71, R81 to R83). -/

namespace Sys2Proof.Machine

open Sys2Proof

section Images

variable (s : State) (i : Nat) (f : ImageSt → ImageSt)

theorem State.image_mapImage_self : (s.mapImage i f).image i = f (s.image i) := by
  simp [State.image, State.mapImage]

theorem State.image_mapImage_ne {k : Nat} (h : k ≠ i) : (s.mapImage i f).image k = s.image k := by
  simp [State.image, State.mapImage, Sparse.get_set_ne _ _ _ _ h]

end Images

theorem fld_low_ten (v : Word) : fld v 0 10 = v.toNat % 1024 := by simp [fld, bitsAt]

/-- A mode number as the tick controller takes it from the request. -/
theorem modeOfReq (v : Word) : (BitVec.ofNat 3 (fld v 0 3)).toFin = Fin.ofNat 8 (fld v 0 3) := rfl

theorem modeOfReq_val (v : Word) : (Fin.ofNat 8 (fld v 0 3)).val = fld v 0 3 :=
  Nat.mod_eq_of_lt (fld_lt v 0 3)

theorem State.reqAllowed_of_no_vreq {s : State} (hrun : s.tick.running = true) (hreq : s.tick.req = none)
    (hvreq : ∀ c : ChanId, s.ring[c].vreq = false) : s.reqAllowed = true := by
  have hring : s.seesVreq = false := by
    rw [State.seesVreq, List.any_eq_false]
    intro r hr
    obtain ⟨i, hi, rfl⟩ := List.mem_iff_getElem.mp hr
    have := hvreq ⟨i, by simpa using hi⟩
    simp_all
  simp [State.reqAllowed, hrun, hreq, hring]

/-- Settles O7: a seal that counts changes one image, any other sets SEAL_REJ, and a local request is held or rejected. -/
theorem sealsAndRequests : Obligations.SealsAndRequests := by
  unfold Obligations.SealsAndRequests
  refine ⟨?counts, ?sealRej, ?request, ?requestRej⟩
  case counts =>
    intro m v s hw i hunc hprod hsealed hrun hfirst hopen hbeat hover
    have hi : fld v 0 10 = i := fld_low_ten v
    have hcount : s.sealsCount = true := by
      simp only [State.sealsCount, hrun, hopen, hbeat, Bool.true_and, decide_true, Bool.and_true, Bool.not_false]
      rcases hfirst with h | h <;> simp [h]
    refine ⟨_, exec_writeCmd hw rfl, ?_⟩
    rw [State.tckSeal]
    dsimp only
    rw [hi, if_neg (by simp [hunc]), if_pos (by simp [hprod, hsealed, hcount, hover]), State.sealImage]
    have himage : ((s.mapImage i fun x => { x with sealed := true, sealedSide := s.fillSide i, everSealed := true }).respond
        m 0 false).image i = { s.image i with sealed := true, sealedSide := s.fillSide i, everSealed := true } :=
      s.image_mapImage_self i fun x => { x with sealed := true, sealedSide := s.fillSide i, everSealed := true }
    rw [himage]
    refine ⟨rfl, fun hloc => ?_, rfl, fun k hk =>
      s.image_mapImage_ne i (fun x => { x with sealed := true, sealedSide := s.fillSide i, everSealed := true }) hk, rfl⟩
    rw [State.fillSide, if_neg (by simp [hloc])]
  case sealRej =>
    intro m v s hw i hunc hrej
    have hi : fld v 0 10 = i := fld_low_ten v
    refine exec_writeCmd_eq hw rfl ?_
    rw [State.tckSeal, hi, if_neg (by simp [hunc]), if_neg]
    rcases hrej with h | h | h
    · simp [h]
    · simp [h]
    · simp [State.sealsCount, Nat.not_lt.mpr h]
  case request =>
    intro m v s hw hlocal hrun hreq hvreq hdelay hok
    refine ⟨_, exec_writeCmd hw rfl, ?_⟩
    rw [State.modeReq, if_neg (by simp [hlocal]), State.localReq, modeOfReq, modeOfReq_val,
      State.reqAllowed_of_no_vreq hrun hreq hvreq, if_neg (by simp; omega), if_neg (by simp [hok])]
    rfl
  case requestRej =>
    intro m v s hw hlocal hrej
    refine exec_writeCmd_eq hw rfl ?_
    rw [State.modeReq, if_neg (by simp [hlocal]), State.localReq, if_pos]
    · rfl
    · simp only [State.reqAllowed, Bool.or_eq_true, Bool.not_eq_true', decide_eq_true_eq]
      rcases hrej with h | h | h
      · simp [h]
      · simp [h]
      · exact .inr h

end Sys2Proof.Machine
end

section
set_option Elab.async false
/-! PROOFS. Posts and the staging registers of the joiner's tables (R99, R119). -/

namespace Sys2Proof.Machine

open Sys2Proof

/-! ## Staging registers -/

section SetRegs

variable (s : State)

theorem State.setRegs_frame (off : Nat) (ws : List Word) : s.setRegs off ws = { s with regs := (s.setRegs off ws).regs } := by
  induction ws generalizing s off with
  | nil => rfl
  | cons w ws ih => exact ih (s.setReg off w) (off + 2)

theorem State.reg_setRegs_outside (ws : List Word) {off o : Nat} (h : o < off ∨ off + 2 * ws.length ≤ o) :
    (s.setRegs off ws).reg o = s.reg o := by
  induction ws generalizing s off with
  | nil => rfl
  | cons w ws ih =>
    simp only [List.length_cons] at h
    rw [State.setRegs, ih _ (by omega), State.reg_setReg_ne _ _ (by omega)]

theorem State.reg_setRegs (ws : List Word) (off : Nat) {k : Nat} (hk : k < ws.length) :
    (s.setRegs off ws).reg (off + 2 * k) = ws[k] := by
  induction ws generalizing s off k with
  | nil => exact absurd hk (Nat.not_lt_zero k)
  | cons w ws ih =>
    rw [State.setRegs]
    cases k with
    | zero =>
      rw [State.reg_setRegs_outside _ _ (.inl (by omega))]
      exact State.reg_setReg_self ..
    | succ k =>
      rw [show off + 2 * (k + 1) = off + 2 + 2 * k by omega, ih _ _ (by simpa using hk)]
      rfl

end SetRegs

/-- Tables without marked errors are read as they are. -/
theorem eccAny_eq_false {marks : Sparse Nat} {k n kind : Nat} (hkind : kind ≠ 0)
    (h : ∀ i, i < n → Sparse.get 0 marks (k + i) = 0) : eccAny marks k n kind = false := by
  rw [eccAny, List.any_eq_false]
  intro x hx
  obtain ⟨i, hi, rfl⟩ := List.mem_iff_getElem.mp hx
  have hn : i < n := by simpa [Sparse.length_getAll] using hi
  rw [Sparse.getElem_getAll, h i hn]
  simpa using hkind.symm

theorem State.tableCheck_clean {s : State} {t : JTable} {k n : Nat}
    (h : ∀ i, i < n → Sparse.get 0 (s.jnr.marks t) (k + i) = 0) : s.tableCheck t k n = (s, true) := by
  simp [State.tableCheck, eccAny_eq_false (kind := 1) (by decide) h, eccAny_eq_false (kind := 2) (by decide) h]

/-- READ of an entry without marked errors: its words are in the data registers, and nothing else changes (R119). -/
theorem State.stageRead_spec {s : State} {t : JTable} (hentry : t.hasEntry (s.stageIdx t) = true)
    (h : ∀ i, i < t.words → Sparse.get 0 (s.jnr.marks t) (t.words * s.stageIdx t + i) = 0) :
    (∀ k, k < t.words → (s.stageRead t).reg (t.dataOff + 2 * k) =
      Sparse.get 0 (s.jnr.table t) (t.words * s.stageIdx t + k)) ∧
    (∀ off, off < t.dataOff ∨ t.dataOff + 2 * t.words ≤ off → (s.stageRead t).reg off = s.reg off) ∧
    s.stageRead t = { s with regs := (s.stageRead t).regs } := by
  have hread : s.stageRead t =
      s.setRegs t.dataOff (Sparse.getAll 0 (s.jnr.table t) (t.words * s.stageIdx t) t.words) := by
    simp [State.stageRead, hentry, State.tableCheck_clean h]
  rw [hread]
  refine ⟨fun k hk => ?_, fun off hoff => ?_, ?_⟩
  · rw [State.reg_setRegs _ _ _ (by simpa [Sparse.length_getAll] using hk), Sparse.getElem_getAll]
  · exact State.reg_setRegs_outside _ _ (by simpa [Sparse.length_getAll] using hoff)
  · exact State.setRegs_frame _ _ _

/-- WRITE with a free place and a good entry holds the data registers (R119). -/
theorem State.stageWrite_free {s : State} {t : JTable} (hheld : s.jnr.held t = none)
    (hentry : t.hasEntry (s.stageIdx t) = true)
    (hok : (t == .dsc) = false ∨
      let d := descOf ((List.range t.words).map fun k => s.reg (t.dataOff + 2 * k))
      (d.en && (s.imgUnc d.srcImg || s.imgUnc d.dstImg)) = false ∧ s.descOk d = true) :
    s.stageWrite t = s.mapJnr fun j => j.setHeld t (some
      { idx := s.stageIdx t, words := (List.range t.words).map fun k => s.reg (t.dataOff + 2 * k) }) := by
  rw [State.stageWrite]
  dsimp only at hok ⊢
  rw [if_neg (by simp [hheld]), if_neg (by simp [hentry])]
  obtain h | ⟨h, h'⟩ := hok
  · rw [h, if_neg (by simp), if_neg (by simp)]
  · rw [if_neg (by rw [Bool.and_assoc, h]; simp), if_neg (by simp [h'])]

theorem State.jimage_mapJImage_self (s : State) (i : Nat) (f : JImage → JImage) :
    (s.mapJImage i f).jimage i = f (s.jimage i) := by
  simp [State.jimage, State.mapJImage]

theorem State.jimage_mapJImage_ne (s : State) (i : Nat) (f : JImage → JImage) {k : Nat} (h : k ≠ i) :
    (s.mapJImage i f).jimage k = s.jimage k := by
  simp [State.jimage, State.mapJImage, Sparse.get_set_ne _ _ _ _ h]

/-- Settles O11: a post changes the filling record of one image; READ copies an entry to its data registers, and WRITE
holds the data registers for the commit. -/
theorem postsAndStaging : Obligations.PostsAndStaging := by
  unfold Obligations.PostsAndStaging
  refine ⟨?postLen, ?post, ?postRej, ?dscRead, ?imgRead, ?prmRead, ?dscWrite, ?imgWrite, ?prmWrite, ?imgRej⟩
  case postLen => exact fun m v s hw => exec_writeCmd_eq hw rfl rfl
  case post =>
    intro m v s hw i len hunc hin hloc hprod hlen hside
    have hi : fld v 0 10 = i := fld_low_ten v
    refine ⟨_, exec_writeCmd hw rfl, ?_⟩
    have hpost : s.jnrPost m v = s.mapJImage i fun x =>
        { x with filling := { fresh := !bit v 11, lost := bit v 11, supplyInv := bit v 12, len := len } } := by
      rw [State.jnrPost, hi, State.postImage, if_neg, if_neg (by simp [hside])]
      · rfl
      · have hl : s.postLen m ≤ s.imgLen i := hlen
        simp [hunc, hin, hloc, hprod, Nat.not_lt.mpr hl]
    rw [hpost]
    obtain ⟨f, hf⟩ : ∃ f : JImage → JImage, f = fun x =>
        { x with filling := { fresh := !bit v 11, lost := bit v 11, supplyInv := bit v 12, len := len } } := ⟨_, rfl⟩
    rw [← hf]
    have himage : ((s.mapJImage i f).respond m 0 false).jimage i = f (s.jimage i) := s.jimage_mapJImage_self i f
    rw [himage]
    exact ⟨by rw [hf], by rw [hf], by rw [hf], fun k hk => s.jimage_mapJImage_ne i f hk, rfl⟩
  case postRej =>
    intro m v s hw hprod
    refine exec_writeCmd_eq hw rfl ?_
    rw [State.jnrPost, State.postImage, fld_low_ten, if_pos (by simp [hprod])]
    rfl
  case dscRead =>
    intro m s hw i hecc
    obtain ⟨hdata, hregs, hframe⟩ := State.stageRead_spec (s := s) (t := .dsc) rfl hecc
    have hoff : JTable.dataOff .dsc = 0x30020 := rfl
    have hwords : JTable.words .dsc = 8 := rfl
    have hidx : s.stageIdx .dsc = i := rfl
    rw [hoff, hwords, hidx] at hdata
    rw [hoff, hwords] at hregs
    refine ⟨_, exec_writeCmd hw rfl, fun k hk => (State.reg_respond ..).trans (hdata k hk),
      fun off hoff => (State.reg_respond ..).trans (hregs off hoff), ?_⟩
    rw [hframe]
    rfl
  case imgRead =>
    intro m s hw i hecc
    obtain ⟨hdata, hregs, hframe⟩ := State.stageRead_spec (s := s) (t := .img) rfl hecc
    have hoff : JTable.dataOff .img = 0x30060 := rfl
    have hwords : JTable.words .img = 16 := rfl
    have hidx : s.stageIdx .img = i := rfl
    rw [hoff, hwords, hidx] at hdata
    rw [hoff, hwords] at hregs
    refine ⟨_, exec_writeCmd hw rfl, fun k hk => (State.reg_respond ..).trans (hdata k hk),
      fun off hoff => (State.reg_respond ..).trans (hregs off hoff), ?_⟩
    rw [hframe]
    rfl
  case prmRead =>
    intro m s hw i hi hecc
    have hentry : JTable.hasEntry .prm (s.stageIdx .prm) = true := by
      have hlt : i < 4096 := fld_lt _ 0 12
      exact decide_eq_true (show i < 4095 by omega)
    obtain ⟨hdata, hregs, hframe⟩ := State.stageRead_spec (s := s) (t := .prm) hentry hecc
    have hoff : JTable.dataOff .prm = 0x300A0 := rfl
    have hwords : JTable.words .prm = 16 := rfl
    have hidx : s.stageIdx .prm = i := rfl
    rw [hoff, hwords, hidx] at hdata
    rw [hoff, hwords] at hregs
    refine ⟨_, exec_writeCmd hw rfl, fun k hk => (State.reg_respond ..).trans (hdata k hk),
      fun off hoff => (State.reg_respond ..).trans (hregs off hoff), ?_⟩
    rw [hframe]
    rfl
  case dscWrite =>
    intro m s hw hheld w d hok
    refine exec_writeCmd_eq hw rfl ?_
    rw [State.stageWrite_free (t := .dsc) hheld rfl]
    · rfl
    · right
      change (d.en && (s.imgUnc d.srcImg || s.imgUnc d.dstImg)) = false ∧ s.descOk d = true
      rcases hok with h | ⟨h1, h2, h3⟩
      · exact ⟨by rw [h, Bool.false_and], by rw [State.descOk, h]; rfl⟩
      · exact ⟨by rw [h1, h2, Bool.or_false, Bool.and_false], h3⟩
  case imgWrite =>
    intro m s hw hheld
    refine exec_writeCmd_eq hw rfl ?_
    rw [State.stageWrite_free (t := .img) hheld rfl (.inl rfl)]
    rfl
  case prmWrite =>
    intro m s hw hheld hi
    refine exec_writeCmd_eq hw rfl ?_
    have hlt : fld (s.reg 0x30080) 0 12 < 4096 := fld_lt _ 0 12
    rw [State.stageWrite_free (t := .prm) hheld (decide_eq_true (show fld (s.reg 0x30080) 0 12 < 4095 by omega)) (.inl rfl)]
    rfl
  case imgRej =>
    intro m s hw hheld
    refine exec_writeCmd_eq hw rfl ?_
    rw [State.stageWrite, if_pos (show (s.jnr.held .img).isSome = true from Option.isSome_iff_ne_none.mpr hheld)]
    rfl

end Sys2Proof.Machine
end

section
set_option Elab.async false
/-! PROOFS. Frames: an operation stays within a scope where it changes no part of the state outside it. The scope of a
composition is that of its steps. -/

namespace Sys2Proof.Machine

open Sys2Proof

/-- A set of parts of the state, as the function that takes them from a second state. -/
structure Scope where
  into : State → State → State
  self : ∀ s, into s s = s
  overwrite : ∀ s t u, into (into s t) u = into s u

/-- `t` differs from `s` within a scope at most. -/
def State.Within (F : Scope) (s t : State) : Prop := t = F.into s t

section

variable {F : Scope} {s t u : State}

theorem State.Within.refl : State.Within F s s := (F.self s).symm

theorem State.Within.trans (h : State.Within F s t) (h' : State.Within F t u) : State.Within F s u :=
  calc
    u = F.into t u := h'
    _ = F.into (F.into s t) u := congrArg (F.into · u) h
    _ = F.into s u := F.overwrite s t u

theorem State.Within.ite {c : Prop} [Decidable c] (ht : State.Within F s t) (hu : State.Within F s u) :
    State.Within F s (if c then t else u) := by split <;> assumption

theorem State.Within.foldl {α : Type} {f : State → α → State} (h : ∀ s a, State.Within F s (f s a)) (as : List α) (s : State) :
    State.Within F s (as.foldl f s) := by
  induction as generalizing s with
  | nil => exact .refl
  | cons a as ih => exact (h s a).trans (ih (f s a))

end

end Sys2Proof.Machine
end

section
set_option Elab.async false
/-! PROOFS. The egress side of the fabric: what each operation changes, and frames that leave (R126, R139 to R148, R170). -/

namespace Sys2Proof.Machine

open Sys2Proof

/-! ## Scopes of the fabric -/

/-- The fabric, the MACs and the event registers. -/
def fabric : Scope where
  into s t := { s with swf := t.swf, mac := t.mac, regs := t.regs, fresh := t.fresh }
  self _ := rfl
  overwrite _ _ _ := rfl

section

variable {s : State}

theorem State.within_mapSwf (f : Switch → Switch) : State.Within fabric s (s.mapSwf f) := rfl

theorem State.within_raise (off i : Nat) : State.Within fabric s (s.raise off i) := rfl

theorem State.within_raiseIf (c : Bool) (off i : Nat) : State.Within fabric s (s.raiseIf c off i) := by cases c <;> rfl

theorem State.within_tsPush (g : Fin 16) (e : TsEntry) : State.Within fabric s (s.tsPush g e) := by
  rw [State.tsPush]
  split <;> rfl

/-! ## Frames by identifier -/

theorem State.frame?_id {id : Nat} {f : Frame} (h : s.frame? id = some f) : f.id = id := by
  simpa using List.find?_some h

/-- The frame of an identifier after a change of the frames of that identifier that keeps it. -/
theorem State.frame?_mapFrame {id : Nat} {f : Frame} {g : Frame → Frame} (h : s.frame? id = some f)
    (hg : ∀ x, (g x).id = x.id) : (s.mapFrame id g).frame? id = some (g f) := by
  have hf := State.frame?_id h
  rw [State.frame?] at h ⊢
  simp only [State.mapFrame, State.mapSwf, List.find?_map]
  have hsame : ((fun x : Frame => x.id == id) ∘ fun x => if x.id == id then g x else x) = fun x => x.id == id := by
    funext x
    by_cases hx : x.id = id <;> simp [hx, hg]
  rw [hsame, h]
  simp [hf]

theorem State.frame?_freeFrame (f : Frame) : (s.freeFrame f).frame? f.id = none := by
  simp [State.freeFrame, State.frame?, State.mapSwf]

/-- The last port is done with a frame whose verdict is known: its cells return (R126). -/
theorem State.doneWith_last {id e : Nat} {f : Frame} {v : Nat} (h : s.frame? id = some f) (hv : f.verdict = some v)
    (hneeds : f.needs = [e]) :
    (s.doneWith id e).frame? id = none ∧ (s.doneWith id e).swf.free = s.swf.free + f.cellsRes + f.cellsPool := by
  have hf := State.frame?_id h
  have hmap := State.frame?_mapFrame (g := fun f => { f with needs := f.needs.filter (· != e) }) h fun _ => rfl
  rw [State.doneWith, State.releaseFrame, hmap]
  simp only [hv, hneeds, Option.isSome_some, List.filter_cons, bne_self_eq_false, Bool.false_eq_true, if_false,
    List.filter_nil, List.isEmpty_nil, Bool.and_self, if_true]
  constructor
  · have := State.frame?_freeFrame (s := s.mapFrame id fun f => { f with needs := f.needs.filter (· != e) })
      { f with needs := [] }
    exact hf ▸ this
  · rfl

theorem State.within_doneWith (id e : Nat) : State.Within fabric s (s.doneWith id e) := by
  rw [State.doneWith, State.releaseFrame]
  split
  · split <;> rfl
  · rfl

/-- What a port is done with changes frames, cells and reserves, no port and no register. -/
theorem State.doneWith_frame (id e : Nat) : s.doneWith id e = { s with swf := { s.swf with
    frames := (s.doneWith id e).swf.frames, free := (s.doneWith id e).swf.free, resUsed := (s.doneWith id e).swf.resUsed } } := by
  rw [State.doneWith, State.releaseFrame]
  split
  · split <;> rfl
  · rfl

/-! ## The start and the end of a frame -/

/-- Frames and a port's record as a frame begins to leave: a stamp may enter its group's FIFO (R172). -/
theorem State.beginFrame_swf (p : PortId) (id : Nat) :
    (s.beginFrame p id).swf = (s.mapEgress p fun x => { x with
      sending := some id, delivered := false
      startTod := if p.val = 10 then s.time.stamp 0
        else s.laneStamp 0 (s.laneLatency s.mac.ports[p].rate.toNat (macD s.mac.ports[p].rate.toNat true) 0) }).swf := by
  have hpush : ∀ (t : State) (g : Fin 16) (e : TsEntry), (t.tsPush g e).swf = t.swf := fun t g e => by
    rw [State.tsPush]
    split <;> rfl
  unfold State.beginFrame
  extract_lets mode t x
  split
  · split
    · split
      · exact hpush _ _ _
      · rfl
    · rfl
  · rfl

theorem State.beginFrame_frame (p : PortId) (id : Nat) : s.beginFrame p id = { s with
    swf := { s.swf with ports := (s.beginFrame p id).swf.ports }
    mac := { s.mac with groups := (s.beginFrame p id).mac.groups }
    regs := (s.beginFrame p id).regs, fresh := (s.beginFrame p id).fresh } := by
  have hpush : ∀ (t : State) (g : Fin 16) (e : TsEntry), t.tsPush g e = { t with
      mac := { t.mac with groups := (t.tsPush g e).mac.groups }, regs := (t.tsPush g e).regs
      fresh := (t.tsPush g e).fresh } := fun t g e => by
    rw [State.tsPush]
    split <;> rfl
  unfold State.beginFrame
  extract_lets mode t x
  split
  · split
    · split
      · rw [hpush]
        rfl
      · rfl
    · rfl
  · rfl

end

section

variable {s : State} {p : PortId}

/-- The highest eligible queue is the best (R143). -/
theorem State.bestQueue_of_highest {q : Fin 8} {id : Nat} (hq : s.eligible p q = some id)
    (hhigh : ∀ k : Fin 8, q < k → s.eligible p k = none) : s.bestQueue p = some (q, id) := by
  have hsplit : ∀ q : Fin 8, (finList 8).reverse = (finList 8).reverse.take (7 - q.val) ++ q :: (finList 8).reverse.drop (8 - q.val) ∧
      ∀ k ∈ (finList 8).reverse.take (7 - q.val), q < k := by decide
  obtain ⟨hlist, hbefore⟩ := hsplit q
  rw [State.bestQueue, List.findSome?_eq_some_iff]
  exact ⟨_, q, _, hlist, by rw [hq]; rfl, fun k hk => by rw [hhigh k (hbefore k hk)]; rfl⟩

theorem State.canSend_of (h : p.val = 10 ∨ (s.mac.ports[p].up = true ∧ bit (s.reg (macOff p.val)) 5 = true)) :
    s.canSend p = true := by
  rcases h with h | ⟨hup, hen⟩
  · simp [State.canSend, h]
  · simp [-Fin.getElem_fin, State.canSend, State.rbit, hup, hen]

end

/-- A preemptable frame in transmission may be put aside; the rest of its port and the other ports stay. -/
theorem State.holdPreemptable_spec (s : State) (p : PortId) :
    let t := s.holdPreemptable p
    t.swf.ports[p].gateIdx = s.swf.ports[p].gateIdx ∧ t.swf.ports[p].gateFrom = s.swf.ports[p].gateFrom ∧
      t.swf.ports[p].queues = s.swf.ports[p].queues ∧ (∀ e : PortId, e ≠ p → t.swf.ports[e] = s.swf.ports[e]) ∧
      t = { s with swf := { s.swf with ports := t.swf.ports } } := by
  rw [State.holdPreemptable]
  split
  · split
    · refine ⟨?_, ?_, ?_, fun e he => ?_, rfl⟩
      case _ | _ | _ => simp only [State.mapEgress, State.mapSwf, upd_self]
      exact upd_ne _ _ he
    · exact ⟨rfl, rfl, rfl, fun _ _ => rfl, rfl⟩
  · exact ⟨rfl, rfl, rfl, fun _ _ => rfl, rfl⟩

/-- What begins to leave after a change of the queues of its port. -/
theorem State.beginFrame_mapEgress (s : State) (p : PortId) (id : Nat) (f : Egress → Egress) :
    let t := (s.mapEgress p f).beginFrame p id
    t.swf.ports[p].sending = some id ∧ t.swf.ports[p].queues = (f s.swf.ports[p]).queues ∧
      t.swf.ports[p].handed = (f s.swf.ports[p]).handed ∧ t.swf.ports[p].delivered = false ∧
      t.swf.ports[p].preempted = (f s.swf.ports[p]).preempted ∧ (p.val = 10 → t.swf.ports[p].startTod = s.time.stamp 0) ∧
      (∀ e : PortId, e ≠ p → t.swf.ports[e] = s.swf.ports[e]) ∧ t.swf.frames = s.swf.frames ∧
      t = { s with
        swf := { s.swf with ports := t.swf.ports }, mac := { s.mac with groups := t.mac.groups }, regs := t.regs,
        fresh := t.fresh } := by
  intro t
  have hports : t.swf.ports = _ := congrArg Switch.ports (State.beginFrame_swf (s := s.mapEgress p f) p id)
  have hframe : t = _ := State.beginFrame_frame (s := s.mapEgress p f) p id
  have hself : t.swf.ports[p] = { f s.swf.ports[p] with
      sending := some id, delivered := false
      startTod := if p.val = 10 then s.time.stamp 0
        else s.laneStamp 0 (s.laneLatency s.mac.ports[p].rate.toNat (macD s.mac.ports[p].rate.toNat true) 0) } := by
    rw [hports]
    simp only [State.mapEgress, State.mapSwf, upd_self]
    rfl
  refine ⟨by rw [hself], by rw [hself], by rw [hself], by rw [hself], by rw [hself], fun h => by rw [hself]; exact if_pos h,
    fun e he => ?_, ?_, hframe⟩
  · rw [hports]
    simp only [State.mapEgress, State.mapSwf]
    rw [upd_ne _ _ he, upd_ne _ _ he]
  · rw [hframe]
    rfl

/-- Settles O13: frames leave by hand-over or by the best queue and end with their own FCS or the stomp code; gate lists
advance and a pause ends. -/
theorem framesLeave : Obligations.FramesLeave := by
  unfold Obligations.FramesLeave
  refine ⟨?fromQueue, ?handed, ?ends, ?underrun, ?gate, ?pause⟩
  case fromQueue =>
    intro p q id s hon hsend hhanded hfree hpause hq hhigh
    refine ⟨_, exec_alive hon rfl, ?_⟩
    have hstart : s.egressStart p =
        (s.mapEgress p fun x => { x with queues := upd x.queues q (fun l => l.drop 1) }).beginFrame p id := by
      have hcan := State.canSend_of hsend
      simp [-Fin.getElem_fin, State.egressStart, hcan, hhanded, hfree, hpause, State.bestQueue_of_highest hq hhigh]
    rw [hstart]
    obtain ⟨hsending, hqueues, -, hdelivered, hpreempted, hstamp, hothers, hframes, hframe⟩ :=
      s.beginFrame_mapEgress p id fun x => { x with queues := upd x.queues q (fun l => l.drop 1) }
    exact ⟨hsending, hqueues, hdelivered, hpreempted, hstamp, hothers, hframes, hframe⟩
  case handed =>
    intro p id r s hon hsend hhanded hfree
    refine ⟨_, exec_alive hon rfl, ?_⟩
    have hstart : s.egressStart p = (s.mapEgress p fun x => { x with handed := r }).beginFrame p id := by
      have hcan := State.canSend_of hsend
      simp [-Fin.getElem_fin, State.egressStart, hcan, hhanded, hfree]
    rw [hstart]
    obtain ⟨hsending, hqueues, hrest, -, -, -, hothers, -, hframe⟩ :=
      s.beginFrame_mapEgress p id fun x => { x with handed := r }
    exact ⟨hsending, hrest, hqueues, hothers, hframe⟩
  case ends =>
    intro p id v f s hon hp hsending hf hv body tail
    refine ⟨_, exec_alive hon rfl, ?_⟩
    have hbody : s.egressBody f p.val s.swf.ports[p].startTod = body := rfl
    have htail : tail = if decide (0x20 ≤ v) = true then stompBytes body else fcsBytes body := by
      by_cases h : v < 0x20 <;> simp [tail, h, Nat.not_lt.mp, Nat.not_le.mpr]
    have hend : s.egressEnd p = (((s.mapEgress p fun x => { x with sending := none, wire := body ++ tail }).macStat
        p.val 3).raiseIf (decide (0x20 ≤ v)) (macOff p.val + 2) 6).doneWith f.id p.val := by
      have hlane : s.egressEnd p = s.endAtLane p f v := by
        simp [-Fin.getElem_fin, State.egressEnd, hsending, hf, hv, Nat.ne_of_lt hp]
      rw [hlane, htail]
      rfl
    rw [hend]
    refine ⟨?_, ?_, fun hneeds => ?_, fun off hoff => ?_, ?_⟩
    · rw [State.doneWith_frame, State.raiseIf_frame]
      rfl
    · rw [State.doneWith_frame]
      refine (State.reg_raiseIf_self _ _ _ _).trans ?_
      rw [State.macStat, State.reg_raise_self]
      by_cases h : v < 0x20
      · rw [if_neg (by simpa using h), if_pos h]
        exact (BitVec.or_zero).symm
      · rw [if_pos (by simpa using h), if_neg h]
        rfl
    · rw [← State.frame?_id hf] at hf
      have hlast := State.doneWith_last (e := p.val)
        (s := ((s.mapEgress p fun x => { x with sending := none, wire := body ++ tail }).macStat p.val 3).raiseIf
          (decide (0x20 ≤ v)) (macOff p.val + 2) 6) (by rw [State.raiseIf_frame]; exact hf) hv hneeds
      refine ⟨hlast.1, hlast.2.trans ?_⟩
      rw [State.raiseIf_frame]
      rfl
    · rw [State.doneWith_frame]
      exact (State.reg_raiseIf_ne _ _ _ hoff).trans (State.reg_raise_ne _ 3 hoff)
    · rw [State.doneWith_frame, State.raiseIf_frame]
      rfl
  case underrun =>
    intro p id f s hon hp hsending hf hv hingress body
    refine ⟨_, exec_alive hon rfl, ?_⟩
    have hend : s.underrun p = (((s.mapEgress p fun x => { x with
        sending := none, wire := body ++ stompBytes body }).macStat p.val 4).macStat p.val 6).doneWith f.id p.val := by
      simp [-Fin.getElem_fin, State.underrun, hsending, hf, hv, Nat.ne_of_lt hp, hingress, body]
    rw [hend, State.doneWith_frame]
    refine ⟨rfl, ?_, fun off hoff => ?_, rfl⟩
    · refine (State.reg_raise_self _ _ _).trans ?_
      rw [State.macStat, State.reg_raise_self]
      rfl
    · exact (State.reg_raise_ne _ 6 hoff).trans (State.reg_raise_ne _ 4 hoff)
  case gate =>
    intro p s hon hrun hp x g hlast hidx hdue
    refine ⟨_, exec_alive hon rfl, ?_⟩
    have hnext : s.gateNext p = ((s.until (x.gateFrom + g.dur)).mapEgress p fun y => { y with
        gateIdx := y.gateIdx + 1, gateFrom := x.gateFrom + g.dur }).holdPreemptable p := by
      have hcond : (s.tick.running && p.val != 10 && !g.last && decide (x.gateIdx < 63) &&
          decide (x.gateFrom + g.dur < s.tick.tBeat + s.tick.pk)) = true := by
        simp [hrun, Nat.ne_of_lt hp, hlast, hidx, hdue]
      exact if_pos hcond
    obtain ⟨hidx', hfrom, hqueues, hothers, hframe⟩ := State.holdPreemptable_spec
      ((s.until (x.gateFrom + g.dur)).mapEgress p fun y => { y with
        gateIdx := y.gateIdx + 1, gateFrom := x.gateFrom + g.dur }) p
    have hports : ((s.until (x.gateFrom + g.dur)).mapEgress p fun y => { y with
        gateIdx := y.gateIdx + 1, gateFrom := x.gateFrom + g.dur }).swf.ports =
        upd s.swf.ports p fun y => { y with gateIdx := y.gateIdx + 1, gateFrom := x.gateFrom + g.dur } := by
      rw [State.until_frame]
      rfl
    rw [hports, upd_self] at hidx' hfrom hqueues
    rw [hnext]
    refine ⟨?_, hidx', hfrom, hqueues, fun e he => ?_, ?_⟩
    · rw [hframe, State.until_frame]
      exact add_sub_eq_max _ _
    · rw [hothers e he, hports, upd_ne _ _ he]
    · rw [hframe, State.until_frame]
      rfl
  case pause =>
    intro p e s hon hend
    refine ⟨_, exec_alive hon rfl, ?_⟩
    have hends : s.pauseEnds p = (s.until e).mapEgress p fun x => { x with pauseEnd := none } := by
      simp [-Fin.getElem_fin, State.pauseEnds, hend]
    rw [hends, State.until_frame]
    refine ⟨by simp [State.mapEgress, State.mapSwf], ?_, rfl, rfl⟩
    simp [-Fin.getElem_fin, State.paused, State.mapEgress, State.mapSwf]

end Sys2Proof.Machine
end

section
set_option Elab.async false
/-! PROOFS. Traps of a hearth (R292, R308, R309, R336). -/

namespace Sys2Proof.Machine

open Sys2Proof

section

variable {s u : State} {h : HearthId} {l : List Byte}

theorem State.hearthGoes_of (hst : s.hearth[h].st = .running) (hstall : s.hearth[h].stall = none) : s.hearthGoes h = true := by
  simp [-Fin.getElem_fin, State.hearthGoes, hst, hstall]

/-- Fetched bytes that are no instruction trap at PC. -/
theorem exec_illegalOpcode {e : DErr} {v : Nat} (hon : s.on) (hst : s.hearth[h].st = .running)
    (hstall : s.hearth[h].stall = none) (hfetch : s.fetchInstr h = (u, .ok l)) (hdec : u.hdec h l = .error e)
    (hv : v = match e with | .illegal => 0 | .illpfx => 1) :
    exec (.illegalOpcode h) s = .next (u.takeTrap h v 0 s.hearth[h].pc) := by
  have hgo := State.hearthGoes_of hst hstall
  have hbad : s.hearthBad h = u.takeTrap h v 0 s.hearth[h].pc := by
    cases e <;> simp [-Fin.getElem_fin, State.hearthBad, State.hearthRun, hgo, hfetch, hdec, hv]
  exact (exec_alive hon rfl).trans (congrArg _ hbad)

/-- No byte can be fetched outside bank memory and the bench (R292). -/
theorem State.fetchByte_outside {o : Nat} (hpage : 0x100 ≤ s.hearth[h].pcode.toNat)
    (hout : s.hearth[h].pcode.toNat ≠ 0x3FF ∨ 0x4000 ≤ o) :
    s.fetchByte h o = (s, .error (.trap 5 (s.hearth[h].pcode.toNat * 65536 + o))) := by
  rw [State.fetchByte]
  rcases hout with hne | ho
  · simp [-Fin.getElem_fin, hne, hpage]
  · by_cases hbench : s.hearth[h].pcode.toNat = 0x3FF <;> simp [-Fin.getElem_fin, hbench, ho, hpage]

end

/-- Settles O39: bytes that are no instruction, and a fetch outside memory, trap at PC; a trap saves where it stands, and in a
handler it halts the hearth. -/
theorem hearthTraps : Obligations.HearthTraps := by
  unfold Obligations.HearthTraps
  refine ⟨?illegal, ?prefixes, ?fetch, ?entry, ?double⟩
  case illegal => exact fun h l u s hon hst hstall hfetch hdec => exec_illegalOpcode hon hst hstall hfetch hdec rfl
  case prefixes => exact fun h l u s hon hst hstall hfetch hdec => exec_illegalOpcode hon hst hstall hfetch hdec rfl
  case fetch =>
    intro h s hon hst hstall hrep x page hpage hout
    have hgo := State.hearthGoes_of hst hstall
    have hfetch : s.fetchInstr h = (s, .error (.trap 5 (page * 65536 + x.pc.toNat))) := by
      have hbyte := State.fetchByte_outside (s := s) (h := h) (o := x.pc.toNat) hpage hout
      have hneed : ¬needLen (s.ciEntry h) [] ≤ ([] : List Byte).length := by simp [needLen]
      have hpc : (s.hearth[h].pc.toNat + ([] : List Byte).length) % 65536 = x.pc.toNat := Nat.mod_eq_of_lt x.pc.isLt
      rw [State.fetchInstr, if_neg (not_not_intro hrep), State.fetchMore, if_neg hneed, hpc, hbyte]
      rfl
    have hbad : s.hearthBad h = s.takeTrap h 5 (page * 65536 + x.pc.toNat) x.pc := by
      simp [-Fin.getElem_fin, State.hearthBad, State.hearthRun, hgo, hfetch, State.hstop, x]
    exact (exec_alive hon rfl).trans (congrArg _ hbad)
  case entry =>
    intro h v info pc s hv x
    have hgo : ¬(s.hearth[h].tact = true ∧ v ≠ 7) := by
      rcases hv with hfl | hv
      · simp [-Fin.getElem_fin, Hearth.tact, hfl]
      · simp [hv]
    have hinfo : wordOf info 0 = BitVec.ofNat 16 info := by simp [wordOf]
    rw [State.takeTrap, if_neg hgo, hinfo]
    rfl
  case double =>
    intro h v info pc s hfl hv t
    have ht : t = (s.haltHearth h).hrtEvent h 0 := if_pos ⟨hfl, hv⟩
    rw [ht]
    exact ⟨(s.haltHearth h).reg_raise_self _ 0, fun off hoff => (s.haltHearth h).reg_raise_ne 0 hoff, rfl⟩

end Sys2Proof.Machine
end

section
set_option Elab.async false
/-! PROOFS. Customer instructions (R338 to R341): what the decoder gives of one, and its micro-operations. -/

namespace Sys2Proof.Machine

open Sys2Proof

section

variable {s u v : State} {h : HearthId} {l : List Byte} {i : HInstr} {k : Nat} {a b : Option Reg} {imm : Option Word}

/-- Only the opcodes of customer instructions have their operands (R338). -/
theorem op_of_customer (hs : s.hearthAt h l u i) (hform : i.form = .customer k a b imm) : i.op = .custom := by
  obtain ⟨-, -, -, -, hd⟩ := hs
  obtain ⟨⟨b, r, hb⟩, -⟩ := hdecode_ok hd
  exact customerOnly_decodeBody _ _ _ _ _ hb (by rw [hform]; rfl)

/-- What a sequence begins with. -/
def Held'.initial (fl : Word) : Held' := { t := [0, 0, 0, 0], fl := fl, wrote := false, a := none, b := none }

theorem hexec_customer (hs : s.hearthAt h l u i) (hform : i.form = .customer k a b imm) :
    u.hexec h i = u.runUops h i.pre a b imm (.initial u.hearth[h].fl) (fld (u.reg (hrtOff h.val + 0x100 + 2 * k)) 0 9) 64 := by
  have hx : u.hexec h i = u.doCustomer h i := by simp only [State.hexec, op_of_customer hs hform]
  rw [hx, State.doCustomer, hform]
  rfl

/-- One iteration of an instruction that leaves the state as `v` and its hearth as `y`. -/
theorem runInstr_after {y : Hearth} (hit : i.iterates u.hearth[h]) (htrap : i.op ≠ .trap)
    (hx : u.hexec h i = v.commit h fun _ => y) (hpc : y.pc = u.hearth[h].pc) : u.runInstr h l i = v.ran h l i y := by
  by_cases hrep : i.pre.rep = .once
  · simp [State.runInstr, htrap, hrep, hx, State.commit, State.retire, State.mapHearth, upd, hpc, ran_once]
  · have hcnt : u.hearth[h].cnt ≠ 0 := hit.resolve_left hrep
    simp only [State.runInstr, htrap, hrep, hcnt, hx, State.commit, and_false, if_false, ran_repeated hrep]
    simp only [Hearth.iterated, State.retire, State.mapHearth, upd, Fin.getElem_fin, Vector.getElem_set_self,
      Vector.set_set, hpc]
    split <;> rfl

theorem exec_after {y : Hearth} (hs : s.hearthAt h l u i) (hit : i.iterates u.hearth[h]) (htrap : i.op ≠ .trap)
    (hx : u.hexec h i = v.commit h fun _ => y) (hpc : y.pc = u.hearth[h].pc) :
    exec (hearthCmd h i.op) s = .next (v.ran h l i y) := by
  rw [exec_of_hearthAt hs, runInstr_after hit htrap hx hpc]

theorem exec_customer_commit {y : Hearth} (hs : s.hearthAt h l u i) (hit : i.iterates u.hearth[h])
    (hform : i.form = .customer k a b imm) (hpc : y.pc = u.hearth[h].pc)
    (hx : u.hexec h i = v.commit h fun _ => y) : exec (.customerInstruction h) s = .next (v.ran h l i y) := by
  have hop := op_of_customer hs hform
  have hexec := exec_after hs hit (by simp [hop]) hx hpc
  rwa [hop] at hexec

theorem exec_customer_trap {n info : Nat} (hs : s.hearthAt h l u i) (hit : i.iterates u.hearth[h])
    (hform : i.form = .customer k a b imm) (hx : u.hexec h i = (u, .error (.trap n info))) :
    exec (.customerInstruction h) s = .next (u.takeTrap h n info u.hearth[h].pc) := by
  have hop := op_of_customer hs hform
  have hexec := exec_trap hs hit (by simp [hop]) hx
  rwa [hop] at hexec

/-- At END the held result of A is written, where nothing else is held (R341). -/
theorem State.commitHeldOps_a (r : Reg) (b : Option Reg) {t : Held'} {w : Word} (ha : t.a = some w) (hb : t.b = none) :
    u.commitHeldOps h (some r) b t = u.commit h fun _ =>
      if t.wrote then { u.hearth[h].put r w with fl := merge 0x002F u.hearth[h].fl t.fl } else u.hearth[h].put r w := by
  rw [State.commitHeldOps, commit_const]
  cases b <;> simp [ha, hb]

/-- How a sequence goes on after a micro-operation: to END, or to the next one (R341). -/
def State.uopThen (s : State) (h : HearthId) (p : Prefixes) (a b : Option Reg) (imm : Option Word) (t : Held') (n f : Nat)
    (last : Bool) : HRes HNext :=
  if last then s.commitHeldOps h a b t
  else if n = 511 then (s, .error (.trap 9 511))
  else s.runUops h p a b imm t (n + 1) f

section

variable {p : Prefixes} {t : Held'} {n f dst op : Nat} {v1 v2 w0 : Word}

/-- Whether a micro-operation can be carried out: its words hold no double error, its destination exists and its sources
have the values `v1` and `v2` (R339, R341). -/
structure Hearth.UopReady (x : Hearth) (a b : Option Reg) (imm : Option Word) (t : Held') (n : Nat) (v1 v2 : Word) : Prop where
  words : ∀ j, j < 3 → Sparse.get 0 x.uopEcc (3 * n + j) ≠ 2
  dest : (fld (x.uop n 0) 5 3 = 0 → a.isSome = true) ∧ (fld (x.uop n 0) 5 3 = 1 → b.isSome = true)
  src1 : (if usesSrc1 (fld (x.uop n 0) 0 5) (fld (x.uop n 2) 9 3) then uopSrc x a b imm t (fld (x.uop n 0) 8 3) else some 0) =
    some v1
  src2 : (if usesSrc2 (fld (x.uop n 0) 0 5) then uopSrc x a b imm t (fld (x.uop n 0) 11 3) else some 0) = some v2

theorem Hearth.UopReady.words_ok {x : Hearth} (hr : x.UopReady a b imm t n v1 v2) :
    ((List.range 3).any (fun k => Sparse.get 0 x.uopEcc (3 * n + k) == 2)) = false := by
  rw [List.any_eq_false]
  exact fun k hk => by simpa using hr.words k (List.mem_range.mp hk)

theorem Hearth.UopReady.dest_ok {x : Hearth} (hr : x.UopReady a b imm t n v1 v2) :
    (fld (x.uop n 0) 0 5 != 17 && fld (x.uop n 0) 0 5 != 19 &&
      ((fld (x.uop n 0) 5 3 == 0 && a.isNone) || (fld (x.uop n 0) 5 3 == 1 && b.isNone))) = false := by
  obtain ⟨hda, hdb⟩ := hr.dest
  have ha : (fld (x.uop n 0) 5 3 == 0 && a.isNone) = false := by cases a <;> simp_all
  have hb : (fld (x.uop n 0) 5 3 == 1 && b.isNone) = false := by cases b <;> simp_all
  rw [ha, hb, Bool.or_self, Bool.and_false]

/-- A micro-operation without an access and a branch (R340). -/
theorem runUops_alu (hr : u.hearth[h].UopReady a b imm t n v1 v2) (hop : fld (u.hearth[h].uop n 0) 0 5 ∉ [16, 17, 19]) :
    u.runUops h p a b imm t n (f + 1) = u.uopThen h p a b imm (t.keep (fld (u.hearth[h].uop n 0) 5 3)
      (bit (u.hearth[h].uop n 0) 14) (uopAlu (fld (u.hearth[h].uop n 0) 0 5) (u.hearth[h].uop n 1) v1 v2 (bit t.fl 0)))
      n f (bit (u.hearth[h].uop n 0) 15) := by
  simp only [List.mem_cons, List.not_mem_nil, or_false, not_or] at hop
  obtain ⟨h16, h17, h19⟩ := hop
  rw [State.runUops]
  dsimp only
  rw [hr.src1, hr.src2, hr.words_ok, hr.dest_ok]
  simp only [Bool.or_self, Bool.false_eq_true, if_false, h16, h17, h19]
  rfl

theorem usesSrc1_of_ne {op cond : Nat} (h18 : op ≠ 18) (h19 : op ≠ 19) : usesSrc1 op cond = true := by
  simp [usesSrc1, h18, h19]

/-- The micro-operations of the chapter's examples (R340). -/
theorem uopAlu_eq (k p q : Word) (c : Bool) :
    uopAlu 1 k p q c = aluAdd 16 p.toNat q.toNat false ∧ uopAlu 5 k p q c = aluLogic 16 (p.toNat &&& q.toNat) ∧
      uopAlu 20 k p q c = aluOther (uopExt k p) ∧
      uopAlu 24 k p q c = aluOther (if p.toInt ≤ q.toInt then p.toNat else q.toNat) ∧
      uopAlu 27 k p q c = aluOther (min p.toNat q.toNat) ∧ uopAlu 28 k p q c = aluOther (max p.toNat q.toNat) :=
  ⟨rfl, rfl, rfl, rfl, rfl, rfl⟩

/-- A double error, a missing destination or a missing source (R339, R341). -/
theorem runUops_fault (hf : ¬(∀ j, j < 3 → Sparse.get 0 u.hearth[h].uopEcc (3 * n + j) ≠ 2) ∨
    (fld (u.hearth[h].uop n 0) 0 5 ∉ [17, 19] ∧ fld (u.hearth[h].uop n 0) 5 3 = 0 ∧ a = none) ∨
    (usesSrc1 (fld (u.hearth[h].uop n 0) 0 5) (fld (u.hearth[h].uop n 2) 9 3) = true ∧
      uopSrc u.hearth[h] a b imm t (fld (u.hearth[h].uop n 0) 8 3) = none)) :
    u.runUops h p a b imm t n (f + 1) = (u, .error (.trap 9 n)) := by
  rw [State.runUops]
  dsimp only
  split
  · rfl
  next hok =>
    simp only [Bool.or_eq_true, not_or] at hok
    obtain ⟨hwords, hdest⟩ := hok
    rcases hf with hbad | ⟨hop, hdst, rfl⟩ | ⟨huse, hnone⟩
    · refine absurd ?_ hbad
      rw [Bool.not_eq_true, List.any_eq_false] at hwords
      exact fun j hj => by simpa using hwords j (List.mem_range.mpr hj)
    · refine absurd ?_ hdest
      simp only [List.mem_cons, List.not_mem_nil, or_false, not_or] at hop
      obtain ⟨h17, h19⟩ := hop
      rw [hdst, bne_iff_ne.mpr h17, bne_iff_ne.mpr h19]
      rfl
    · rw [if_pos huse, hnone]

/-- A micro-operation that loads a word (R340). -/
theorem runUops_load {m : Nat} (hr : u.hearth[h].UopReady a b imm t n v1 v2) (hop : fld (u.hearth[h].uop n 0) 0 5 = 16)
    (hread : u.readMem h false (u.hearth[h].uopPage p (fld (u.hearth[h].uop n 2) 12 2)) (v1 + u.hearth[h].uop n 1).toNat =
      (v, .ok m)) :
    u.runUops h p a b imm t n (f + 1) = v.uopThen h p a b imm (t.keep (fld (u.hearth[h].uop n 0) 5 3)
      (bit (u.hearth[h].uop n 0) 14) (aluOther m)) n f (bit (u.hearth[h].uop n 0) 15) := by
  rw [State.runUops]
  dsimp only
  rw [hr.src1, hr.src2, hr.words_ok, hr.dest_ok]
  simp only [Bool.or_self, Bool.false_eq_true, if_false, hop, if_true, hread]
  rfl

end

end

/-- A result of 16 bits as a word. -/
theorem word_full (x : Nat) (c v : Bool) : wordOf (Alu.full 16 x c v).val 0 = BitVec.ofNat 16 x := by
  rw [wordOf, Alu.full, Alu.zn]
  exact BitVec.eq_of_toNat_eq (by simp)

theorem min_words (p q : Word) :
    (if p.slt q then p else q) = BitVec.ofNat 16 (if p.toInt ≤ q.toInt then p.toNat else q.toNat) := by
  rcases lt_trichotomy p.toInt q.toInt with hlt | heq | hgt
  · simp [BitVec.slt, hlt, hlt.le]
  · simp [BitVec.eq_of_toInt_eq heq]
  · simp [BitVec.slt, hgt.not_gt, hgt.not_ge]

theorem max_words (p q : Word) : (if p.ult q then q else p) = BitVec.ofNat 16 (max p.toNat q.toNat) := by
  rcases lt_or_ge p.toNat q.toNat with hlt | hge
  · simp [BitVec.ult, hlt, max_eq_right hlt.le]
  · simp [BitVec.ult, hge.not_gt, max_eq_left hge]

/-- Fields of a word from bit 5 up. -/
theorem fld_of_masked {w c : Word} (hw : w &&& 0xFFE0 = c) {lo n : Nat} (hlo : 5 ≤ lo) (hn : lo + n ≤ 16) :
    fld w lo n = fld c lo n := by
  have hmask : ∀ k : Fin 16, 5 ≤ k.val → bit (0xFFE0 : Word) k = true := by decide
  refine fld_congr fun k hk hkn => ?_
  rw [← hw, bit_and, hmask ⟨k, by omega⟩ (by simpa using hlo.trans hk), Bool.and_true]

theorem bit_of_masked {w c : Word} (hw : w &&& 0xFFE0 = c) {k : Nat} (hk : 5 ≤ k) (h16 : k < 16) : bit w k = bit c k := by
  have hmask : ∀ k : Fin 16, 5 ≤ k.val → bit (0xFFE0 : Word) k = true := by decide
  rw [← hw, bit_and, hmask ⟨k, h16⟩ hk, Bool.and_true]

/-- Settles O38: a sequence of one micro-operation, the bit-field fetch of the chapter, and the two UCODE faults. -/
theorem customerInstructions : Obligations.CustomerInstructions := by
  unfold Obligations.CustomerInstructions
  refine ⟨?one, ?bitField, ?noOperand, ?pastEnd⟩
  case one =>
    intro h l u i k a b imm s hs hit hform x n w0 op p q hecc hw0 hop r
    refine exec_customer_commit hs hit hform (Hearth.put_pc ..) ?_
    have hs1 : fld (x.uop n 0) 8 3 = 0 := (fld_of_masked hw0 (by decide) (by decide)).trans (by decide)
    have hs2 : fld (x.uop n 0) 11 3 = 1 := (fld_of_masked hw0 (by decide) (by decide)).trans (by decide)
    have hdst : fld (x.uop n 0) 5 3 = 0 := (fld_of_masked hw0 (by decide) (by decide)).trans (by decide)
    have hflg : bit (x.uop n 0) 14 = false := (bit_of_masked hw0 (by decide) (by decide)).trans (by decide)
    have hend : bit (x.uop n 0) 15 = true := (bit_of_masked hw0 (by decide) (by decide)).trans (by decide)
    have hopn : fld (x.uop n 0) 0 5 = op := rfl
    have huses : ∀ c, usesSrc1 op c = true ∧ usesSrc2 op = true := fun c => by
      rcases hop with hop | hop | hop | hop <;> simp [usesSrc1, usesSrc2, hop]
    have hready : x.UopReady (some a) (some b) imm (.initial x.fl) n p q := by
      refine ⟨hecc, ⟨fun _ => rfl, fun _ => rfl⟩, ?_, ?_⟩
      · rw [hopn, if_pos (huses _).1, hs1]
        rfl
      · rw [hopn, if_pos (huses 0).2, hs2]
        rfl
    have hnot : fld (x.uop n 0) 0 5 ∉ [16, 17, 19] := by
      rw [hopn]
      rcases hop with hop | hop | hop | hop <;> simp [hop]
    have hval : wordOf (uopAlu op (x.uop n 1) p q (bit x.fl 0)).val 0 = r := by
      rcases hop with hop | hop | hop | hop <;> simp only [hop, r, uopAlu_eq, aluAdd, aluLogic, aluOther, word_full]
      · simp [b2n, BitVec.ofNat_add]
      · simp [← BitVec.toNat_and]
      · exact (min_words p q).symm
      · exact (max_words p q).symm
    rw [hexec_customer hs hform, runUops_alu hready hnot, State.uopThen, if_pos hend, hdst, hflg, hopn,
      State.commitHeldOps_a a _ rfl rfl]
    have hput : ∀ w, w = r → u.commit h (fun _ => x.put a w) = u.commit h fun _ => x.put a r := fun w hw => hw ▸ rfl
    exact hput _ hval
  case bitField =>
    intro h l u v i k m a b imm s hs hit hform x hn huops hecc hv hread r
    have huop : ∀ j, j < 9 → x.uop (384 + j / 3) (j % 3) = [0x0170, 0, 0, 0x0394, 0x0073, 0, 0xD41B, 0, 0].getD j 0 :=
      fun j hj => by
        rw [← huops j hj, Hearth.uop]
        congr 1
        omega
    have hvx : v.hearth[h] = x := by rw [hv]
    have hecc' : ∀ n, 384 ≤ n → n < 387 → ∀ j, j < 3 → Sparse.get 0 x.uopEcc (3 * n + j) ≠ 2 := fun n hlo hhi j hj => by
      rw [show 3 * n + j = 0x480 + (3 * n + j - 1152) by omega]
      exact hecc _ (by omega)
    have h384 := huop 0 (by decide)
    have h384' := huop 1 (by decide)
    have h384'' := huop 2 (by decide)
    have h385 := huop 3 (by decide)
    have h385' := huop 4 (by decide)
    have h386 := huop 6 (by decide)
    simp only [Nat.reduceDiv, Nat.reduceMod, Nat.reduceAdd, List.getD_cons_zero, List.getD_cons_succ] at h384 h384' h384'' h385 h385' h386
    have hload : x.UopReady (some a) (some b) (some imm) (.initial x.fl) 384 (x.get b) 0 := by
      refine ⟨hecc' 384 (by omega) (by omega), ⟨fun _ => rfl, fun _ => rfl⟩, ?_, ?_⟩
      · rw [h384]
        exact if_pos (usesSrc1_of_ne (by decide) (by decide))
      · rw [h384]
        exact if_neg (by decide)
    have hext : ∀ t : Held', v.hearth[h].UopReady (some a) (some b) (some imm) t 385 (nthD t.t 0 0) 0 := fun t => by
      rw [hvx]
      refine ⟨hecc' 385 (by omega) (by omega), ⟨fun _ => rfl, fun _ => rfl⟩, ?_, ?_⟩ <;> rw [h385]
      · exact if_pos (usesSrc1_of_ne (by decide) (by decide))
      · exact if_neg (by decide)
    have hmin : ∀ t : Held', v.hearth[h].UopReady (some a) (some b) (some imm) t 386 (nthD t.t 1 0) imm := fun t => by
      rw [hvx]
      refine ⟨hecc' 386 (by omega) (by omega), ⟨fun _ => rfl, fun _ => rfl⟩, ?_, ?_⟩ <;> rw [h386]
      · exact if_pos (usesSrc1_of_ne (by decide) (by decide))
      · exact if_pos (by decide)
    have hzero : x.get b + (0 : Word) = x.get b := BitVec.add_zero _
    have hloaded : u.runUops h i.pre (some a) (some b) (some imm) (.initial x.fl) 384 64 =
        v.runUops h i.pre (some a) (some b) (some imm) ((Held'.initial x.fl).keep (fld 0x0170 5 3) (bit 0x0170 14) (aluOther m)) 385 63 := by
      rw [runUops_load hload (by rw [h384]; rfl) (by rw [h384', h384'', hzero]; exact hread), State.uopThen,
        if_neg (by rw [h384]; decide), if_neg (by decide), h384]
    let t1 : Held' := { t := [BitVec.ofNat 16 m, 0, 0, 0], fl := x.fl, wrote := false, a := none, b := none }
    let t2 : Held' := { t1 with t := [BitVec.ofNat 16 m, BitVec.ofNat 16 (m / 8 % 256), 0, 0] }
    let t3 : Held' := { t2 with a := some r, fl := (Alu.full 16 r.toNat false false).flags x.fl, wrote := true }
    have hkeep1 : (Held'.initial x.fl).keep (fld 0x0170 5 3) (bit 0x0170 14) (aluOther m) = t1 := by
      simp only [t1, Held'.keep, Held'.initial, aluOther, word_full]
      rfl
    have hkeep2 : ∀ c, t1.keep (fld 0x0394 5 3) (bit 0x0394 14) (uopAlu (fld 0x0394 0 5) 0x0073 (BitVec.ofNat 16 m) 0 c) = t2 := by
      intro c
      have hbits : uopExt 0x0073 (BitVec.ofNat 16 m) = m / 8 % 256 := by
        have hlo : fld 0x0073 0 4 = 3 ∧ fld 0x0073 4 4 = 7 := by decide
        rw [uopExt, hlo.1, hlo.2, bitsAt, BitVec.toNat_ofNat]
        omega
      simp only [show fld 0x0394 5 3 = 4 from rfl, show bit 0x0394 14 = false from rfl, show fld 0x0394 0 5 = 20 from rfl,
        t1, t2, Held'.keep, uopAlu_eq, aluOther, word_full, hbits]
      rfl
    have hkeep3 : ∀ c, t2.keep (fld 0xD41B 5 3) (bit 0xD41B 14)
        (uopAlu (fld 0xD41B 0 5) (x.uop 386 1) (BitVec.ofNat 16 (m / 8 % 256)) imm c) = t3 := by
      intro c
      have hr : min (BitVec.ofNat 16 (m / 8 % 256)).toNat imm.toNat = r.toNat := by
        simp only [r, BitVec.toNat_ofNat]
        omega
      simp only [show fld 0xD41B 5 3 = 0 from rfl, show bit 0xD41B 14 = true from rfl, show fld 0xD41B 0 5 = 27 from rfl,
        t2, t3, Held'.keep, uopAlu_eq, aluOther, hr, word_full, BitVec.ofNat_toNat, BitVec.setWidth_eq]
      rfl
    have hx : u.hexec h i = v.commit h fun _ => { x.put a r with fl := merge 0x002F x.fl ((Alu.full 16 r.toNat false false).flags x.fl) } := by
      have hext := runUops_alu (p := i.pre) (f := 62) (hext t1) (by rw [hvx, h385]; decide)
      have hmin := runUops_alu (p := i.pre) (f := 61) (hmin t2) (by rw [hvx, h386]; decide)
      rw [hvx, h385, h385', State.uopThen, if_neg (by decide), if_neg (by decide)] at hext
      rw [hvx, h386, State.uopThen, if_pos (by decide)] at hmin
      rw [hexec_customer hs hform, hn, hloaded, hkeep1]
      refine hext.trans ((congrArg (fun t => v.runUops h i.pre (some a) (some b) (some imm) t 386 62) (hkeep2 _)).trans ?_)
      refine hmin.trans ((congrArg (fun t => v.commitHeldOps h (some a) (some b) t) (hkeep3 _)).trans ?_)
      rw [State.commitHeldOps_a a _ rfl rfl, hvx]
      rfl
    obtain ⟨hc, hz, hn', hv', hovs, hrest⟩ := flagsSet_word x.fl r false false
    have hfl : ∀ k, k < 16 → bit (merge 0x002F x.fl ((Alu.full 16 r.toNat false false).flags x.fl)) k =
        bit ((Alu.full 16 r.toNat false false).flags x.fl) k := fun k hk => by
      have hmask : ∀ k : Fin 16, bit (0x002F : Word) k = decide (k.val ∈ [0, 1, 2, 3, 5]) := by decide
      rw [bit_merge _ _ _ hk, hmask ⟨k, hk⟩]
      split
      · rfl
      next hout =>
        simp only [decide_eq_true_eq, List.mem_cons, List.not_mem_nil, or_false, not_or] at hout
        obtain ⟨h0, h1, h2, h3, h5⟩ := hout
        exact (hrest k hk h0 h1 h2 h3 h5).symm
    refine ⟨_, exec_customer_commit hs hit hform ?_ hx, ?_, by rw [State.ran_fl]⟩
    · exact Hearth.put_pc x a r
    · rw [State.ran_fl]
      exact ⟨(hfl 0 (by decide)).trans hc, (hfl 1 (by decide)).trans hz, (hfl 2 (by decide)).trans hn',
        (hfl 3 (by decide)).trans hv', (hfl 5 (by decide)).trans hovs,
        fun k hk h0 h1 h2 h3 h5 => (hfl k hk).trans (hrest k hk h0 h1 h2 h3 h5)⟩
  case noOperand =>
    intro h l u i k b imm s hs hit hform x n w0 hop hsrc
    refine exec_customer_trap hs hit hform ?_
    have hopn : fld (x.uop n 0) 0 5 = 0 := hop
    rw [hexec_customer hs hform]
    refine runUops_fault (.inr (hsrc.symm.imp (fun hdst => ⟨by rw [hopn]; decide, hdst, rfl⟩) fun h0 => ⟨by rw [hopn]; rfl, ?_⟩))
    have hsrc0 : fld (x.uop n 0) 8 3 = 0 := h0
    rw [hsrc0]
    rfl
  case pastEnd =>
    intro h l u i k a b imm s hs hit hform x hn hw0
    refine exec_customer_trap hs hit hform ?_
    have huop : x.uop 511 0 = 0x0752 := hw0
    rw [hexec_customer hs hform, hn]
    by_cases hecc : ∀ j, j < 3 → Sparse.get 0 x.uopEcc (3 * 511 + j) ≠ 2
    · have hready : x.UopReady a b imm (.initial x.fl) 511 0 0 := by
        refine ⟨hecc, ?_, ?_, ?_⟩ <;> rw [huop]
        · exact ⟨fun h0 => absurd h0 (by decide), fun h1 => absurd h1 (by decide)⟩
        · exact if_neg (by rw [show fld (0x0752 : Word) 0 5 = 18 from rfl]; simp [usesSrc1])
        · exact if_neg (by decide)
      rw [runUops_alu hready (by rw [huop]; decide), State.uopThen, if_neg (by rw [huop]; decide), if_pos rfl]
    · exact runUops_fault (.inl hecc)

end Sys2Proof.Machine
end
